-- ==== Sys2Proof/Word.lean ====
section
/-! DEFINITION. The word types of the AX6440 (R3, R28, R45). -/

namespace Sys2Proof

/-- A byte. -/
abbrev Byte := BitVec 8

/-- A register word of the CSR space (R292). -/
abbrev Word := BitVec 32

/-- The 64 bytes of a line, byte `i` in bits `[8 i + 7 : 8 i]` (R3). -/
abbrev Line := BitVec 512

/-- A line address, `pa[45:6]` (R45). -/
abbrev LineAddr := BitVec 40

end Sys2Proof
end

