-- ==== Sys2Proof/Syntax.lean ====
section
/-! DEFINITION. The commands the block takes: one constructor for each row of the opcode table, with the
operands the spec's text gives that event, and the types of those operands. -/

namespace Sys2Proof

/-- A flit as it arrives: the header slot and the data slot (R45), and on a Vrelcia link the route word (R368), which is 0
at an agent port. CHK stands in bits 127:96 of the header slot on both. -/
structure Flit where
  hdr   : BitVec 128
  route : BitVec 64 := 0
  data  : Line
deriving DecidableEq, Repr

/-- One side of a serial link of the device: an agent port or a Vrelcia link. -/
inductive Side where
  | ap (p : Fin 6)
  | vl (l : Fin 3)
deriving DecidableEq, Repr

/-- A master of a register access (R27, R292). -/
inductive Master where
  | ap (p : Fin 6)
  | vl (l : Fin 3)
  | host
  | net
  | chiso
deriving DecidableEq, Repr

/-- Bits of slice storage that upset before a request reads them (R227, R228): one of the four data
chunks of a way, a tag entry or a directory entry. The mask names the stored bits that flip. -/
inductive Flip where
  | chunk (set : BitVec 11) (way : BitVec 4) (n : BitVec 2) (bits : BitVec 137)
  | tag   (set : BitVec 11) (way : BitVec 4) (bits : BitVec 47)
  | dir   (set : BitVec 12) (way : BitVec 4) (bits : BitVec 56)
deriving DecidableEq, Repr

/-- A repair candidate Chiso acts on (R230): a surface way of a slice, or a Cistern physical slot. -/
inductive RepairLoc where
  | surface (slice : Fin 32) (set : BitVec 11) (way : BitVec 4)
  | cistern (preg : BitVec 8) (slot : BitVec 15)
deriving DecidableEq, Repr

/-- A participant of a global mode change that acknowledges PREPARE (R300, R301). -/
inductive Participant where
  | port (p : Fin 6)
  | link (l : Fin 3)
  | host
  | dict
  | mop
  | pump
  | priming
  | slice (n : Fin 32)
deriving DecidableEq, Repr

/-- A count of quadrature decoding at one sample (R245). -/
inductive Quad where
  | forward
  | reverse
  | illegal
deriving DecidableEq, Repr

/-- What one pass of a trim found (R257): the signed error in units of 10 ppm. -/
structure TrimPass where
  err : BitVec 16
deriving DecidableEq, Repr

/-- A thermal sensor: one of the device's own (R391), or one of the SPD hubs of a channel (R216, R217). -/
inductive Sensor where
  | die (k : Fin 8)
  | hub (c : Fin 4) (i : Fin 4)
deriving DecidableEq, Repr

/-- A host configuration write's outcome for the function (R313): the power state, Bus Master Enable,
MSI-X enable and the AER bits the host clears. -/
structure CfgWrite where
  d3hot  : Bool
  bme    : Bool
  msixEn : Bool
  aerClr : BitVec 4
deriving DecidableEq, Repr

/-- Which of the two mailboxes (R330). -/
inductive Mbx where
  | pci
  | csr
deriving DecidableEq, Repr

/-- The commands: one constructor for each row of the opcode table. -/
inductive Instr where
  -- coherent requests (R56)
  | rdShared (side : Side) (f : Flit) (flip : Option Flip)
  | rdOwn (side : Side) (f : Flit)
  | rdOnce (side : Side) (f : Flit)
  | upgrade (side : Side) (f : Flit)
  | itom (side : Side) (f : Flit)
  | wrPtl (side : Side) (f : Flit)
  | wrLine (side : Side) (f : Flit)
  | stashWr (side : Side) (f : Flit)
  | evict (side : Side) (f : Flit)
  | atomHome (side : Side) (f : Flit)
  | atomMem (side : Side) (f : Flit)
  | rsvLd (side : Side) (f : Flit)
  | condSt (side : Side) (f : Flit)
  | fenceLb (p : Fin 6) (f : Flit)
  | fenceSb (p : Fin 6) (f : Flit)
  | fenceFb (p : Fin 6) (f : Flit)
  | maintClean (side : Side) (f : Flit)
  | maintInvalidate (side : Side) (f : Flit)
  | maintCleanAndInvalidate (side : Side) (f : Flit)
  | maintPersist (side : Side) (f : Flit)
  | maintPreloadLock (side : Side) (f : Flit)
  | maintUnlock (side : Side) (f : Flit)
  | zeroLine (side : Side) (f : Flit)
  -- messages without a credit, answers and link control
  | linkKeep (side : Side) (f : Flit)
  | null (side : Side) (f : Flit)
  | rspI (side : Side) (f : Flit)
  | rspS (side : Side) (f : Flit)
  | rspF (side : Side) (f : Flit)
  | rspWbPending (side : Side) (f : Flit)
  | datClean (side : Side) (f : Flit)
  | datDirty (side : Side) (f : Flit)
  | wbData (side : Side) (f : Flit)
  | nak (side : Side) (f : Flit)
  | cap (p : Fin 6) (f : Flit)
  | capAck (p : Fin 6) (f : Flit)
  | badCheckValue (side : Side)
  | ackDue (side : Side)
  | replayTimeout (side : Side)
  | blockLockLoss (side : Side)
  | retrain (m : Master) (side : Side)
  | recoveryTimeout (side : Side)
  | ltssmAdvance (side : Side) (lanes : BitVec 16) (reversed : Bool)
  | trainingTimeout (side : Side)
  | capResend (p : Fin 6)
  | linkkeepInterval (side : Side)
  | heartbeatTimeout (side : Side)
  | forwardTimeout (p : Fin 6) (txid : BitVec 10)
  | portReset (m : Master) (p : Fin 6)
  | deadAgentScanDone (slice : Fin 32) (dev : Fin 4) (port : Fin 6)
  | reclamationDone (p : Fin 6)
  -- homes and buffers
  | fill (slice : Fin 32) (line : LineAddr) (err : BitVec 640)
  | repairAction (loc : RepairLoc)
  | conflictQueueLeave (slice : Fin 32)
  | evictionIssue (slice : Fin 32) (line : LineAddr)
  | evictionConfirm (slice : Fin 32) (line : LineAddr)
  | atomMemCompletion (slice : Fin 32) (line : LineAddr) (err : BitVec 640)
  | iwbAgeExpiry (p : Fin 6) (entry : Nat)
  | iwbEntryTaken (p : Fin 6) (entry : Nat)
  | inboundPieceTaken
  | sliceInitDone (slice : Fin 32)
  | drainingWalkDone (slice : Fin 32)
  | evacuationEmpty (slice : Fin 32)
  | cleaningConfirm (slice : Fin 32) (line : LineAddr)
  -- MOP engine
  | mopClean (m : Master) (slot : Fin 4) (scope : BitVec 3) (prio : Bool)
  | mopInvalidate (m : Master) (slot : Fin 4) (scope : BitVec 3) (prio : Bool)
  | mopCleanAndInvalidate (m : Master) (slot : Fin 4) (scope : BitVec 3) (prio : Bool)
  | mopPersist (m : Master) (slot : Fin 4) (scope : BitVec 3) (prio : Bool)
  | mopPreloadLock (m : Master) (slot : Fin 4) (scope : BitVec 3) (prio : Bool)
  | mopUnlock (m : Master) (slot : Fin 4) (scope : BitVec 3) (prio : Bool)
  | mopZeroLine (m : Master) (slot : Fin 4) (scope : BitVec 3) (prio : Bool)
  | mopSweep (m : Master) (slot : Fin 4) (scope : BitVec 3) (prio : Bool)
  | mopAbort (m : Master) (slot : Fin 4)
  | mopRel (m : Master) (slot : Fin 4)
  | mopLinePerformed (slot : Fin 4)
  | sweepGapExpiry (slot : Fin 4)
  -- remap, inspection, wear, governor
  | slcRmapWrite (m : Master) (slice : Fin 32) (k : Fin 8) (w : Word)
  | wayRemapDone (slice : Fin 32) (k : Fin 8)
  | cstRmdatWrite (m : Master) (w : Word)
  | cisternRemapCopyDone (die : Fin 2) (entry : Fin 64)
  | cstRmidxWrite (m : Master) (w : Word)
  | cstRidxWrite (m : Master) (w : Word)
  | slcDbgIdxWrite (m : Master) (slice : Fin 32) (w : Word)
  | gapMove (preg : BitVec 8)
  | wearCompare
  | regionCopyDone (die : Fin 2)
  | regionMapConfirmed (die : Fin 2)
  | governorAdmit
  | checkpointGo (m : Master)
  | checkpointRel (m : Master)
  | checkpointWritesConfirmed
  | checkpointRecordConfirmed
  | settingsRecordConfirmed
  -- supply, drain, restart
  | warnTrip
  | resetTrip
  | sagComparatorClear (warn : Bool)
  | railMonitorTrip (k : Fin 8)
  | railBelowMinimum (k : Fin 8)
  | channelShed (c : Fin 4)
  | peerReportWaitExpiry
  | drainScanDone (slice : Fin 32)
  | segmentConfirmed (slice : Fin 32)
  | drainForwardTimeout (p : Fin 6) (txid : BitVec 10)
  | drainPassDone
  | sealConfirmed
  | supplyRecovery
  | warmReset (m : Master) (w : Word)
  | warmResetEntryTimeout
  | suspectAccept (m : Master) (w : Word)
  | primingDone
  -- memory channels
  | refresh (c : Fin 4)
  | caParityAlert (c : Fin 4) (sub : BitVec 1) (rank : BitVec 2) (retryOk : Bool)
  | channelTrainingDone (c : Fin 4) (ok : Bool)
  | markLeak (c : Fin 4)
  | mchMarkWrite (m : Master) (c : Fin 4) (k : Fin 8) (w : Word)
  | mchCidxWrite (m : Master) (c : Fin 4) (w : Word)
  -- phase unit
  | phaseAEdge (rising : Bool)
  | phaseZEdge (rising : Bool)
  | quadCount (q : Quad)
  | coastedBoundary
  | quadNoEdgeTimeout
  | openQuietWindow (k : Fin 32)
  | closeQuietWindow (k : Fin 32)
  | quietWindowMax
  | applyBoundary (slot : Option (Fin 32))
  | slotCheckpoint (k : Fin 32)
  | measurementSnapshot (k : Fin 32)
  | raiseEvent (k : Fin 32)
  -- clocks
  | troReady
  | xtalReady
  | xtalTimeout
  | rootLock
  | spllLock
  | referenceChange
  | rampDwell
  | xmonTrip
  | tmonTrip
  | rmonTrip
  | troRestartTimeout
  | holdEnd
  | troFailedHoldEnd
  | trimGo (m : Master)
  | trimAutoInterval
  | trimPassDone (p : TrimPass)
  | trimPassTimeout
  | vcoreReached
  | voltageTimeout
  | dvfsMStep
  | thermalStep
  | sensorSample (which : Sensor) (temp : BitVec 12)
  | railSample (k : Fin 8) (mv : BitVec 14)
  -- configuration apply, domains, management controller
  | commit (m : Master) (mask : Word)
  | modeChangeAck (who : Participant)
  | modeChangeTimeout
  | domainOnDone (d : Fin 30)
  | domainOffDone (d : Fin 30)
  | mcuRestart (m : Master)
  | chisoRun
  | mcuFallback
  | csrWrite (m : Master) (off : BitVec 24) (w : Word)
  | csrTimeout
  | indDataRead (m : Master) (k : Fin 4)
  | indDataWrite (m : Master) (k : Fin 4) (w : Word)
  | evqPop (m : Master)
  | evqPopStall (m : Master)
  | msixUnmask (v : Fin 64)
  -- PCI Express
  | bar0Read (off : BitVec 24) (len : Nat) (tag : Nat)
  | bar0Write (off : BitVec 24) (bytes : List Byte) (ep : Bool)
  | bar2Read (off : BitVec 28) (len : Nat) (tag : Nat)
  | bar2Write (off : BitVec 28) (bytes : List (Option Byte)) (ep : Bool) (th : Bool) (st : BitVec 8)
  | bar4Write (off : BitVec 14) (w : Word)
  | pcieCompletionTimeout (tag : Nat)
  | functionLevelReset
  | hotReset
  | pciePerst
  | dmaTailWrite (m : Master) (c : Fin 2) (w : Word)
  | dmaEnable (m : Master) (c : Fin 2)
  | dmaAbort (m : Master) (c : Fin 2)
  | dmaHostCompletion (c : Fin 2) (off : Nat) (bytes : List Byte) (ep : Bool) (ok : Bool)
  | dmaDescriptorDone (c : Fin 2)
  -- mailboxes, dictionary, CAN
  | mbxStart (m : Master) (which : Mbx) (w : Word)
  | mbxRel (m : Master) (which : Mbx)
  | dictionaryRequestDone
  | nmtOperational (node : BitVec 7)
  | nmtStopped (node : BitVec 7)
  | nmtPreOperational (node : BitVec 7)
  | nmtResetNode (node : BitVec 7)
  | nmtResetCommunication (node : BitVec 7)
  | sdoDownload (frame : BitVec 64)
  | sdoUpload (frame : BitVec 64)
  | sdoSegment (frame : BitVec 64)
  | sdoAbort (frame : BitVec 64)
  | sdoTimeout
  | wellheadOpen (frame : Line)
  | wellheadData (frame : Line)
  | wellheadAck (frame : Line)
  | wellheadEnd (frame : Line)
  | wellheadAbort (frame : Line)
  | wellheadTimeout
  | heartbeatProducer
  | tpdoEventTimer (k : Fin 4)
  | emcySend
  | busOff
  | canTrimRetry
  | storeParameters (sub : BitVec 8) (sig : Word)
  | restoreDefaultParameters (sub : BitVec 8) (sig : Word)
  | bootSlotWrite (slot : Fin 2) (off : Nat) (bytes : List Byte)
  | bootSlotValidate (v : Byte)
  | bootActiveWrite (v : Byte)
  | firmwareImageWrite (slot : Fin 2) (off : Nat) (bytes : List Byte)
  | firmwareActivate (v : Byte)
  | rollbackCommit (v : Byte)
  | attestNonce (nonce : BitVec 256)
  | attestReportRead
  | bootRomVerifyDone
  | secDigest (m : Master)
  | secVerify (m : Master)
  | secAttest (m : Master)
  | secRel (m : Master)
  | secOperationDone
  | crcStart (m : Master) (u : Fin 4) (w : Word)
  | crcFeedD8 (m : Master) (u : Fin 4) (w : Word)
  | crcFeedD16 (m : Master) (u : Fin 4) (w : Word)
  | crcFeedD32 (m : Master) (u : Fin 4) (w : Word)
  | crcFin (m : Master) (u : Fin 4)
  | crcRel (m : Master) (u : Fin 4)
  -- start-up and federation
  | pwrgdIn (devid : BitVec 2)
  | settingsStoreReadDone
  | agentRelease
  | fedArstHoldWrite (m : Master) (w : Word)
  | arstDriveDelay (p : Fin 6)
  | vrAlert
  | ident (l : Fin 3) (f : Flit)
  | identAck (l : Fin 3) (f : Flit)
  | identResend (l : Fin 3)
  | epoch (l : Fin 3) (f : Flit)
  | epochAck (l : Fin 3) (f : Flit)
  | epochAckTimeout (dev : Fin 4)
  | stand (l : Fin 3) (f : Flit)
  | noticeSag (l : Fin 3) (f : Flit)
  | noticeDeadAgent (l : Fin 3) (f : Flit)
  | noticeLeaveRequest (l : Fin 3) (f : Flit)
  | noticeLeaveDone (l : Fin 3) (f : Flit)
  | noticeNoQueueEntries (l : Fin 3) (f : Flit)
  | leaveWalkDone
  | fedWaitExpiry
  | readyTimeout (dev : Fin 4)
  | fedRedo (m : Master)
  | linkOutOfService (l : Fin 3)
  -- measurement
  | msrSnap (m : Master)
  | msrClr (m : Master)
  | msrEvselWrite (m : Master) (k : Fin 8) (w : Word)
  | msrHcfgWrite (m : Master) (w : Word)
  | msrCidxWrite (m : Master) (w : Word)
  | msrHidxWrite (m : Master) (w : Word)
  -- rows the table adds at its end
  | idleFlit (side : Side) (f : Flit)
  | linkDeliveryFromPeerHome (l : Fin 3) (f : Flit)
  | peerScanComplete (l : Fin 3) (dev : Fin 4) (port : Fin 6)
  | remoteListDelivery (dev : Fin 4) (line : LineAddr)
  | restartClassificationDone
  | aonPowerOn
  | pwrgdInDeassert
  | pcieConfigWrite (c : CfgWrite)
  | dmaCompletionTimeout (c : Fin 2)
  | busOffRecovery
deriving DecidableEq, Repr

end Sys2Proof
end

