-- ==== Sys2Proof/Config.lean ====
section
/-! DEFINITION. What the spec leaves to the part or leaves open: constants without a body. Nothing can
evaluate them, so every statement holds whatever they are. -/

namespace Sys2Proof.Config

/-- GEN_ID.MINOR and GEN_ID.MAJOR, fused (R387; log entry 1). -/
opaque revision : BitVec 8
/-- The device serial number, fused (R387; log entry 1). -/
opaque serial : BitVec 64
/-- SEC_ID.ROMVER, from the boot ROM (R358; log entry 1). -/
opaque romVersion : BitVec 16
/-- The root key hash in fuses (R343, R358; log entry 1). -/
opaque rootKeyHash : BitVec 256
/-- SEC_FUSE.RKH, fused (R358; log entry 1). -/
opaque rootKeyFused : Bool
/-- The PCI Vendor ID, fused (R313; log entry 1). -/
opaque vendorId : BitVec 16
/-- The CANopen Vendor-ID of 0x1018 subindex 1 (R332; log entry 1). -/
opaque canVendorId : BitVec 32
/-- The characters of the Chiso version, 0x100A (R332; log entry 1). -/
opaque chisoVersion : List (BitVec 8)
/-- The identity certificate, 0x2B65 subindex 2 (R351; log entry 1). -/
opaque certificate : List (BitVec 8)
/-- The identity public key that ML-DSA key generation gives from the seed (R349, R350; log entry 11). -/
opaque identityKey : List (BitVec 8)
/-- ML-DSA.Verify of FIPS 204: public key, message, signature, context (R343, R354; log entry 11). -/
opaque mldsaVerify : List (BitVec 8) → List (BitVec 8) → List (BitVec 8) → List (BitVec 8) → Bool
/-- The ML-DSA signature of the identity key over a message and a context, at the `n`th signing (R352; log entry 11). -/
opaque mldsaSign : Nat → List (BitVec 8) → List (BitVec 8) → List (BitVec 8)
/-- Data of a DRAM line that no write has defined (R19, R218), by line and read (log entry 12). -/
opaque dramUndefined : Nat → Nat → BitVec 512
/-- A load-to-data latency in nanoseconds that the model does not time (R9, R92; log entry 13). -/
opaque latency : Nat → BitVec 32
/-- Bytes of the shipped Chiso image of firmware slot A (R411; log entry 7). -/
opaque shippedImage : List (BitVec 8)
/-- The speed, bits 1:0, and width, bits 3:2, that the PCI Express link trains to with its host (R313, R339; log entry 23). -/
opaque hostLink : BitVec 4
/-- A value the spec leaves open, at the `n`th use (log entry 2). -/
opaque freeWord : Nat → BitVec 32

/-- The configuration that the SPD hubs of a channel give, as MCH_CFG bits 4:0 hold it (R218, R238; log entry 118). -/
opaque spd : Nat → BitVec 5

/-- The lines a record of the metadata partition or the settings store fills, by kind and use (R189, R201; log entry 16). -/
opaque recordLines : Nat → Nat → Nat

end Sys2Proof.Config
end

