-- ==== Sys2Proof/Machine/State.lean ====
section
/-! DEFINITION. Everything the spec gives the machine to hold, as plain data, and the machine right after
the power-on of AON. An indexed family is a list of (index, value) pairs in rising order; an index that is
not listed holds its reset value. -/

namespace Sys2Proof.Machine

/-- An indexed family: (index, value) pairs, indexes strictly rising. -/
abbrev NMap (α : Type) := List (Nat × α)

/-- An agent of the federation: device and port (R98). -/
structure Agent where
  dev  : Nat
  port : Nat
deriving DecidableEq, Repr

/-- Who sent a request to a home (R12, R72). -/
inductive Who where
  | agent (a : Agent)
  | host
  | dma (c : Nat)
  | dict
  | crypto
  | mop (slot : Nat)
  | pump
  | prime
  | csr (m : Nat) (k : Nat)
deriving DecidableEq, Repr

/-- What a request asks of a home (R56, R84, R154, R175, R211, R379). -/
inductive HOp where
  | rdShared | rdOwn | rdOnce | rsvLd | upgrade | itoM
  | write | stashWr | evict | atomHome | atomMem | condSt
  | maint (mopc : Nat)
  | sweep
  | recallDirty
  | evacuate
  | leave (dev : Nat)
  | primeFill
  | wb
  | scrub
deriving DecidableEq, Repr

/-- A request as it stands at its home (R45, R84, R113, R302). `entry` is the ingress entry or inbound
piece that sent it; `seq` its place in the order of arrival at H1, `turned` that it was turned back at H4 (R79, R128); `hdr` the header slot it
came with. -/
structure HReq where
  who    : Who
  link   : Option Nat := none
  tx     : Nat := 0
  op     : HOp
  line   : LineAddr
  data   : Line := 0
  mask   : BitVec 64 := 0
  poison : Bool := false
  arg    : BitVec 12 := 0
  acq    : Bool := false
  rcl    : Bool := false
  stash  : Bool := false
  epoch  : Nat := 0
  entry  : Option Nat := none
  seq    : Nat := 0
  turned : Bool := false
  hdr    : BitVec 128 := 0
deriving DecidableEq, Repr

/-- A message out to an agent or a peer, before it is numbered (R45). `cls` is 0 REQ, 1 FWD, 2 RSP, 3 DAT, 4 none;
`done` marks what completes a request of the port's agent; `dest` is the port of the agent that it goes to about its line (7: every agent of a
peer), none for a message about no line or to no agent (R117). -/
structure Msg where
  opc    : Nat
  cls    : Nat
  tx     : Nat := 0
  line   : LineAddr := 0
  poison : Bool := false
  arg    : BitVec 12 := 0
  mark   : Nat := 0
  data   : Line := 0
  route  : BitVec 64 := 0
  done   : Bool := false
  dest   : Option Nat := none
deriving DecidableEq, Repr

/-- An agent's or a peer's answer as it reaches a home (R56). `dead` marks a dead answer (R131). -/
structure HAns where
  src    : Agent
  link   : Option Nat := none
  hdr    : BitVec 128 := 0
  tx     : Nat
  opc    : Nat
  line   : LineAddr
  arg    : BitVec 12 := 0
  data   : Line := 0
  poison : Bool := false
  dead   : Bool := false
deriving DecidableEq, Repr

/-- A surface way that is not invalid (R69): ST is 3 while `pend`, 2 when `dirty`, else 1. -/
structure Way where
  line   : LineAddr
  pend   : Bool := false
  dirty  : Bool := false
  p      : Bool := false
  lock   : Bool := false
  allot  : Nat := 0
  poison : Bool := false
  boot   : Bool := false
  data   : Line := 0
deriving DecidableEq, Repr

/-- A directory entry (R98). `hld` is none in DI and DS. -/
structure Dir where
  line : LineAddr
  dst  : Nat
  shr  : BitVec 9 := 0
  hld  : Option Agent := none
  trs  : Nat := 0
deriving DecidableEq, Repr

/-- H's answer, held until a round is resolved (R120). -/
structure Got where
  dirty  : Bool
  st     : Nat
  data   : Line
  poison : Bool
  none   : Bool := false
deriving DecidableEq, Repr

/-- The WbData that the writeback slot of an MSHR holds (R120). -/
structure WbSlot where
  src    : Agent
  link   : Option Nat := none
  tx     : Nat
  st     : Nat
  data   : Line
  poison : Bool
deriving DecidableEq, Repr

/-- One forward outstanding: to an agent, or to a peer's agents through a link under R115. -/
inductive Target where
  | agent (a : Agent)
  | peer (link : Nat)
deriving DecidableEq, Repr

/-- What an MSHR waits for beside a round (R76, R77, R80, R85, R129, R226): a fill; a way or an eviction-buffer
entry; the confirmation of a write to the backing store; the channel's operation; a directory way; a corrective write. -/
inductive Wait where
  | none
  | fill
  | room
  | confirm
  | atomic
  | dirWay
  | fixed
deriving DecidableEq, Repr

/-- A Cistern line (R169): data, POISON and SEQ; its ACHK is that of the line. -/
structure CLine where
  data   : Line
  poison : Bool
  seq    : Nat
deriving DecidableEq, Repr

/-- An MSHR (R77, R119, R120). `trs` is 0 to 8, `plus` the +WB half of a code; `h` the holder the round names;
`home` the home copy once it was fetched; `stored` what is on its way to the
backing store, `admitted` once the store took it, `confirmed` at the end; `answered` once the completing message went. `tier` is what the
probe of the Tier read, `hop` the opcode sent to `h`, `offer` the STATE of a stash offer, `keeps` that the MSHR alone holds the stashed line,
`early` that H's data of the round are written, and `code` the outcome of a sweep's read. -/
structure Mshr where
  req    : HReq
  secs   : List HReq := []
  trs    : Nat := 0
  plus   : Bool := false
  wait   : Wait := .none
  awaits : List Target := []
  h      : Option Agent := none
  got    : Option Got := none
  slot   : Option WbSlot := none
  victim : Option LineAddr := none
  way    : Option Nat := none
  noRoom : Bool := false
  home   : Option (Line × Bool) := none
  tier   : Option (Nat × CLine) := none
  stored : Option (Line × Bool) := none
  admitted : Bool := false
  confirmed : Bool := false
  answered : Bool := false
  offered : Bool := false
  hop    : Nat := 0
  offer  : Nat := 0
  keeps  : Bool := false
  early  : Bool := false
  code   : Nat := 0
deriving DecidableEq, Repr

/-- An eviction-buffer entry (R80); WRITING when `writing`. `after` are the maintenance requests that complete
when the entry is freed (R81). -/
structure Evb where
  line    : LineAddr
  data    : Line
  p       : Bool
  poison  : Bool
  writing : Bool := false
  delayed : Bool := false
  after   : List HReq := []
  dead    : Bool := false
deriving DecidableEq, Repr

/-- A write of a resident line to its backing store that leaves the way in place (R154, R175): `written` once a write
reached the line after it was read; `pump` for the pump's own cleanings; `after` the requests that complete with it. -/
structure Cleaning where
  line    : LineAddr
  data    : Line
  poison  : Bool
  p       : Bool := true
  admitted : Bool := false
  written : Bool := false
  pump    : Bool := true
  after   : List HReq := []
deriving DecidableEq, Repr

/-- A manifest entry of the drain (R200): kind and line. -/
structure MEntry where
  kind : Nat
  line : Nat
deriving DecidableEq, Repr

/-- What a slice holds (R69–R95, R98, R111, R163, R173–R178, R200, R230, R283, R389). `lost` are directory ways out of
service and `gone` surface ways out of service without a remap entry (R228); `oldSet` the allotment registers of the
epoch before, while a request of it remains (R302); `arrivals` counts the requests that came to H1, and `source` is the round-robin pointer of
R72. -/
structure Slice where
  ways     : NMap Way := []
  ages     : NMap (BitVec 120) := []
  dir      : NMap Dir := []
  dages    : NMap (BitVec 120) := []
  upsets   : List Flip := []
  lost     : List Nat := []
  gone     : List Nat := []
  mshrs    : List Mshr := []
  evb      : List Evb := []
  cq       : List HReq := []
  held     : List HReq := []
  rsv      : List (Who × BitVec 39) := []
  dead     : List Agent := []
  scans    : List Agent := []
  cleans   : List Cleaning := []
  cursor   : Nat := 0
  cleaning : Bool := false
  trimming : Option (Agent × Bool) := none
  walk     : Nat := 0
  evacOn   : Bool := false
  epoch    : Nat := 0
  oldSet   : Option (Nat × NMap Word) := none
  hist     : List (Nat × Nat) := []
  ctr      : NMap Nat := []
  manifest : List MEntry := []
  passAt   : Nat := 0
  scanned  : Bool := false
  segment  : Bool := false
  arrivals : Nat := 0
  source   : Nat := 0
deriving DecidableEq, Repr

/-- A flit of the replay buffer (R48), with the ACK and the credits it left with; `times` is how often it was resent (R50). -/
structure Sent where
  seq : Nat
  msg : Msg
  ack : Nat := 0xFF
  crcls : Nat := 0
  crcnt : Nat := 0
  times : Nat := 0
deriving DecidableEq, Repr

/-- The link layer of a port or a Vrelcia link (R48–R53, R368). `crd` are the credits held for the far side's
queues and `owed` those to give back, in class order; `room` the credits the far side still holds. -/
structure Lnk where
  rxSeq   : Nat := 0
  txSeq   : Nat := 0
  replay  : List Sent := []
  nakked  : Bool := false
  detects : Nat := 0
  retrain : Bool := false
  crd     : Nat × Nat × Nat × Nat := (0, 0, 0, 0)
  owed    : Nat × Nat × Nat × Nat := (0, 0, 0, 0)
  room    : Nat × Nat × Nat × Nat := (0, 0, 0, 0)
  egress  : List Msg := []
  capAck  : Bool := false
  capSeen : Bool := false
deriving DecidableEq, Repr

/-- A request an agent has outstanding at its port (R55, R82, R143–R145). `ord` is its place in port order. `place` 0: in the
REQ receive queue; 1: sent to a home or the CSR root; 2: a fence that waits, of the group `group`; 3: its completing
message stands in the port's egress. `olay` are the bytes an RdOnce overlays (R86). -/
structure Txn where
  ord   : Nat := 0
  tx    : Nat
  opc   : Nat
  line  : LineAddr
  mark  : Nat
  arg   : BitVec 12
  data  : Line := 0
  poison : Bool := false
  hdr   : BitVec 128 := 0
  place : Nat := 0
  group : Nat := 0
  olay  : List (Line × BitVec 64 × Bool) := []
deriving DecidableEq, Repr

/-- A forward outstanding to a port's agent (R55): its TXID at the port, the opcode, and where the answer goes.
`peer` is the link, route and link TXID of a forward that a peer's home sent; `gather` marks one of R115's deliveries;
`pulled` a stash offer that waits for its data (R63). -/
structure Fwd where
  tx     : Nat
  line   : LineAddr
  opc    : Nat
  slice  : Nat := 0
  peer   : Option (Nat × BitVec 64 × Nat) := none
  gather : Bool := false
  pulled : Bool := false
deriving DecidableEq, Repr

/-- A forward of this device outstanding at a peer (R113, R115, R368); port 7 stands for all of a peer's agents. -/
structure LFwd where
  tx    : Nat
  line  : LineAddr
  dest  : Agent
  slice : Nat
deriving DecidableEq, Repr

/-- An ingress write buffer entry (R82). -/
structure Entry where
  id      : Nat
  ord     : Nat := 0
  line    : LineAddr
  data    : Line
  mask    : BitVec 64
  p       : Bool
  poison  : Bool
  release : Bool
  group   : Nat
  stash   : Option (BitVec 12) := none
  sent    : Bool := false
  aged    : Bool := false
  atHome  : Bool := false
deriving DecidableEq, Repr

/-- What a port holds beside its registers. `fwdWait` are forwards that wait for a free TXID (R55). -/
structure Port where
  lnk     : Lnk := {}
  txns    : List Txn := []
  fwds    : List Fwd := []
  fwdNext : Nat := 0
  fwdWait : List (Fwd × Msg) := []
  iwb     : List Entry := []
  iwbNext : Nat := 0
  group   : Nat := 0
  arrivals : Nat := 0
  resv    : Option (BitVec 39) := none
  histo   : NMap Nat := []
  poisoned : Nat := 0
  peersDone : List Nat := []
  resetting : Bool := false
deriving DecidableEq, Repr

/-- A delivery that a peer link is collecting (R115): the home's TXID and line, and the ports still to answer. -/
structure Gather where
  tx    : Nat
  line  : LineAddr
  route : BitVec 64
  left  : List Nat
deriving DecidableEq, Repr

/-- A request of this device outstanding at a peer's home (R368). -/
structure Remote where
  tx  : Nat
  req : HReq
deriving DecidableEq, Repr

/-- What a Vrelcia link holds beside its registers (R368–R371). -/
structure Vl where
  lnk     : Lnk := {}
  remotes : List Remote := []
  fwds    : List LFwd := []
  fwdWait : List (LFwd × Msg) := []
  txNext  : Nat := 0
  gathers : List Gather := []
  waiting : List HReq := []
  inq     : List HReq := []
  pExpect : Nat := 0
  pLinked : Nat := 0
  pTaint  : Bool := false
  pEpoch  : Nat := 0
  pCoord  : Nat := 0xFF
  identified : Bool := false
  leaving : Bool := false
  walked  : Bool := false
  noQueue : Bool := false
  pCr     : Nat × Nat × Nat × Nat := (64, 64, 64, 64)
  recallers : List Nat := []
  dead    : Bool := false
deriving DecidableEq, Repr

/-- A DRAM line as the channel stores it (R220, R221): the data symbols, and the check symbols c_0 and c_1 of codeword `i` in bytes 2 i and
2 i + 1 of `chk`; `poison` that they carry the poison pattern. -/
structure DLine where
  data   : Line
  poison : Bool
  chk    : BitVec 128
deriving DecidableEq, Repr

/-- What a memory channel holds beside its registers (R218, R224). -/
structure Chan where
  trained : Option Word := none
  leaky   : NMap Nat := []
  total   : NMap Nat := []
  corr    : Nat := 0
  hot     : List Nat := []
deriving DecidableEq, Repr

/-- The wear state of a physical region (R182, R183). -/
structure Region where
  start : Nat := 0
  gap   : Nat := 16384
  since : Nat := 0
  owed  : Nat := 0
  wear  : Nat := 0
deriving DecidableEq, Repr

/-- A region move in progress on a die (R183): `next` is the copy pointer, `recorded` that the new map's record was written. -/
structure Move where
  src  : Nat
  dst  : Nat
  next : Nat := 0
  copied : Bool := false
  recorded : Bool := false
deriving DecidableEq, Repr

/-- A Cistern remap entry (R232, R240). -/
structure Remap where
  preg  : Nat := 0
  slot  : Nat := 0
  pend  : Bool := false
  valid : Bool := false
deriving DecidableEq, Repr

/-- What a metered write does once its last line is admitted (R187). `lines` and `twin` have no effect beside the lines; `fwHead` and `fwData`
are writes of a firmware area, which lies outside the regions (R341). -/
inductive GKind where
  | evb (slice : Nat) (line : LineAddr)
  | clean (slice : Nat) (line : LineAddr)
  | direct (slice : Nat) (line : LineAddr)
  | corrective (line : Nat)
  | checkpoint
  | mapRecord (die : Nat)
  | conf
  | bootSlot (line : Nat) (data : Line)
  | gap (preg : Nat)
  | remap (entry : Nat)
  | region (die : Nat)
  | settings (copy : Nat)
  | lines
  | twin (preg : Nat)
  | fwHead (slot act : Nat) (good tried : Bool)
  | fwData (slot off : Nat) (bytes : List Byte)
deriving DecidableEq, Repr

/-- A metered write (R185, R187): its priority, the lines still to be admitted, and, for a record, the Cistern line of the next one. -/
structure GWrite where
  prio : Nat
  kind : GKind
  left : Nat := 1
  place : Option Nat := none
deriving DecidableEq, Repr

/-- The Cistern and its controller (R168–R192). `lines` lists the lines that differ from what their logical region holds otherwise:
zero lines, whose SEQ is 0 or, after a change of the split, what `zeroed` gives (R172). -/
structure Cis where
  lines  : NMap CLine := []
  map    : NMap Nat := []
  regions : NMap Region := []
  moves  : NMap Move := []
  remaps : NMap Remap := []
  tier   : NMap Nat := []
  level  : Int := 0x1000000000
  frac   : BitVec 32 := 0
  queue  : List GWrite := []
  total  : BitVec 48 := 0
  drain  : BitVec 48 := 0
  locs   : NMap (List (Nat × Nat)) := []
  zeroed : NMap Nat := []
  compared : Nat := 0
  arrived : Nat := 0
deriving DecidableEq, Repr

/-- A manifest area (R201). The header is `header` to `gs`; the Complete record holds `entries`, the counts of `counts` and `crc`, the CRC-32C
of all segments; the seal is `sealOk` to `primeLim`. -/
structure Area where
  header   : Bool := false
  gen      : Nat := 0
  suspect  : Bool := false
  gs       : Nat := 0
  segments : NMap (List MEntry) := []
  complete : Bool := false
  entries  : Nat := 0
  counts   : NMap Nat := []
  crc      : Word := 0
  progress : NMap Nat := []
  remote   : List (Nat × LineAddr) := []
  heat     : List Nat := []
  sealOk   : Bool := false
  sealGen  : Nat := 0
  tbStart  : BitVec 64 := 0
  tbSeal   : BitVec 64 := 0
  reason   : Nat := 0
  time     : Nat := 0
  sealCrc  : Word := 0
  heatN    : Nat := 0
  bootSlot : Nat := 0
  primeEn  : Bool := true
  primeWait : Bool := true
  heatw    : Nat := 1
  primeLim : Nat := 0x0D0000
deriving DecidableEq, Repr

/-- A wear record (R171, R184, R188): `no` counts the records, and the stamps are TBASE and PHU_PHASE of its checkpoint. -/
structure WearRec where
  no    : Nat := 0
  map   : NMap Nat := []
  regs  : NMap Region := []
  level : Int := 0x1000000000
  seq   : Nat := 0
  tb    : BitVec 64 := 0
  phase : Word := 0
deriving DecidableEq, Repr

/-- What training leaves for a channel (R218): the MCH_CFG word that it trained with. -/
abbrev Trained := NMap Word

/-- A configuration record (R171): the recorded split, the training values, and the Restored fields that no manifest record holds. -/
structure ConfRec where
  no      : Nat := 0
  split   : Nat := 48
  trained : Trained := []
  total   : BitVec 48 := 0
  drain   : BitVec 48 := 0
deriving DecidableEq, Repr

/-- A snapshot area (R171, R210). -/
structure Snap where
  no    : Nat := 0
  lines : List Nat := []
deriving DecidableEq, Repr

/-- Two copies of a record that are written in turn (R171): a copy is none where it was never complete. -/
structure Pair (α : Type) where
  one : Option α := none
  two : Option α := none
deriving DecidableEq, Repr

/-- The records of the metadata partition (R171, R184, R210, R214). `split` is the split in use; `health` the ring of the health log. -/
structure Meta where
  area0    : Area := {}
  area1    : Area := {}
  snaps    : Pair Snap := {}
  wears    : Pair WearRec := { one := some {} }
  confs    : Pair ConfRec := { one := some {} }
  health   : List (List Word) := []
  healthNo : Nat := 0
  split    : Nat := 48
  lastReason : Nat := 0
  lastTime : Nat := 0
  lastEntries : Nat := 0
deriving DecidableEq, Repr

/-- A boot slot header (R347). -/
structure BootHdr where
  len   : Nat := 0
  crc   : Word := 0
  valid : Bool := false
deriving DecidableEq, Repr

/-- What a record of the settings journal says (R189, R224, R230, R328, R347): a dictionary value; the end of a batch; a boot slot's header; the
slot active from the next start; a group that takes its defaults then; a location for a fuse spare; a channel's mark. -/
inductive JVal where
  | entry (key : Nat) (bytes : List Byte)
  | batchEnd
  | boot (slot : Nat) (header : BootHdr)
  | active (slot : Nat)
  | defaults (group : Nat)
  | fuse (loc : RepairLoc)
  | mark (index : Nat) (dev : Option Nat)
deriving DecidableEq, Repr

/-- A record of the settings journal (R189): its value, its 32-bit sequence number, and whether its CRC-32C fits. -/
structure JRec where
  val : JVal
  seq : Nat
  ok  : Bool := true
deriving DecidableEq, Repr

/-- A copy of the settings journal (R189): its active region, the records in it and the lines they fill; and the snapshot that its spare region
holds until both copies switch. -/
structure JCopy where
  region : Nat := 0
  recs   : List JRec := []
  used   : Nat := 0
  spare  : Option (List JRec × Nat) := none
deriving DecidableEq, Repr

/-- What Chiso writes to both copies: records of so many lines; a snapshot into the spare regions; or a batch whose end answers a request. -/
structure Job where
  vals   : List JVal
  lines  : Nat
  snap   : Bool := false
  answer : Bool := false
deriving DecidableEq, Repr

/-- The settings store (R189, R328): the values in force, the two copies, and Chiso's writes, the first of them under way: `stage` 1 at copy
A, 2 at copy B; `waiting` that this copy's write was made and awaits its confirmation. -/
structure Journal where
  image   : NMap (List Byte) := []
  active  : Nat := 0
  fuses   : List RepairLoc := []
  marks   : NMap Nat := []
  copyA   : JCopy := {}
  copyB   : JCopy := {}
  seq     : Nat := 0
  jobs    : List Job := []
  stage   : Nat := 0
  waiting : Bool := false
deriving DecidableEq, Repr

/-- A firmware slot (R341): header and image; `shipped` while it holds the image it left the factory with (R411). -/
structure Fw where
  act   : Nat := 0
  good  : Bool := false
  tried : Bool := false
  image : List Byte := []
  shipped : Bool := false
deriving DecidableEq, Repr

/-- The management controller (R287, R288, R343): the slots the boot ROM has still to try, whether an image has been started,
and whether this is a restart; the error records that Chiso has still to copy into the health log, with whether it also sends an EMCY. -/
structure Mcu where
  owed    : List (List Word × Bool) := []
  order   : List Nat := []
  started : Bool := false
  restart : Bool := false
deriving DecidableEq, Repr

/-- A walk of a MOP command over the ways or the directory of a slice (R158): the place it has come to, and where it ends. -/
structure MopWalk where
  slice : Nat
  dir   : Bool := false
  next  : Nat := 0
  stop  : Nat
deriving DecidableEq, Repr

/-- A MOP slot (R157–R161). `phase` 0 FREE, 1 BUSY, 2 DONE; `walk` are the walks that have not ended. -/
structure Mop where
  phase  : Nat := 0
  op     : Nat := 0
  scope  : Nat := 0
  prio   : Bool := false
  addr   : LineAddr := 0
  count  : Nat := 0
  next   : Nat := 0
  slice  : Nat := 0
  set    : Nat := 0
  way    : Nat := 0
  walk   : List MopWalk := []
  flight : List LineAddr := []
  lag    : List (LineAddr × Nat) := []
  done   : Nat := 0
  failed : Nat := 0
  unc    : Nat := 0
  corr   : Nat := 0
  faddr  : Option LineAddr := none
  status : Nat := 0
  cause  : Nat := 0
  seq    : Nat := 0
  abort  : Bool := false
  gapOk  : Bool := true
  doms   : List Nat := []
deriving DecidableEq, Repr

/-- A checkpoint (R188). `phase` 0 free, 1 BUSY, 2 VALID. -/
structure Ckpt where
  phase  : Nat := 0
  seq    : Nat := 0
  next   : Nat := 1
  status : Nat := 0
  tb     : BitVec 64 := 0
  ph     : Word := 0
  walked : Bool := false
  todo   : List (Nat × HOp × LineAddr) := []
  left   : List LineAddr := []
  record : Bool := false
deriving DecidableEq, Repr

/-- The drain (R198–R203). `stage` 0 none; 1 waiting for peers; 2 scanning; 3 segments; 4 passes; 5 seal; 6 sealed. `told` are
the links over which this device has reported empty queues; `remote` the addresses that the remote list held when this start classified it,
until they are sent; `shedWait` that WARN tripped before a header was written. -/
structure Drain where
  stage  : Nat := 0
  reason : Nat := 0
  tb     : BitVec 64 := 0
  told   : List Nat := []
  remote : List (Nat × LineAddr) := []
  shedWait : Bool := false
deriving DecidableEq, Repr

/-- Supply pins, comparators and rail monitors (R193–R197, R366, R396, R397, R399). `aonLost` that no start came since AON was powered; `low`
the monitors whose last sample lies below their limit; `railWait` that a start waits for them. -/
structure Supply where
  warn    : Bool := false
  rst     : Bool := false
  pwrgd   : Bool := false
  sagN    : Bool := false
  inReset : Bool := true
  aonLost : Bool := true
  low     : List Nat := []
  railWait : Bool := false
deriving DecidableEq, Repr

/-- The start sequence (R360–R366). `phase` 0 before step 6; 1 the profile's AON values are being committed; 2 the rest; 3 step 6 is
complete, which is `profile`. `cooling` are the pins undriven less than 10 µs ago; `memFail` the channels whose failure was
recorded. `primeQ` are the lines still to be primed, `primeOut` how many are on their way. -/
structure Start where
  running  : Bool := false
  cause    : Nat := 0
  tb       : BitVec 64 := 0
  devid    : Nat := 0
  domains  : Bool := false
  rom      : Bool := false
  settings : Bool := false
  classified : Bool := false
  blank    : Bool := false
  phase    : Nat := 0
  profile  : Bool := false
  released : Bool := false
  bootSlot : Nat := 0
  primeQ   : List LineAddr := []
  primeOut : Nat := 0
  cooling  : List Nat := []
  faults   : List Nat := []
  memFail  : List Nat := []
deriving DecidableEq, Repr

/-- A commit in progress (R298). `step` 1 to 4. -/
structure Commit where
  mask   : Word
  slices : Word
  step   : Nat := 1
  offs   : List Nat := []
  refused : Word := 0
deriving DecidableEq, Repr

/-- A global mode change in progress (R301): who has still to acknowledge, whether it changes the DIR block, and the
slices affected. -/
structure Mode where
  dir     : Bool
  left    : List Participant
  slices  : List Nat
  epoch   : Nat
  lost    : List Nat := []
deriving DecidableEq, Repr

/-- The clock unit's hidden state (R256–R270). -/
structure Clk where
  xtalGood : Bool := false
  onTro    : Bool := false
  troTries : Nat := 1
  m        : Nat := 8
  vcore    : Nat := 650
  ramp     : List Nat := []
  volt     : Bool := false
  moving   : Bool := false
  goal     : Nat := 0
  limit    : Nat := 5
  stopped  : Bool := false
  toInt    : Bool := false
  trimPass : Nat := 0
  trimOld  : BitVec 12 := 0
  trimTemp : NMap (BitVec 12) := []
  holdTb   : BitVec 64 := 0
  svcBack  : Bool := false
  mcu      : Nat := 0
deriving DecidableEq, Repr

/-- The phase unit's hidden state (R243–R252). `passed` are the armed slots that forward counting has passed in QUAD mode; `staged` are the words that
an apply boundary takes, which act from the next tick on (R252). -/
structure Phu where
  started  : Bool := false
  lastTb   : BitVec 64 := 0
  lastReal : Bool := false
  ivals    : Nat := 0
  cycle    : BitVec 16 := 0
  frac     : BitVec 16 := 0
  base     : Nat := 0
  baseTb   : BitVec 64 := 0
  q        : Nat := 0
  lineIx   : Nat := 0
  coasted  : Nat := 0
  armed    : List Nat := []
  passed   : List Nat := []
  staged   : NMap Word := []
deriving DecidableEq, Repr

/-- A mailbox (R330). `phase` 0 free, 1 BUSY, 2 VALID. -/
structure MbxSt where
  phase : Nat := 0
  index : Nat := 0
  sub   : Nat := 0
  wr    : Bool := false
  len   : Nat := 0
  off   : Nat := 0
  data  : List Byte := []
  seq   : Nat := 0
  next  : Nat := 1
  abort : Option Word := none
deriving DecidableEq, Repr

/-- Where a dictionary request came from (R326): the SDO server, with the toggle bit of the segment that completed it; a
mailbox; the Wellhead session of a number; the row of the table that is this request; or a transfer that has ended since. -/
inductive DSrc where
  | sdo (seg : Option Bool)
  | mbx (which : Mbx)
  | well (id : Nat)
  | row
  | ended
deriving DecidableEq, Repr

/-- A dictionary request waiting for Chiso (R326). `memory` marks one of physical memory, at the address `off`; `loose` a write
whose length the frame does not say; `going` that Chiso waits for what it asked of another unit, and `answer` what
it will say once it runs again (R287). -/
structure DReq where
  src   : DSrc
  index : Nat
  sub   : Nat
  wr    : Bool
  off   : Nat := 0
  len   : Nat := 0
  data  : List Byte := []
  memory : Bool := false
  loose : Bool := false
  going : Bool := false
  answer : Option (Word × List Byte) := none
deriving DecidableEq, Repr

/-- A segmented SDO transfer (R334). -/
structure SdoXfer where
  up     : Bool
  index  : Nat
  sub    : Nat
  toggle : Bool := false
  size   : Option Nat := none
  data   : List Byte := []
deriving DecidableEq, Repr

/-- A Wellhead session (R337, R338). `data` are the bytes that came so far, from the client or from the entry or memory; `asked`
how many of them were asked of Chiso or given to it to write; `seq` the DATA frames accepted in order or sent, `acked` those
acknowledged; `left` the lines that Chiso has still to do; `ending` that END was received and `code` what DONE
will say. -/
structure Well where
  id     : Nat
  wr     : Bool
  memory : Bool
  index  : Nat
  sub    : Nat
  addr   : Nat
  length : Nat
  data   : List Byte := []
  asked  : Nat := 0
  seq    : Nat := 0
  acked  : Nat := 0
  left   : Nat := 0
  ending : Bool := false
  code   : Word := 0
deriving DecidableEq, Repr

/-- The CAN node (R331–R336). -/
structure Can where
  booted  : Bool := false
  emcy    : List (List Byte) := []
  errReg  : BitVec 8 := 0
  heart   : BitVec 16 := 0
  sdo     : Option SdoXfer := none
  well    : Option Well := none
  cob     : NMap Word := []
  ttype   : NMap Nat := []
  inhibit : NMap Nat := []
  timer   : NMap Nat := []
  mapping : NMap (List Word) := []
  due     : List Nat := []
  sentTb  : NMap (BitVec 64) := []
  mapN    : NMap Nat := []
  wellNext : Nat := 0
deriving DecidableEq, Repr

/-- A piece of the inbound PMEM write queue (R315), or a line that a DMA channel is to write (R322). `going` once it is on
its way to its home. -/
structure Piece where
  id     : Nat
  line   : LineAddr
  data   : Line
  mask   : BitVec 64
  poison : Bool
  stash  : Option (BitVec 12) := none
  going  : Bool := false
deriving DecidableEq, Repr

/-- A read of host memory that a DMA channel has outstanding: what is still to come from `off` on, and what came. -/
structure HRead where
  off  : Nat
  len  : Nat
  got  : List Byte := []
  ep   : Bool := false
deriving DecidableEq, Repr

/-- A DMA channel (R321–R323). `phase` 0 no descriptor; 1 reading it; 2 moving lines. `next` is the offset of the first byte
of the run that nothing has asked for yet; `no` numbers the channel's descriptors, so that a late answer to one that has ended is not
taken for the next. -/
structure Dma where
  no     : Nat := 0
  phase  : Nat := 0
  haddr  : BitVec 64 := 0
  daddr  : BitVec 46 := 0
  len    : Nat := 0
  flags  : Byte := 0
  st     : Byte := 0
  next   : Nat := 0
  reads  : List HRead := []
  todo   : List Piece := []
  lines  : List LineAddr := []
  status : Nat := 0
  cause  : Nat := 0
  poison : Bool := false
deriving DecidableEq, Repr

/-- A non-posted request the endpoint holds (R315). `before` is the number of the first posted piece after it; `csr` marks a
read of BAR0; `bytes` is its completion once `ready`; `no` tells it from an earlier one of the same tag (R318). -/
structure NonPosted where
  tag    : Nat
  no     : Nat := 0
  csr    : Bool
  off    : Nat
  len    : Nat
  before : Nat := 0
  sent   : Bool := false
  left   : List LineAddr := []
  got    : List (LineAddr × Line) := []
  poison : Bool := false
  failed : Bool := false
  ready  : Bool := false
  bytes  : List Byte := []
deriving DecidableEq, Repr

/-- The PCI Express function (R313, R314). `aer` holds the errors AER logs: 0 Poisoned TLP Received, 1 Completer Abort, 2
Unsupported Request, 3 Completion Timeout. `posted` are the pieces of the posted TLPs that wait until the inbound queue has room (R315). -/
structure Pcie where
  bme    : Bool := false
  d3hot  : Bool := false
  msixEn : Bool := false
  aer    : BitVec 4 := 0
  table  : NMap Word := []
  pba    : BitVec 64 := 0
  inq    : List Piece := []
  posted : List (List Piece) := []
  inNext : Nat := 0
  np     : List NonPosted := []
  npNext : Nat := 0
  discarded : Nat := 0
deriving DecidableEq, Repr

/-- The crypto engine (R354): the order of the slots started; slot 0's phase (0 free, 1 BUSY, 2 VALID), operation, status and
numbers; the lines a digest has still to read and the bytes it has; the dictionary's attestation in slot 1; the blown rollback
fuses. `at0` is TBASE when signing began. -/
structure Sec where
  order : List Nat := []
  phase : Nat := 0
  op    : Nat := 0
  status : Nat := 0
  seq   : Nat := 0
  next  : Nat := 1
  left  : List LineAddr := []
  asked : Bool := false
  bytes : List Byte := []
  bad   : Bool := false
  at0   : BitVec 64 := 0
  nonce : List Byte := []
  report : List Byte := []
  signing : Bool := false
  fuses : Nat := 0
deriving DecidableEq, Repr

/-- A CRC unit (R356). `phase` 0 IDLE, 1 FEED, 2 DONE. -/
structure Crc where
  phase : Nat := 0
  poly  : Nat := 0
  reg   : BitVec 64 := 0
  cnt   : Word := 0
  seq   : Nat := 0
  next  : Nat := 1
deriving DecidableEq, Repr

/-- The latched set of the measurement unit (R392). -/
structure Msr where
  lctr   : NMap (NMap Nat) := []
  lhist  : NMap (NMap Nat) := []
  ltemps : NMap (BitVec 12) := []
  lrails : NMap (BitVec 14) := []
deriving DecidableEq, Repr

/-- Federation state (R373–R381). `acks` and `set` are the epoch being issued;
`leftBy` the peers that have sent leave done, `ownWalk` that this device's own walk ended; `waitDone` that FED_WAIT passed and
`readyTo` the devices whose ready timeout passed; `reasons` why a device was recorded absent, `refused` why its join was
refused last. -/
structure Fed where
  acks    : List Nat := []
  set     : Nat := 0
  kind    : Nat := 0
  prepared : Bool := false
  leaving : Bool := false
  leftBy  : List Nat := []
  ownWalk : Bool := false
  waitDone : Bool := false
  readyTo : List Nat := []
  reasons : NMap Nat := []
  refused : NMap Nat := []
deriving DecidableEq, Repr

/-- Where the outcome of a register access goes: the model's trace, the request that carried it, or a host read's tag, or
the dictionary request that Chiso serves. -/
inductive CsrSrc where
  | cmd
  | req (r : HReq)
  | tag (t : Nat)
  | dict
deriving DecidableEq, Repr

/-- A register access at the CSR root (R292, R293). `low` holds the low word of an 8-byte access once that is done; `ind` the
pair through which it goes on to another register (R295). -/
structure CsrAcc where
  m    : Master
  src  : CsrSrc := .cmd
  off  : Nat
  len  : Nat := 4
  wr   : Bool := false
  w    : BitVec 64 := 0
  low  : Option Word := none
  ind  : Option Nat := none
deriving DecidableEq, Repr

/-- The event queue (R305–R308). -/
structure Evq where
  recs    : List (List Word) := []
  lost    : Nat := 0
  latches : NMap (List Word) := []
  waiters : List CsrAcc := []
  last    : NMap (Nat × Nat) := []
deriving DecidableEq, Repr

/-- What the device has put out to the host, the network and, as flits, to an agent or a peer: the model's own trace (log entry 14). -/
inductive Out where
  | flit (side : Side) (f : Flit)
  | completion (tag : Nat) (ok : Bool) (ep : Bool) (bytes : List Byte)
  | unsupported (tag : Nat)
  | hostRead (c : Nat) (addr : BitVec 64) (len : Nat) (noSnoop : Bool)
  | hostWrite (c : Nat) (addr : BitVec 64) (bytes : List Byte) (ep noSnoop : Bool)
  | msix (v : Nat)
  | can (id : Nat) (bytes : List Byte)
  | canFd (id : Nat) (frame : List Byte)
  | dict (index sub : Nat) (code : Word) (bytes : List Byte)
  | regDone (m : Master) (off : Nat) (w : BitVec 64) (cause : Nat)
  | vout (mv : Nat)
  | dramWrite (line : LineAddr)
  | remotePoison (dev : Nat) (line : LineAddr)
deriving DecidableEq, Repr

/-- A unit of work in flight between the device's units (R14, R71). -/
inductive Flow where
  | home (n : Nat) (r : HReq)
  | reenter (n : Nat) (r : HReq)
  | answer (n : Nat) (a : HAns)
  | wbData (n : Nat) (a : HAns)
  | tend (n : Nat)
  | port (p : Nat)
  | link (l : Nat)
  | egress (side : Side)
  | fwd (t : Agent) (m : Msg) (slice : Nat)
  | peerFwd (l : Nat) (m : Msg)
  | send (t : Agent) (m : Msg)
  | reply (r : HReq) (m : Msg)
  | taken (r : HReq) (cause : Nat)
  | rx (side : Side) (f : Flit)
  | boundary
  | csr (a : CsrAcc)
  | csrDone (a : CsrAcc) (w : BitVec 64) (cause : Nat)
  | device (r : HReq)
  | mop (k : Nat)
  | inq
  | dma (c : Nat)
  | dict
  | crypto
  | tpdo
  | drain
  | start
  | fed
  | commit
  | fixed (line : Nat)
  | health (r : List Word) (emcy : Bool)
  | breach (side : Side) (code : Nat) (hdr : BitVec 128)
deriving DecidableEq, Repr

/-- The whole machine. `csr` and `eff` hold the written and the effective words of the registers, by offset, and `snaps` the upper half
that a read of a low register took (R273). -/
structure State where
  pending : List Instr := []
  fabric  : List Flow := []
  out     : List Out := []
  fresh   : Nat := 0
  csr     : NMap Word := []
  eff     : NMap Word := []
  tb      : BitVec 64 := 0
  slices  : NMap Slice := []
  ports   : NMap Port := []
  vls     : NMap Vl := []
  chans   : NMap Chan := []
  dram    : NMap DLine := []
  cis     : Cis := {}
  mdata   : Meta := {}
  journal : Journal := {}
  boots   : NMap BootHdr := []
  fws     : NMap Fw := []
  mops    : NMap Mop := []
  ckpt    : Ckpt := {}
  drain   : Drain := {}
  supply  : Supply := {}
  start   : Start := {}
  commit  : Option Commit := none
  mode    : Option Mode := none
  seqs    : List (Nat × Bool) := []
  clk     : Clk := {}
  phu     : Phu := {}
  evq     : Evq := {}
  csrWaits : List CsrAcc := []
  snaps   : NMap Word := []
  indOut  : Option CsrAcc := none
  pcie    : Pcie := {}
  dmas    : NMap Dma := []
  mbxs    : NMap MbxSt := []
  dictq   : List DReq := []
  can     : Can := {}
  sec     : Sec := {}
  mcu     : Mcu := {}
  crcs    : NMap Crc := []
  msr     : Msr := {}
  fed     : Fed := {}
deriving DecidableEq, Repr

/-- How the machine can stop with a fault: the spec gives the block no fatal stop, so nothing raises it. -/
inductive Fault where
  /-- Raised by no command (safe: never). -/
  | never
deriving DecidableEq, Repr

/-- How a command can be refused. -/
inductive Refusal where
  /-- Raised by the arm of a command that has no meaning yet (safe). -/
  | notModelled (mnemonic : String)
deriving DecidableEq, Repr

/-- The machine right after the power-on of AON, before a start (R7, R277, R394): no register listed, so each
holds its reset value; every domain off; firmware slot A holding the shipped image (R411). -/
def State.reset : State := { fws := [(0, { act := 1, good := true, shipped := true })] }

end Sys2Proof.Machine
end

