-- ==== Sys2Proof/Machine/Bits.lean ====
section
/-! DEFINITION. Indexed families, bit fields, byte order and lists: the plain helpers of the model. -/

namespace Sys2Proof.Machine

/-- The value at an index of a family, if the index is listed. -/
def nget {α : Type} (m : NMap α) (k : Nat) : Option α :=
  match m with
  | [] => none
  | (i, v) :: r => if i = k then some v else if k < i then none else nget r k

/-- The family with the value at one index set. -/
def nset {α : Type} (m : NMap α) (k : Nat) (v : α) : NMap α :=
  match m with
  | [] => [(k, v)]
  | (i, x) :: r => if k < i then (k, v) :: (i, x) :: r else if i = k then (k, v) :: r else (i, x) :: nset r k v

/-- The family with one index no longer listed. -/
def nerase {α : Type} (m : NMap α) (k : Nat) : NMap α :=
  match m with
  | [] => []
  | (i, x) :: r => if i = k then r else if k < i then (i, x) :: r else (i, x) :: nerase r k

/-- The family without the indexes of a range. -/
def nclear {α : Type} (m : NMap α) (lo hi : Nat) : NMap α :=
  m.filter (fun e => !(decide (lo ≤ e.1) && decide (e.1 < hi)))

/-- The canonical form of a family: indexes strictly rising. -/
def nsorted {α : Type} (m : NMap α) : Bool :=
  match m with
  | [] => true
  | [_] => true
  | (i, _) :: (j, y) :: r => decide (i < j) && nsorted ((j, y) :: r)

/-- `w` bits of a word from bit `lo` up (R3). -/
def bits {n : Nat} (v : BitVec n) (lo w : Nat) : Nat := (v.toNat >>> lo) % 2 ^ w

/-- A word with `w` bits from bit `lo` up replaced (R3). -/
def putBits {n : Nat} (v : BitVec n) (lo w x : Nat) : BitVec n :=
  (v &&& ~~~(BitVec.ofNat n ((2 ^ w - 1) <<< lo))) ||| BitVec.ofNat n ((x % 2 ^ w) <<< lo)

/-- One bit of a word. -/
def bit {n : Nat} (v : BitVec n) (i : Nat) : Bool := v.getLsbD i

/-- A word with one bit set. -/
def setBit {n : Nat} (v : BitVec n) (i : Nat) : BitVec n := v ||| BitVec.ofNat n (1 <<< i)

/-- A word with one bit cleared. -/
def clrBit {n : Nat} (v : BitVec n) (i : Nat) : BitVec n := v &&& ~~~(BitVec.ofNat n (1 <<< i))

/-- 1 for true, 0 for false. -/
def b2n (b : Bool) : Nat := if b then 1 else 0

/-- The indexes below `n` whose bit is set. -/
def setBits (n v : Nat) : List Nat := (List.range n).filter (fun i => v.testBit i)

/-- The number of set bits of a word. -/
def popcount {n : Nat} (v : BitVec n) : Nat := ((List.range n).filter (fun i => v.getLsbD i)).length

/-- A number's `n` bytes, lowest first (R3). -/
def leBytes (n v : Nat) : List Byte := (List.range n).map (fun i => BitVec.ofNat 8 (v >>> (8 * i)))

/-- The number that bytes spell, lowest first (R3). -/
def ofLe (bs : List Byte) : Nat :=
  match bs with
  | [] => 0
  | b :: r => b.toNat + 256 * ofLe r

/-- Byte `i` of a line. -/
def lineByte (l : Line) (i : Nat) : Byte := BitVec.ofNat 8 (l.toNat >>> (8 * i))

/-- The line that a list of at most 64 bytes spells, zero above them. -/
def lineOf (bs : List Byte) : Line := BitVec.ofNat 512 (ofLe bs)

/-- `n` bytes of a line from byte `off` up. -/
def lineBytes (l : Line) (off n : Nat) : List Byte := leBytes n (l.toNat >>> (8 * off))

/-- The 512-bit mask of a 64-bit byte mask. -/
def wideMask (m : BitVec 64) : Line :=
  BitVec.ofNat 512 (((List.range 64).map (fun i => if m.getLsbD i then 0xFF <<< (8 * i) else 0)).foldl (· + ·) 0)

/-- The bytes of `new` at the masked places, those of `old` elsewhere. -/
def merge (old new : Line) (m : BitVec 64) : Line :=
  if m = BitVec.allOnes 64 then new else (old &&& ~~~(wideMask m)) ||| (new &&& wideMask m)

/-- The byte mask of `len` bytes from `off` up. -/
def runMask (off len : Nat) : BitVec 64 := BitVec.ofNat 64 ((2 ^ len - 1) <<< off)

/-- A byte mask that names every byte of the line. -/
def full (m : BitVec 64) : Bool := decide (m = BitVec.allOnes 64)

/-- A list with one element, its first occurrence, dropped. -/
def dropOne {α : Type} (p : α → Bool) : List α → List α
  | [] => []
  | a :: r => if p a then r else a :: dropOne p r

/-- A list with the first element that meets `p` replaced. -/
def updOne {α : Type} (p : α → Bool) (f : α → α) : List α → List α
  | [] => []
  | a :: r => if p a then f a :: r else a :: updOne p f r

/-- A family's value added to, saturating at `cap`. -/
def bump (cap n k : Nat) : Nat := if n + k ≤ cap then n + k else cap

/-- A sequence number after `n`, from 1 to 0xFFFF and round to 1 (R160, R303). -/
def nextSeq (n : Nat) : Nat := if n = 0xFFFF then 1 else n + 1

/-- The greatest of a list of numbers. -/
def maxOf (l : List Nat) : Nat := l.foldl max 0

/-- The sum of a list of numbers. -/
def sumOf (l : List Nat) : Nat := l.foldl (· + ·) 0

end Sys2Proof.Machine
end

