-- ==== Sys2Proof/Machine/Atomic.lean ====
section
/-! DEFINITION. The operand forms of the coherent requests and the atomic operations (R57, R58, R109). -/

namespace Sys2Proof.Machine

/-- OFF and LEN of a WrPtl, CondSt or RdOnce (R57). -/
def argOff (a : BitVec 12) : Nat := bits a 0 6
def argLen (a : BitVec 12) : Nat := bits a 6 6 + 1

/-- AOP, operand size in bytes and OFF of an atomic (R57). -/
def aop (a : BitVec 12) : Nat := bits a 0 4
def atomSize (a : BitVec 12) : Nat := if aop a = 10 then 16 else 2 ^ bits a 4 2
def atomOff (a : BitVec 12) : Nat := bits a 6 6

/-- Whether an atomic's ARG is well formed (R109). -/
def atomOk (a : BitVec 12) : Bool := decide (aop a ≤ 10) && decide (atomOff a % atomSize a = 0)

/-- A value of `w` bits as a signed number. -/
def signed (w v : Nat) : Int := if v < 2 ^ (w - 1) then v else (v : Int) - 2 ^ w

/-- The new value an atomic writes, or none (R109): `old`, the operand, the swap value, by AOP and size in bytes. -/
def atomNew (op size old x swap : Nat) : Option Nat :=
  let w := 8 * size
  match op with
  | 0 => some ((old + x) % 2 ^ w)
  | 1 => some x
  | 2 => if old = x then some swap else none
  | 3 => some (if signed w old ≤ signed w x then old else x)
  | 4 => some (if signed w old ≤ signed w x then x else old)
  | 5 => some (if old ≤ x then old else x)
  | 6 => some (if old ≤ x then x else old)
  | 7 => some (old &&& x)
  | 8 => some (old ||| x)
  | 9 => some (old ^^^ x)
  | 10 => if old = x then some swap else none
  | _ => none

/-- The old value of an atomic as the DatClean carries it, and the line it writes, if it writes (R58, R109). -/
def atomRun (arg : BitVec 12) (operand line : Line) : Line × Option Line :=
  let z := atomSize arg
  let o := atomOff arg
  let old := bits line (8 * o) (8 * z)
  let x := bits operand 0 (8 * z)
  let swap := bits operand 128 (8 * z)
  (BitVec.ofNat 512 old, (atomNew (aop arg) z old x swap).map (fun v => putBits line (8 * o) (8 * z) v))

end Sys2Proof.Machine
end

