-- ==== Sys2Proof/Machine/Codes.lean ====
section
/-! DEFINITION. The codes: SEC-DED (R412), RS(10,8) and its decoder (R220–R223), the CRCs (R47, R355), and
SHA3-256 (R342, R349, R353, R354). All are linear in the error, so a decoder needs the error and the poison only. -/

namespace Sys2Proof.Machine

/-- Whether a code position holds a check bit: a power of two (R412). -/
def isCheckPos (p : Nat) : Bool := decide (p &&& (p - 1) = 0)

/-- The code positions of the `k` data bits, in order (R412). -/
def dataPositions (k r : Nat) : List Nat := ((List.range (k + r + 1)).drop 1).filter (fun p => !isCheckPos p)

/-- XOR of a list of numbers. -/
def xorAll (l : List Nat) : Nat := l.foldl Nat.xor 0

/-- The `r + 1` check bits of `k` data bits (R412). -/
def secdedCheck (k r v : Nat) : Nat :=
  let low := xorAll (((dataPositions k r).zipIdx.filter (fun e => v.testBit e.2)).map (·.1))
  let par := (((List.range k).filter v.testBit).length + ((List.range r).filter low.testBit).length) % 2
  low + par <<< r

/-- What a SEC-DED decoder makes of an error pattern on a stored word of `k` data and `r + 1` check bits: clean,
corrected, or uncorrectable, and the data bits still wrong (R412). -/
inductive Decoded where
  | clean | corrected | uncorrectable
deriving DecidableEq, Repr

def secdedDecode (k r e : Nat) : Decoded × Nat :=
  let ps := dataPositions k r
  let s := xorAll ((ps.zipIdx.filter (fun x => e.testBit x.2)).map (·.1)) ^^^ ((e >>> k) % 2 ^ r)
  let odd := ((List.range (k + r + 1)).filter e.testBit).length % 2 = 1
  let d := e % 2 ^ k
  if ¬ odd ∧ s = 0 then (.clean, d)
  else if odd ∧ s = 0 then (.corrected, d)
  else if odd ∧ s ≤ k + r then
    match ps.zipIdx.find? (fun x => decide (x.1 = s)) with
    | some x => (.corrected, d ^^^ (1 <<< x.2))
    | none => (.corrected, d)
  else (.uncorrectable, d)

/-- Multiplication by α in GF(2^8) on 0x11D (R220). -/
def gfDouble (a : Nat) : Nat := if a < 128 then 2 * a else (2 * a) ^^^ 0x11D

/-- Multiplication in GF(2^8) on 0x11D, by the bits of `b` from bit 7 down (R220). -/
def gfMul (a b : Nat) : Nat :=
  [7, 6, 5, 4, 3, 2, 1, 0].foldl (fun acc i => (gfDouble acc) ^^^ (if b.testBit i then a else 0)) 0

/-- α to a power (R220). -/
def alpha : Nat → Nat
  | 0 => 1
  | n + 1 => gfDouble (alpha n)

/-- The error on symbol `c_j` of codeword `i`: byte 10 i + j of a 640-bit pattern. -/
def errSym (e : BitVec 640) (i j : Nat) : Nat := bits e (8 * (10 * i + j)) 8

/-- The position of a device in a codeword (R220). -/
def devPos (k : Nat) : Nat := (k + 2) % 10

/-- The syndromes of codeword `i`, poison included (R220, R221). -/
def syndromes (e : BitVec 640) (poison : Bool) (i : Nat) : Nat × Nat :=
  (xorAll ((List.range 10).map (errSym e i)) ^^^ (if poison then 0xEE else 0),
   xorAll ((List.range 10).map (fun j => gfMul (errSym e i j) (alpha j))))

/-- The check symbols c_0 and c_1 of a codeword whose data symbols are c_2 to c_9 (R220); 0xF4 is 1 ÷ 0x03. -/
def rsCheck (c : List Nat) : Nat × Nat :=
  let a := xorAll c
  let b := xorAll (c.zipIdx.map (fun x => gfMul x.1 (alpha (x.2 + 2))))
  let c1 := gfMul (a ^^^ b) 0xF4
  (a ^^^ c1, c1)

/-- The data symbols of codeword `i` of a line (R220). -/
def rsData (d : Line) (i : Nat) : List Nat := (List.range 8).map (fun k => bits d (8 * (8 * i + k)) 8)

/-- The check symbols a line is stored with, c_0 and c_1 of each codeword in turn, with the poison pattern where it is poisoned (R220, R221). -/
def lineCheck (d : Line) (poison : Bool) : BitVec 128 :=
  BitVec.ofNat 128 (ofLe ((List.range 8).flatMap (fun i =>
    let c := rsCheck (rsData d i)
    [BitVec.ofNat 8 (c.1 ^^^ (if poison then 0xB4 else 0)), BitVec.ofNat 8 (c.2 ^^^ (if poison then 0x5A else 0))])))

/-- Symbol c_j of codeword `i` of a stored line, as a read with an error pattern gives it. -/
def storedSym (d : Line) (chk : BitVec 128) (e : BitVec 640) (i j : Nat) : Nat :=
  (if j < 2 then bits chk (8 * (2 * i + j)) 8 else bits d (8 * (8 * i + (j - 2))) 8) ^^^ errSym e i j

/-- The syndromes of codeword `i` of a stored line as it is read (R220). -/
def readSyndromes (d : Line) (chk : BitVec 128) (e : BitVec 640) (i : Nat) : Nat × Nat :=
  (xorAll ((List.range 10).map (storedSym d chk e i)), xorAll ((List.range 10).map (fun j => gfMul (storedSym d chk e i j) (alpha j))))

/-- The outcome of decoding a DRAM read (R222, R223). `err` is what is left wrong in the line's data. -/
structure RsOut where
  poison : Bool
  device : Option Nat := none
  words  : Nat := 0
  rebuilt : Bool := false
  kind   : Nat := 0
  err    : BitVec 640 := 0
deriving DecidableEq, Repr

/-- The device, if any, at which hypothesis 3 fits the syndromes (R222). -/
def fitDevice (ss : List (Nat × Nat)) : Option Nat :=
  (List.range 10).find? (fun k => ss.all (fun x => decide (x.1 = 0 ∧ x.2 = 0) ||
    (decide (x.1 ≠ 0) && decide (x.2 = gfMul x.1 (alpha (devPos k))))))

/-- The error pattern with the syndromes' S0 taken off at one position. -/
def fixAt (e : BitVec 640) (ss : List (Nat × Nat)) (pos : Nat) : BitVec 640 :=
  ss.zipIdx.foldl (fun e x => e ^^^ BitVec.ofNat 640 (x.1.1 <<< (8 * (10 * x.2 + pos)))) e

/-- Decode the eight codewords of a read (R222, R223): the stored poison, the error, the marked device. -/
def rsDecode (poison : Bool) (e : BitVec 640) (mark : Option Nat) : RsOut :=
  let ss := (List.range 8).map (syndromes e poison)
  let un := ss.map (fun x => (x.1 ^^^ 0xEE, x.2))
  match mark with
  | some m =>
    let fits := fun (l : List (Nat × Nat)) => l.all (fun x => decide (x.2 = gfMul x.1 (alpha (devPos m))))
    if fits ss then { poison := false, rebuilt := true, err := fixAt e ss (devPos m) }
    else if fits un then { poison := true, rebuilt := true, err := fixAt e un (devPos m) }
    else { poison := true, kind := 2, err := e }
  | none =>
    let zero := fun (l : List (Nat × Nat)) => l.all (fun x => decide (x.1 = 0 ∧ x.2 = 0))
    if zero ss then { poison := false, err := e }
    else if zero un then { poison := true, err := e }
    else
      match fitDevice ss, fitDevice un with
      | some k, none =>
        { poison := false, device := some k, words := (ss.filter (fun x => decide (x.1 ≠ 0))).length, err := fixAt e ss (devPos k) }
      | none, some k =>
        { poison := true, device := some k, words := (un.filter (fun x => decide (x.1 ≠ 0))).length, err := fixAt e un (devPos k) }
      | some _, some _ => { poison := true, kind := 3, err := e }
      | none, none => { poison := true, kind := 1, err := e }

/-- The error on a line's 64 data bytes: line byte 8 i + k is symbol k + 2 of codeword i (R220). -/
def lineErr (e : BitVec 640) : Line :=
  lineOf ((List.range 64).map (fun b => BitVec.ofNat 8 (errSym e (b / 8) (b % 8 + 2))))

/-- One step of a reflected CRC of a width on one bit. -/
def crcStepR (poly : Nat) (c : Nat) : Nat := if c % 2 = 1 then (c >>> 1) ^^^ poly else c >>> 1

/-- One step of an unreflected CRC of width `w` on one bit. -/
def crcStepN (w poly : Nat) (c : Nat) : Nat :=
  if c.testBit (w - 1) then ((2 * c) % 2 ^ w) ^^^ poly else (2 * c) % 2 ^ w

/-- A reflected CRC register after a byte; `poly` is the reflected polynomial. -/
def crcByteR (poly c : Nat) (b : Byte) : Nat :=
  (List.range 8).foldl (fun c _ => crcStepR poly c) (c ^^^ b.toNat)

/-- An unreflected CRC register of width `w` after a byte. -/
def crcByteN (w poly c : Nat) (b : Byte) : Nat :=
  (List.range 8).foldl (fun c _ => crcStepN w poly c) (c ^^^ (b.toNat <<< (w - 8)))

/-- CRC-32C of bytes (R47): the reflected polynomial of 0x1EDC_6F41 is 0x82F6_3B78. -/
def crc32c (bs : List Byte) : Word := BitVec.ofNat 32 (bs.foldl (crcByteR 0x82F63B78) 0xFFFFFFFF ^^^ 0xFFFFFFFF)

/-- A CRC unit's register after a byte, by POLY (R355): 0 CRC-32, 1 CRC-32C, 2 CRC-16, 3 CRC-64. -/
def unitByte (poly c : Nat) (b : Byte) : Nat :=
  match poly with
  | 0 => crcByteR 0xEDB88320 c b
  | 1 => crcByteR 0x82F63B78 c b
  | 2 => crcByteN 16 0x1021 c b
  | _ => crcByteN 64 0x42F0E1EBA9EA3693 c b

/-- A unit's default initial value and final XOR (R355). -/
def unitInit (poly : Nat) : Nat := match poly with | 0 => 0xFFFFFFFF | 1 => 0xFFFFFFFF | 2 => 0xFFFF | _ => 0
def unitFinal (poly : Nat) : Nat := match poly with | 0 => 0xFFFFFFFF | 1 => 0xFFFFFFFF | _ => 0
def unitWidth (poly : Nat) : Nat := match poly with | 0 => 32 | 1 => 32 | 2 => 16 | _ => 64

/-- The state of SHA3's permutation as five planes of five 64-bit lanes, plane `y` holding lane `x` (FIPS 202). -/
abbrev Planes := List (List (BitVec 64))

/-- Lane (x, y), both taken modulo 5. -/
def Planes.at (p : Planes) (x y : Nat) : BitVec 64 := (p.getD (y % 5) []).getD (x % 5) 0

/-- The planes a rule for each lane gives. -/
def planes (f : Nat → Nat → BitVec 64) : Planes := (List.range 5).map (fun y => (List.range 5).map (fun x => f x y))

/-- θ: each lane takes the parity of the column before it and, turned by one, of the column after it. -/
def theta (p : Planes) : Planes :=
  let col := (List.range 5).map (fun x => p.foldl (fun w r => w ^^^ r.getD x 0) 0)
  planes (fun x y => p.at x y ^^^ col.getD ((x + 4) % 5) 0 ^^^ (col.getD ((x + 1) % 5) 0).rotateLeft 1)

/-- ρ and π in one walk over the 24 lanes beside (0, 0): the walk steps from (x, y) to (y, 2 x + 3 y), its `t`th lane is turned by
(t + 1)(t + 2) / 2 and moves to where the walk steps next. -/
def walkLanes (p : Planes) : Nat → Nat → Nat → List (Nat × BitVec 64) → List (Nat × BitVec 64)
  | 0, _, _, acc => acc
  | n + 1, x, y, acc =>
    let t := 23 - n
    let z := (2 * x + 3 * y) % 5
    walkLanes p n y z ((y + 5 * z, (p.at x y).rotateLeft ((t + 1) * (t + 2) / 2 % 64)) :: acc)
def rhoPi (p : Planes) : Planes :=
  let moved := walkLanes p 24 1 0 [(0, p.at 0 0)]
  planes (fun x y => ((moved.find? (fun e => decide (e.1 = x + 5 * y))).map (·.2)).getD 0)

/-- χ: each lane takes the next lane of its plane where that after it has a 1 and it itself a 0. -/
def chi (p : Planes) : Planes := planes (fun x y => p.at x y ^^^ (p.at (x + 2) y &&& ~~~(p.at (x + 1) y)))

/-- The register of rc(t): an 8-bit shift register with feedback 0x71, from 1. -/
def rcStep (r : Nat) : Nat := if 128 ≤ r then ((2 * r) % 256) ^^^ 0x71 else 2 * r

/-- One round constant from the register: bit 2^j - 1 is the register's bit 0 after `j` steps; and the register seven steps on. -/
def roundConstant (r : Nat) : Nat × BitVec 64 :=
  (List.range 7).foldl (fun s j => (rcStep s.1, if s.1 % 2 = 1 then s.2 ||| BitVec.ofNat 64 (1 <<< (2 ^ j - 1)) else s.2)) (r, 0)

/-- ι: lane (0, 0) takes the round constant. -/
def iota (p : Planes) (c : BitVec 64) : Planes := planes (fun x y => if x = 0 ∧ y = 0 then p.at 0 0 ^^^ c else p.at x y)

/-- The permutation: `n` rounds from a register on. -/
def permute : Nat → Nat → Planes → Planes
  | 0, _, p => p
  | n + 1, r, p => permute n (roundConstant r).1 (iota (chi (rhoPi (theta p))) (roundConstant r).2)

/-- A block of 136 bytes, seventeen lanes, joins the state, and the 24 rounds run. -/
def absorb (p : Planes) (block : List Byte) : Planes :=
  permute 24 1 (planes (fun x y =>
    if x + 5 * y < 17 then p.at x y ^^^ BitVec.ofNat 64 (ofLe ((block.drop (8 * (x + 5 * y))).take 8)) else p.at x y))

/-- The blocks of a padded message, one after another. -/
def absorbAll : Nat → Planes → List Byte → Planes
  | 0, p, _ => p
  | n + 1, p, bs => if bs = [] then p else absorbAll n (absorb p (bs.take 136)) (bs.drop 136)

/-- SHA3-256: domain bits 01 and the pad 10*1, a rate of 136 bytes, 32 bytes of the state (FIPS 202). -/
def sha3_256 (m : List Byte) : List Byte :=
  let gap := 136 - m.length % 136
  let pad : List Byte := if gap = 1 then [0x86] else [0x06] ++ List.replicate (gap - 2) 0 ++ [0x80]
  let p := absorbAll (m.length / 136 + 1) (planes (fun _ _ => 0)) (m ++ pad)
  (List.range 32).map (fun i => BitVec.ofNat 8 ((p.at (i / 8) 0).toNat >>> (8 * (i % 8))))

end Sys2Proof.Machine
end

