-- ==== Sys2Proof/Machine/Regs.lean ====
section
/-! DEFINITION. The registers of the CSR space, block by block, as the register tables of the spec give them
(R40, R67, R95, R167, R190–R192, R214, R238–R240, R254, R275, R290, R291, R311, R312, R339, R340, R358, R359,
R383, R384, R387, R393): offset, fields, access code, reset value, apply class and range. -/

namespace Sys2Proof.Machine

/-- Access codes (R6). -/
inductive Acc where
  | ro | rw | wo | w1c | rws
deriving DecidableEq, Repr

/-- Apply classes (R8). -/
inductive App where
  | none | imm | p | s
deriving DecidableEq, Repr

/-- A field of a register row: its lowest bit, width, access code, reset value, apply class, and the ends its value is
kept to when it is written. -/
structure FRow where
  lo  : Nat
  w   : Nat
  acc : Acc
  rst : Nat
  app : App
  min : Nat := 0
  max : Nat := 0xFFFFFFFF
deriving DecidableEq, Repr

/-- A register row: its offset in the block, how many of it, how far apart, and its fields. -/
structure RegRow where
  off   : Nat
  count : Nat
  stride : Nat
  flds  : List FRow
deriving DecidableEq, Repr

/-- The blocks of the CSR layout (R385). `feda` is the part of FED 0 that lies in AON (R384). -/
inductive Blk where
  | gen | cfg | evq | clk | pmu | phu | mop | crc | sec | cst | pmp | dir | pci | can | msr | slc | apt | fed | feda | mch
deriving DecidableEq, Repr

/-- A field at its place in the CSR space. -/
structure Fld where
  off : Nat
  lo  : Nat
  w   : Nat
deriving DecidableEq, Repr

/-- The GEN block (R387). -/
def rowsGen : List RegRow := [
  ⟨0x0, 1, 0x4, [⟨0, 16, .ro, 0x6440, .none, 0, 0xFFFFFFFF⟩, ⟨16, 4, .ro, 0, .none, 0, 0xFFFFFFFF⟩, ⟨20, 4, .ro, 0, .none, 0, 0xFFFFFFFF⟩]⟩,
  ⟨0x4, 1, 0x4, [⟨0, 32, .ro, 0, .none, 0, 0xFFFFFFFF⟩]⟩,
  ⟨0x8, 1, 0x4, [⟨0, 32, .ro, 0, .none, 0, 0xFFFFFFFF⟩]⟩,
  ⟨0x10, 1, 0x4, [⟨0, 1, .w1c, 0, .imm, 0, 0xFFFFFFFF⟩, ⟨2, 2, .ro, 0, .none, 0, 0xFFFFFFFF⟩, ⟨4, 1, .ro, 0, .none, 0, 0xFFFFFFFF⟩, ⟨5, 1, .ro, 0, .none, 0, 0xFFFFFFFF⟩, ⟨6, 1, .ro, 0, .none, 0, 0xFFFFFFFF⟩, ⟨7, 1, .ro, 0, .none, 0, 0xFFFFFFFF⟩, ⟨8, 1, .ro, 1, .none, 0, 0xFFFFFFFF⟩]⟩,
  ⟨0x20, 1, 0x4, [⟨0, 16, .wo, 0, .imm, 0, 0xFFFFFFFF⟩, ⟨16, 16, .wo, 0, .imm, 0, 0xFFFFFFFF⟩]⟩,
  ⟨0x24, 1, 0x4, [⟨0, 1, .w1c, 0, .imm, 0, 0xFFFFFFFF⟩]⟩,
  ⟨0x30, 1, 0x4, [⟨0, 32, .rws, 0, .imm, 0, 0xFFFFFFFF⟩]⟩]

/-- The CFG block (R311). -/
def rowsCfg : List RegRow := [
  ⟨0x0, 1, 0x4, [⟨0, 1, .wo, 0, .imm, 0, 0xFFFFFFFF⟩, ⟨1, 1, .wo, 0, .imm, 0, 0xFFFFFFFF⟩, ⟨2, 1, .wo, 0, .imm, 0, 0xFFFFFFFF⟩, ⟨3, 1, .wo, 0, .imm, 0, 0xFFFFFFFF⟩, ⟨4, 1, .wo, 0, .imm, 0, 0xFFFFFFFF⟩, ⟨5, 1, .wo, 0, .imm, 0, 0xFFFFFFFF⟩, ⟨6, 1, .wo, 0, .imm, 0, 0xFFFFFFFF⟩, ⟨7, 1, .wo, 0, .imm, 0, 0xFFFFFFFF⟩, ⟨8, 1, .wo, 0, .imm, 0, 0xFFFFFFFF⟩, ⟨9, 1, .wo, 0, .imm, 0, 0xFFFFFFFF⟩, ⟨10, 1, .wo, 0, .imm, 0, 0xFFFFFFFF⟩, ⟨12, 6, .wo, 0, .imm, 0, 0xFFFFFFFF⟩, ⟨20, 3, .wo, 0, .imm, 0, 0xFFFFFFFF⟩, ⟨24, 4, .wo, 0, .imm, 0, 0xFFFFFFFF⟩, ⟨31, 1, .wo, 0, .imm, 0, 0xFFFFFFFF⟩]⟩,
  ⟨0x4, 1, 0x4, [⟨0, 32, .rw, 0, .imm, 0, 0xFFFFFFFF⟩]⟩,
  ⟨0x8, 1, 0x4, [⟨0, 1, .ro, 0, .none, 0, 0xFFFFFFFF⟩, ⟨1, 2, .ro, 0, .none, 0, 0xFFFFFFFF⟩, ⟨3, 1, .w1c, 0, .imm, 0, 0xFFFFFFFF⟩, ⟨4, 1, .w1c, 0, .imm, 0, 0xFFFFFFFF⟩, ⟨5, 3, .ro, 0, .none, 0, 0xFFFFFFFF⟩, ⟨16, 16, .ro, 0, .none, 0, 0xFFFFFFFF⟩]⟩,
  ⟨0xC, 1, 0x4, [⟨0, 1, .ro, 0, .none, 0, 0xFFFFFFFF⟩, ⟨1, 1, .ro, 0, .none, 0, 0xFFFFFFFF⟩, ⟨2, 1, .ro, 0, .none, 0, 0xFFFFFFFF⟩, ⟨3, 1, .ro, 0, .none, 0, 0xFFFFFFFF⟩, ⟨4, 1, .ro, 0, .none, 0, 0xFFFFFFFF⟩, ⟨5, 1, .ro, 0, .none, 0, 0xFFFFFFFF⟩, ⟨6, 1, .ro, 0, .none, 0, 0xFFFFFFFF⟩, ⟨7, 1, .ro, 0, .none, 0, 0xFFFFFFFF⟩, ⟨8, 1, .ro, 0, .none, 0, 0xFFFFFFFF⟩, ⟨9, 1, .ro, 0, .none, 0, 0xFFFFFFFF⟩, ⟨10, 1, .ro, 0, .none, 0, 0xFFFFFFFF⟩, ⟨12, 6, .ro, 0, .none, 0, 0xFFFFFFFF⟩, ⟨20, 3, .ro, 0, .none, 0, 0xFFFFFFFF⟩, ⟨24, 4, .ro, 0, .none, 0, 0xFFFFFFFF⟩, ⟨31, 1, .ro, 0, .none, 0, 0xFFFFFFFF⟩]⟩,
  ⟨0x10, 1, 0x4, [⟨0, 8, .ro, 0, .none, 0, 0xFFFFFFFF⟩]⟩,
  ⟨0x14, 1, 0x4, [⟨0, 1, .rw, 0, .imm, 0, 0xFFFFFFFF⟩]⟩,
  ⟨0x18, 1, 0x4, [⟨0, 1, .w1c, 0, .imm, 0, 0xFFFFFFFF⟩, ⟨2, 2, .ro, 0, .none, 0, 0xFFFFFFFF⟩, ⟨4, 4, .ro, 0, .none, 0, 0xFFFFFFFF⟩, ⟨8, 24, .ro, 0, .none, 0, 0xFFFFFFFF⟩]⟩,
  ⟨0x20, 8, 0x4, [⟨0, 8, .ro, 0, .none, 0, 0xFFFFFFFF⟩, ⟨8, 8, .ro, 0, .none, 0, 0xFFFFFFFF⟩, ⟨16, 8, .ro, 0, .none, 0, 0xFFFFFFFF⟩, ⟨24, 8, .ro, 0, .none, 0, 0xFFFFFFFF⟩]⟩,
  ⟨0x40, 4, 0x8, [⟨2, 22, .rw, 0, .imm, 0, 0xFFFFFFFF⟩, ⟨24, 2, .rw, 0, .imm, 0, 0xFFFFFFFF⟩, ⟨28, 1, .rw, 0, .imm, 0, 0xFFFFFFFF⟩]⟩,
  ⟨0x44, 4, 0x8, [⟨0, 32, .rw, 0, .imm, 0, 0xFFFFFFFF⟩]⟩]

/-- The EVQ block (R312). -/
def rowsEvq : List RegRow := [
  ⟨0x0, 1, 0x4, [⟨0, 32, .ro, 0, .none, 0, 0xFFFFFFFF⟩]⟩,
  ⟨0x4, 7, 0x4, [⟨0, 32, .ro, 0, .none, 0, 0xFFFFFFFF⟩]⟩,
  ⟨0x20, 1, 0x4, [⟨0, 11, .ro, 0, .none, 0, 0xFFFFFFFF⟩, ⟨16, 16, .ro, 0, .none, 0, 0xFFFFFFFF⟩]⟩,
  ⟨0x24, 1, 0x4, [⟨0, 8, .rw, 8, .imm, 0, 0xFFFFFFFF⟩]⟩,
  ⟨0x28, 1, 0x4, [⟨0, 11, .rw, 768, .p, 0, 0xFFFFFFFF⟩, ⟨11, 1, .w1c, 0, .imm, 0, 0xFFFFFFFF⟩, ⟨16, 11, .ro, 0, .none, 0, 0xFFFFFFFF⟩]⟩,
  ⟨0x2C, 1, 0x4, [⟨0, 32, .ro, 0, .none, 0, 0xFFFFFFFF⟩]⟩,
  ⟨0x30, 1, 0x4, [⟨0, 32, .ro, 0, .none, 0, 0xFFFFFFFF⟩]⟩,
  ⟨0x40, 1, 0x4, [⟨0, 16, .w1c, 0, .imm, 0, 0xFFFFFFFF⟩]⟩,
  ⟨0x44, 1, 0x4, [⟨0, 16, .rw, 0, .imm, 0, 0xFFFFFFFF⟩, ⟨16, 6, .rw, 0, .imm, 0, 0xFFFFFFFF⟩]⟩,
  ⟨0x48, 1, 0x4, [⟨0, 16, .rw, 0, .imm, 0, 0xFFFFFFFF⟩]⟩,
  ⟨0x4C, 1, 0x4, [⟨0, 16, .rw, 0, .imm, 0, 0xFFFFFFFF⟩]⟩]

/-- The CLK block (R275). -/
def rowsClk : List RegRow := [
  ⟨0x0, 1, 0x4, [⟨0, 1, .rw, 0, .s, 0, 0xFFFFFFFF⟩]⟩,
  ⟨0x4, 1, 0x4, [⟨0, 3, .ro, 0, .none, 0, 0xFFFFFFFF⟩, ⟨3, 2, .ro, 0, .none, 0, 0xFFFFFFFF⟩, ⟨5, 1, .ro, 0, .none, 0, 0xFFFFFFFF⟩, ⟨6, 1, .ro, 0, .none, 0, 0xFFFFFFFF⟩, ⟨7, 1, .ro, 0, .none, 0, 0xFFFFFFFF⟩, ⟨8, 1, .ro, 0, .none, 0, 0xFFFFFFFF⟩, ⟨9, 1, .ro, 0, .none, 0, 0xFFFFFFFF⟩, ⟨10, 1, .ro, 0, .none, 0, 0xFFFFFFFF⟩, ⟨11, 2, .ro, 0, .none, 0, 0xFFFFFFFF⟩, ⟨13, 1, .ro, 0, .none, 0, 0xFFFFFFFF⟩, ⟨14, 3, .ro, 0, .none, 0, 0xFFFFFFFF⟩, ⟨17, 1, .ro, 0, .none, 0, 0xFFFFFFFF⟩, ⟨18, 1, .ro, 0, .none, 0, 0xFFFFFFFF⟩, ⟨19, 1, .ro, 0, .none, 0, 0xFFFFFFFF⟩]⟩,
  ⟨0x8, 1, 0x4, [⟨0, 1, .rw, 0, .s, 0, 0xFFFFFFFF⟩]⟩,
  ⟨0xC, 1, 0x4, [⟨0, 8, .rw, 10, .s, 1, 255⟩, ⟨8, 8, .rw, 20, .s, 5, 255⟩, ⟨16, 1, .rws, 0, .imm, 0, 0xFFFFFFFF⟩, ⟨17, 1, .rw, 1, .s, 0, 0xFFFFFFFF⟩]⟩,
  ⟨0x10, 1, 0x4, [⟨0, 3, .rw, 5, .s, 0, 5⟩, ⟨8, 8, .rw, 100, .s, 60, 105⟩, ⟨16, 4, .rw, 5, .s, 1, 15⟩]⟩,
  ⟨0x20, 1, 0x4, [⟨0, 32, .rw, 0, .s, 0, 0xFFFFFFFF⟩]⟩,
  ⟨0x24, 1, 0x4, [⟨0, 6, .rw, 0, .s, 0, 0xFFFFFFFF⟩, ⟨6, 4, .rw, 0, .s, 0, 0xFFFFFFFF⟩, ⟨10, 1, .rw, 0, .s, 0, 0xFFFFFFFF⟩, ⟨11, 1, .rw, 0, .s, 0, 0xFFFFFFFF⟩, ⟨12, 3, .rw, 0, .s, 0, 0xFFFFFFFF⟩, ⟨15, 1, .rw, 0, .s, 0, 0xFFFFFFFF⟩, ⟨16, 1, .rw, 0, .s, 0, 0xFFFFFFFF⟩, ⟨17, 1, .rw, 0, .s, 0, 0xFFFFFFFF⟩]⟩,
  ⟨0x28, 1, 0x4, [⟨0, 32, .ro, 0, .none, 0, 0xFFFFFFFF⟩]⟩,
  ⟨0x2C, 1, 0x4, [⟨0, 6, .ro, 0, .none, 0, 0xFFFFFFFF⟩, ⟨6, 4, .ro, 0, .none, 0, 0xFFFFFFFF⟩, ⟨10, 1, .ro, 0, .none, 0, 0xFFFFFFFF⟩, ⟨11, 1, .ro, 0, .none, 0, 0xFFFFFFFF⟩, ⟨12, 3, .ro, 0, .none, 0, 0xFFFFFFFF⟩, ⟨15, 1, .ro, 0, .none, 0, 0xFFFFFFFF⟩, ⟨16, 1, .ro, 0, .none, 0, 0xFFFFFFFF⟩, ⟨17, 1, .ro, 0, .none, 0, 0xFFFFFFFF⟩]⟩,
  ⟨0x40, 1, 0x4, [⟨0, 12, .rws, 0, .imm, 0, 0xFFFFFFFF⟩, ⟨12, 2, .rw, 0, .imm, 0, 0xFFFFFFFF⟩, ⟨14, 1, .wo, 0, .imm, 0, 0xFFFFFFFF⟩, ⟨15, 1, .rw, 0, .imm, 0, 0xFFFFFFFF⟩, ⟨16, 8, .rw, 60, .imm, 1, 255⟩]⟩,
  ⟨0x44, 1, 0x4, [⟨0, 16, .rw, 200, .imm, 100, 10000⟩]⟩,
  ⟨0x48, 1, 0x4, [⟨0, 1, .ro, 0, .none, 0, 0xFFFFFFFF⟩, ⟨1, 1, .w1c, 0, .imm, 0, 0xFFFFFFFF⟩, ⟨2, 1, .w1c, 0, .imm, 0, 0xFFFFFFFF⟩, ⟨16, 16, .ro, 0, .none, 0, 0xFFFFFFFF⟩]⟩,
  ⟨0x50, 1, 0x4, [⟨0, 1, .w1c, 0, .imm, 0, 0xFFFFFFFF⟩, ⟨1, 1, .w1c, 0, .imm, 0, 0xFFFFFFFF⟩, ⟨2, 1, .w1c, 0, .imm, 0, 0xFFFFFFFF⟩, ⟨3, 1, .w1c, 0, .imm, 0, 0xFFFFFFFF⟩, ⟨4, 1, .w1c, 0, .imm, 0, 0xFFFFFFFF⟩, ⟨5, 1, .w1c, 0, .imm, 0, 0xFFFFFFFF⟩, ⟨6, 1, .w1c, 0, .imm, 0, 0xFFFFFFFF⟩, ⟨7, 1, .w1c, 0, .imm, 0, 0xFFFFFFFF⟩]⟩,
  ⟨0x54, 1, 0x4, [⟨0, 16, .ro, 0, .none, 0, 0xFFFFFFFF⟩, ⟨16, 16, .ro, 0, .none, 0, 0xFFFFFFFF⟩]⟩,
  ⟨0x60, 1, 0x4, [⟨0, 32, .ro, 0, .none, 0, 0xFFFFFFFF⟩]⟩,
  ⟨0x64, 1, 0x4, [⟨0, 32, .ro, 0, .none, 0, 0xFFFFFFFF⟩]⟩]

/-- The PMU block (R290). -/
def rowsPmu : List RegRow := [
  ⟨0x0, 1, 0x4, [⟨0, 30, .rw, 0, .s, 0, 0xFFFFFFFF⟩]⟩,
  ⟨0x4, 1, 0x4, [⟨0, 30, .ro, 0, .none, 0, 0xFFFFFFFF⟩]⟩,
  ⟨0x8, 1, 0x4, [⟨0, 30, .ro, 0, .none, 0, 0xFFFFFFFF⟩]⟩,
  ⟨0xC, 1, 0x4, [⟨0, 1, .w1c, 0, .imm, 0, 0xFFFFFFFF⟩, ⟨1, 3, .ro, 0, .none, 0, 0xFFFFFFFF⟩, ⟨8, 5, .ro, 0, .none, 0, 0xFFFFFFFF⟩]⟩,
  ⟨0x10, 1, 0x4, [⟨0, 8, .rw, 200, .s, 0, 0xFFFFFFFF⟩, ⟨8, 8, .rw, 180, .s, 0, 0xFFFFFFFF⟩, ⟨16, 1, .w1c, 0, .imm, 0, 0xFFFFFFFF⟩]⟩,
  ⟨0x20, 1, 0x4, [⟨0, 1, .wo, 0, .imm, 0, 0xFFFFFFFF⟩, ⟨1, 3, .ro, 0, .none, 0, 0xFFFFFFFF⟩, ⟨4, 1, .w1c, 0, .imm, 0, 0xFFFFFFFF⟩, ⟨16, 16, .ro, 0, .none, 0, 0xFFFFFFFF⟩]⟩]

/-- The PHU block (R254). -/
def rowsPhu : List RegRow := [
  ⟨0x0, 1, 0x4, [⟨0, 1, .rw, 0, .s, 0, 0xFFFFFFFF⟩, ⟨1, 2, .rw, 0, .s, 0, 0xFFFFFFFF⟩, ⟨3, 1, .rw, 0, .s, 0, 0xFFFFFFFF⟩, ⟨4, 1, .rw, 0, .s, 0, 0xFFFFFFFF⟩]⟩,
  ⟨0x4, 1, 0x4, [⟨0, 3, .ro, 0, .none, 0, 0xFFFFFFFF⟩, ⟨3, 1, .ro, 0, .none, 0, 0xFFFFFFFF⟩, ⟨4, 1, .ro, 0, .none, 0, 0xFFFFFFFF⟩, ⟨5, 2, .ro, 0, .none, 0, 0xFFFFFFFF⟩, ⟨7, 1, .ro, 1, .none, 0, 0xFFFFFFFF⟩]⟩,
  ⟨0x8, 1, 0x4, [⟨0, 32, .ro, 0, .none, 0, 0xFFFFFFFF⟩]⟩,
  ⟨0xC, 1, 0x4, [⟨0, 32, .ro, 0, .none, 0, 0xFFFFFFFF⟩]⟩,
  ⟨0x10, 1, 0x4, [⟨0, 4, .rw, 4, .s, 3, 7⟩, ⟨4, 4, .rw, 4, .s, 2, 15⟩, ⟨8, 8, .rw, 8, .s, 1, 255⟩, ⟨16, 4, .rw, 1, .s, 0, 15⟩]⟩,
  ⟨0x14, 1, 0x4, [⟨0, 16, .rw, 1000, .s, 1, 65535⟩, ⟨16, 16, .rw, 1000, .s, 1, 42000⟩]⟩,
  ⟨0x18, 1, 0x4, [⟨0, 16, .rw, 0x0FFF, .s, 3, 65535⟩, ⟨16, 12, .rw, 1, .s, 1, 4095⟩]⟩,
  ⟨0x1C, 1, 0x4, [⟨0, 16, .rw, 500, .p, 1, 65535⟩]⟩,
  ⟨0x20, 1, 0x4, [⟨0, 1, .w1c, 0, .imm, 0, 0xFFFFFFFF⟩, ⟨1, 1, .w1c, 0, .imm, 0, 0xFFFFFFFF⟩, ⟨2, 1, .w1c, 0, .imm, 0, 0xFFFFFFFF⟩, ⟨3, 1, .w1c, 0, .imm, 0, 0xFFFFFFFF⟩, ⟨4, 1, .w1c, 0, .imm, 0, 0xFFFFFFFF⟩, ⟨5, 1, .w1c, 0, .imm, 0, 0xFFFFFFFF⟩, ⟨6, 1, .w1c, 0, .imm, 0, 0xFFFFFFFF⟩]⟩,
  ⟨0x40, 32, 0x4, [⟨0, 16, .rw, 0, .p, 0, 0xFFFFFFFF⟩, ⟨16, 3, .rw, 0, .p, 0, 0xFFFFFFFF⟩, ⟨20, 4, .rw, 0, .p, 0, 0xFFFFFFFF⟩, ⟨24, 1, .rw, 0, .p, 0, 0xFFFFFFFF⟩]⟩]

/-- The MOP block (R167). -/
def rowsMop : List RegRow := [
  ⟨0x0, 1, 0x4, [⟨0, 16, .rw, 10, .imm, 0, 0xFFFFFFFF⟩, ⟨16, 1, .rw, 0, .imm, 0, 0xFFFFFFFF⟩]⟩,
  ⟨0x4, 1, 0x4, [⟨0, 4, .ro, 0, .none, 0, 0xFFFFFFFF⟩, ⟨4, 4, .ro, 0, .none, 0, 0xFFFFFFFF⟩, ⟨8, 1, .w1c, 0, .imm, 0, 0xFFFFFFFF⟩]⟩,
  ⟨0x8, 1, 0x4, [⟨0, 16, .ro, 1, .none, 0, 0xFFFFFFFF⟩]⟩,
  ⟨0x100, 4, 0x40, [⟨0, 4, .rw, 0, .imm, 0, 0xFFFFFFFF⟩, ⟨4, 3, .rw, 0, .imm, 0, 0xFFFFFFFF⟩, ⟨7, 1, .rw, 0, .imm, 0, 0xFFFFFFFF⟩, ⟨8, 1, .wo, 0, .imm, 0, 0xFFFFFFFF⟩, ⟨9, 1, .wo, 0, .imm, 0, 0xFFFFFFFF⟩, ⟨10, 1, .wo, 0, .imm, 0, 0xFFFFFFFF⟩, ⟨16, 16, .ro, 0, .none, 0, 0xFFFFFFFF⟩]⟩,
  ⟨0x104, 4, 0x40, [⟨6, 26, .rw, 0, .imm, 0, 0xFFFFFFFF⟩]⟩,
  ⟨0x108, 4, 0x40, [⟨0, 14, .rw, 0, .imm, 0, 0xFFFFFFFF⟩]⟩,
  ⟨0x10C, 4, 0x40, [⟨0, 32, .rw, 0, .imm, 0, 0xFFFFFFFF⟩]⟩,
  ⟨0x110, 4, 0x40, [⟨0, 8, .rw, 0, .imm, 0, 0xFFFFFFFF⟩]⟩,
  ⟨0x114, 4, 0x40, [⟨0, 5, .rw, 0, .imm, 0, 0xFFFFFFFF⟩, ⟨8, 11, .rw, 0, .imm, 0, 0xFFFFFFFF⟩, ⟨20, 4, .rw, 0, .imm, 0, 0xFFFFFFFF⟩]⟩,
  ⟨0x118, 4, 0x40, [⟨0, 1, .ro, 0, .none, 0, 0xFFFFFFFF⟩, ⟨1, 1, .ro, 0, .none, 0, 0xFFFFFFFF⟩, ⟨4, 2, .ro, 0, .none, 0, 0xFFFFFFFF⟩, ⟨8, 4, .ro, 0, .none, 0, 0xFFFFFFFF⟩, ⟨16, 16, .ro, 0, .none, 0, 0xFFFFFFFF⟩]⟩,
  ⟨0x11C, 4, 0x40, [⟨0, 32, .ro, 0, .none, 0, 0xFFFFFFFF⟩]⟩,
  ⟨0x120, 4, 0x40, [⟨0, 8, .ro, 0, .none, 0, 0xFFFFFFFF⟩]⟩,
  ⟨0x124, 4, 0x40, [⟨0, 16, .ro, 0, .none, 0, 0xFFFFFFFF⟩, ⟨16, 16, .ro, 0, .none, 0, 0xFFFFFFFF⟩]⟩,
  ⟨0x128, 4, 0x40, [⟨0, 32, .ro, 0, .none, 0, 0xFFFFFFFF⟩]⟩,
  ⟨0x12C, 4, 0x40, [⟨0, 32, .ro, 0, .none, 0, 0xFFFFFFFF⟩]⟩,
  ⟨0x130, 4, 0x40, [⟨0, 14, .ro, 0, .none, 0, 0xFFFFFFFF⟩]⟩,
  ⟨0x134, 4, 0x40, [⟨0, 32, .ro, 0, .none, 0, 0xFFFFFFFF⟩]⟩,
  ⟨0x138, 4, 0x40, [⟨0, 8, .ro, 0, .none, 0, 0xFFFFFFFF⟩]⟩]

/-- The CRC block (R359). -/
def rowsCrc : List RegRow := [
  ⟨0x0, 4, 0x40, [⟨0, 2, .rw, 0, .imm, 0, 0xFFFFFFFF⟩, ⟨2, 1, .rw, 0, .imm, 0, 0xFFFFFFFF⟩, ⟨8, 1, .wo, 0, .imm, 0, 0xFFFFFFFF⟩, ⟨9, 1, .wo, 0, .imm, 0, 0xFFFFFFFF⟩, ⟨10, 1, .wo, 0, .imm, 0, 0xFFFFFFFF⟩, ⟨11, 1, .w1c, 0, .imm, 0, 0xFFFFFFFF⟩]⟩,
  ⟨0x4, 4, 0x40, [⟨0, 32, .rw, 0, .imm, 0, 0xFFFFFFFF⟩]⟩,
  ⟨0x8, 4, 0x40, [⟨0, 32, .rw, 0, .imm, 0, 0xFFFFFFFF⟩]⟩,
  ⟨0xC, 4, 0x40, [⟨0, 8, .wo, 0, .imm, 0, 0xFFFFFFFF⟩]⟩,
  ⟨0x10, 4, 0x40, [⟨0, 16, .wo, 0, .imm, 0, 0xFFFFFFFF⟩]⟩,
  ⟨0x14, 4, 0x40, [⟨0, 32, .wo, 0, .imm, 0, 0xFFFFFFFF⟩]⟩,
  ⟨0x18, 4, 0x40, [⟨0, 1, .ro, 0, .none, 0, 0xFFFFFFFF⟩, ⟨1, 1, .ro, 0, .none, 0, 0xFFFFFFFF⟩, ⟨16, 16, .ro, 0, .none, 0, 0xFFFFFFFF⟩]⟩,
  ⟨0x1C, 4, 0x40, [⟨0, 32, .ro, 0, .none, 0, 0xFFFFFFFF⟩]⟩,
  ⟨0x20, 4, 0x40, [⟨0, 32, .ro, 0, .none, 0, 0xFFFFFFFF⟩]⟩,
  ⟨0x24, 4, 0x40, [⟨0, 32, .ro, 0, .none, 0, 0xFFFFFFFF⟩]⟩]

/-- The SEC block (R358). -/
def rowsSec : List RegRow := [
  ⟨0x0, 1, 0x4, [⟨0, 16, .ro, 0, .none, 0, 0xFFFFFFFF⟩, ⟨16, 8, .ro, 0, .none, 0, 0xFFFFFFFF⟩, ⟨24, 1, .ro, 0, .none, 0, 0xFFFFFFFF⟩]⟩,
  ⟨0x4, 1, 0x4, [⟨0, 7, .ro, 0, .none, 0, 0xFFFFFFFF⟩, ⟨8, 1, .ro, 0, .none, 0, 0xFFFFFFFF⟩, ⟨9, 1, .ro, 0, .none, 0, 0xFFFFFFFF⟩]⟩,
  ⟨0x8, 1, 0x4, [⟨0, 3, .ro, 0, .none, 0, 0xFFFFFFFF⟩, ⟨4, 3, .ro, 0, .none, 0, 0xFFFFFFFF⟩]⟩,
  ⟨0x10, 8, 0x4, [⟨0, 32, .ro, 0, .none, 0, 0xFFFFFFFF⟩]⟩,
  ⟨0x40, 8, 0x4, [⟨0, 32, .ro, 0, .none, 0, 0xFFFFFFFF⟩]⟩,
  ⟨0x60, 8, 0x4, [⟨0, 32, .ro, 0, .none, 0, 0xFFFFFFFF⟩]⟩,
  ⟨0x100, 1, 0x4, [⟨0, 3, .rw, 0, .imm, 0, 0xFFFFFFFF⟩, ⟨8, 1, .wo, 0, .imm, 0, 0xFFFFFFFF⟩, ⟨9, 1, .wo, 0, .imm, 0, 0xFFFFFFFF⟩, ⟨10, 1, .w1c, 0, .imm, 0, 0xFFFFFFFF⟩]⟩,
  ⟨0x104, 1, 0x4, [⟨0, 1, .ro, 0, .none, 0, 0xFFFFFFFF⟩, ⟨1, 1, .ro, 0, .none, 0, 0xFFFFFFFF⟩, ⟨2, 2, .ro, 0, .none, 0, 0xFFFFFFFF⟩, ⟨16, 16, .ro, 0, .none, 0, 0xFFFFFFFF⟩]⟩,
  ⟨0x108, 1, 0x4, [⟨0, 32, .rw, 0, .imm, 0, 0xFFFFFFFF⟩]⟩,
  ⟨0x10C, 1, 0x4, [⟨0, 14, .rw, 0, .imm, 0, 0xFFFFFFFF⟩]⟩,
  ⟨0x110, 1, 0x4, [⟨0, 32, .rw, 0, .imm, 0, 0xFFFFFFFF⟩]⟩,
  ⟨0x120, 8, 0x4, [⟨0, 32, .ro, 0, .none, 0, 0xFFFFFFFF⟩]⟩,
  ⟨0x140, 8, 0x4, [⟨0, 32, .rw, 0, .imm, 0, 0xFFFFFFFF⟩]⟩,
  ⟨0x1000, 1024, 0x4, [⟨0, 32, .rw, 0, .imm, 0, 0xFFFFFFFF⟩]⟩]

/-- The CST block (R190/R240). -/
def rowsCst : List RegRow := [
  ⟨0x0, 1, 0x4, [⟨0, 1, .rw, 0, .s, 0, 0xFFFFFFFF⟩]⟩,
  ⟨0x4, 1, 0x4, [⟨0, 1, .ro, 0, .none, 0, 0xFFFFFFFF⟩, ⟨1, 1, .ro, 0, .none, 0, 0xFFFFFFFF⟩, ⟨2, 6, .ro, 48, .none, 0, 0xFFFFFFFF⟩, ⟨8, 1, .ro, 0, .none, 0, 0xFFFFFFFF⟩, ⟨9, 1, .ro, 0, .none, 0, 0xFFFFFFFF⟩]⟩,
  ⟨0x8, 1, 0x4, [⟨0, 6, .rw, 48, .s, 0, 49⟩]⟩,
  ⟨0xC, 1, 0x4, [⟨0, 8, .rw, 100, .s, 16, 255⟩, ⟨8, 8, .rw, 4, .s, 1, 255⟩]⟩,
  ⟨0x10, 1, 0x4, [⟨0, 1, .w1c, 0, .imm, 0, 0xFFFFFFFF⟩, ⟨1, 1, .w1c, 0, .imm, 0, 0xFFFFFFFF⟩, ⟨2, 1, .w1c, 0, .imm, 0, 0xFFFFFFFF⟩, ⟨3, 1, .w1c, 0, .imm, 0, 0xFFFFFFFF⟩]⟩,
  ⟨0x14, 1, 0x4, [⟨0, 22, .ro, 0, .none, 0, 0xFFFFFFFF⟩]⟩,
  ⟨0x18, 1, 0x4, [⟨0, 2, .rw, 3, .s, 0, 0xFFFFFFFF⟩, ⟨2, 2, .rw, 3, .s, 0, 0xFFFFFFFF⟩]⟩,
  ⟨0x20, 1, 0x4, [⟨0, 8, .rw, 0, .imm, 0, 0xFFFFFFFF⟩]⟩,
  ⟨0x24, 1, 0x4, [⟨0, 8, .ro, 0, .none, 0, 0xFFFFFFFF⟩, ⟨8, 1, .ro, 0, .none, 0, 0xFFFFFFFF⟩]⟩,
  ⟨0x28, 1, 0x4, [⟨0, 15, .ro, 0, .none, 0, 0xFFFFFFFF⟩, ⟨16, 14, .ro, 0, .none, 0, 0xFFFFFFFF⟩]⟩,
  ⟨0x2C, 1, 0x4, [⟨0, 32, .ro, 0, .none, 0, 0xFFFFFFFF⟩]⟩,
  ⟨0x30, 1, 0x4, [⟨0, 16, .ro, 0, .none, 0, 0xFFFFFFFF⟩]⟩,
  ⟨0x40, 1, 0x4, [⟨0, 6, .rw, 0, .imm, 0, 0xFFFFFFFF⟩, ⟨6, 1, .rw, 0, .imm, 0, 0xFFFFFFFF⟩]⟩,
  ⟨0x44, 1, 0x4, [⟨0, 8, .rw, 0, .imm, 0, 0xFFFFFFFF⟩, ⟨8, 15, .rw, 0, .imm, 0, 0xFFFFFFFF⟩, ⟨30, 1, .ro, 0, .none, 0, 0xFFFFFFFF⟩, ⟨31, 1, .rw, 0, .imm, 0, 0xFFFFFFFF⟩]⟩,
  ⟨0x48, 1, 0x4, [⟨0, 8, .ro, 0, .none, 0, 0xFFFFFFFF⟩, ⟨8, 15, .ro, 0, .none, 0, 0xFFFFFFFF⟩]⟩]

/-- The PMP block (R191/R192/R214). -/
def rowsPmp : List RegRow := [
  ⟨0x0, 1, 0x4, [⟨0, 9, .rw, 128, .p, 32, 256⟩]⟩,
  ⟨0x4, 1, 0x4, [⟨0, 7, .rw, 75, .p, 10, 100⟩, ⟨8, 7, .rw, 50, .p, 0, 99⟩]⟩,
  ⟨0x8, 1, 0x4, [⟨0, 7, .rw, 16, .p, 4, 64⟩, ⟨8, 7, .rw, 88, .p, 50, 100⟩, ⟨16, 7, .rw, 75, .p, 0, 0xFFFFFFFF⟩]⟩,
  ⟨0x10, 1, 0x4, [⟨0, 19, .ro, 0, .none, 0, 0xFFFFFFFF⟩]⟩,
  ⟨0x14, 1, 0x4, [⟨0, 9, .rw, 120, .p, 0, 0xFFFFFFFF⟩, ⟨16, 1, .w1c, 0, .imm, 0, 0xFFFFFFFF⟩, ⟨20, 9, .ro, 0, .none, 0, 0xFFFFFFFF⟩]⟩,
  ⟨0x18, 1, 0x4, [⟨0, 32, .ro, 0, .none, 0, 0xFFFFFFFF⟩]⟩,
  ⟨0x1C, 1, 0x4, [⟨0, 32, .ro, 0, .none, 0, 0xFFFFFFFF⟩]⟩,
  ⟨0x20, 1, 0x4, [⟨0, 17, .ro, 0, .none, 0, 0xFFFFFFFF⟩]⟩,
  ⟨0x24, 1, 0x4, [⟨0, 7, .rw, 22, .p, 0, 0xFFFFFFFF⟩, ⟨8, 1, .w1c, 0, .imm, 0, 0xFFFFFFFF⟩, ⟨16, 7, .ro, 0, .none, 0, 0xFFFFFFFF⟩]⟩,
  ⟨0x28, 1, 0x4, [⟨0, 32, .ro, 0, .none, 0, 0xFFFFFFFF⟩]⟩,
  ⟨0x2C, 1, 0x4, [⟨0, 32, .ro, 0, .none, 0, 0xFFFFFFFF⟩]⟩,
  ⟨0x40, 1, 0x4, [⟨0, 1, .wo, 0, .imm, 0, 0xFFFFFFFF⟩, ⟨1, 1, .wo, 0, .imm, 0, 0xFFFFFFFF⟩, ⟨2, 1, .w1c, 0, .imm, 0, 0xFFFFFFFF⟩]⟩,
  ⟨0x44, 1, 0x4, [⟨0, 1, .ro, 0, .none, 0, 0xFFFFFFFF⟩, ⟨1, 1, .ro, 0, .none, 0, 0xFFFFFFFF⟩, ⟨2, 2, .ro, 0, .none, 0, 0xFFFFFFFF⟩, ⟨16, 16, .ro, 0, .none, 0, 0xFFFFFFFF⟩]⟩,
  ⟨0x48, 1, 0x4, [⟨0, 32, .ro, 0, .none, 0, 0xFFFFFFFF⟩]⟩,
  ⟨0x4C, 1, 0x4, [⟨0, 32, .ro, 0, .none, 0, 0xFFFFFFFF⟩]⟩,
  ⟨0x100, 1, 0x4, [⟨0, 32, .rw, 0x4C930533, .s, 0, 1284703539⟩]⟩,
  ⟨0x104, 1, 0x4, [⟨0, 13, .rw, 64, .p, 0, 4096⟩]⟩,
  ⟨0x108, 1, 0x4, [⟨0, 32, .ro, 0, .none, 0, 0xFFFFFFFF⟩]⟩,
  ⟨0x10C, 1, 0x4, [⟨0, 8, .ro, 16, .none, 0, 0xFFFFFFFF⟩]⟩,
  ⟨0x110, 1, 0x4, [⟨0, 1, .ro, 0, .none, 0, 0xFFFFFFFF⟩, ⟨1, 1, .w1c, 0, .imm, 0, 0xFFFFFFFF⟩]⟩,
  ⟨0x114, 1, 0x4, [⟨0, 13, .rw, 256, .p, 0, 0xFFFFFFFF⟩, ⟨16, 1, .w1c, 0, .imm, 0, 0xFFFFFFFF⟩, ⟨17, 13, .ro, 0, .none, 0, 0xFFFFFFFF⟩]⟩,
  ⟨0x118, 1, 0x4, [⟨0, 32, .ro, 0, .none, 0, 0xFFFFFFFF⟩]⟩,
  ⟨0x11C, 1, 0x4, [⟨0, 32, .ro, 0, .none, 0, 0xFFFFFFFF⟩]⟩,
  ⟨0x120, 1, 0x4, [⟨0, 32, .ro, 0, .none, 0, 0xFFFFFFFF⟩]⟩,
  ⟨0x124, 1, 0x4, [⟨0, 16, .ro, 0, .none, 0, 0xFFFFFFFF⟩]⟩,
  ⟨0x128, 1, 0x4, [⟨0, 32, .ro, 0, .none, 0, 0xFFFFFFFF⟩]⟩,
  ⟨0x12C, 1, 0x4, [⟨0, 16, .ro, 0, .none, 0, 0xFFFFFFFF⟩]⟩,
  ⟨0x130, 1, 0x4, [⟨0, 32, .ro, 0, .none, 0, 0xFFFFFFFF⟩]⟩,
  ⟨0x200, 1, 0x4, [⟨0, 3, .ro, 3, .none, 0, 0xFFFFFFFF⟩, ⟨3, 1, .ro, 0, .none, 0, 0xFFFFFFFF⟩, ⟨4, 3, .ro, 0, .none, 0, 0xFFFFFFFF⟩, ⟨8, 24, .ro, 0, .none, 0, 0xFFFFFFFF⟩]⟩,
  ⟨0x204, 1, 0x4, [⟨0, 2, .ro, 0, .none, 0, 0xFFFFFFFF⟩, ⟨2, 1, .ro, 0, .none, 0, 0xFFFFFFFF⟩, ⟨3, 1, .ro, 0, .none, 0, 0xFFFFFFFF⟩, ⟨8, 24, .ro, 0, .none, 0, 0xFFFFFFFF⟩]⟩] ++ [
  ⟨0x208, 1, 0x4, [⟨0, 32, .ro, 0, .none, 0, 0xFFFFFFFF⟩]⟩,
  ⟨0x20C, 1, 0x4, [⟨0, 16, .ro, 0, .none, 0, 0xFFFFFFFF⟩]⟩,
  ⟨0x210, 1, 0x4, [⟨0, 19, .ro, 0, .none, 0, 0xFFFFFFFF⟩]⟩,
  ⟨0x220, 1, 0x4, [⟨0, 1, .wo, 0, .imm, 0, 0xFFFFFFFF⟩, ⟨1, 1, .rw, 1, .s, 0, 0xFFFFFFFF⟩, ⟨2, 1, .rw, 1, .s, 0, 0xFFFFFFFF⟩, ⟨3, 2, .rw, 1, .s, 0, 2⟩]⟩,
  ⟨0x224, 1, 0x4, [⟨0, 21, .rw, 851968, .s, 0, 0xFFFFFFFF⟩]⟩,
  ⟨0x228, 1, 0x4, [⟨0, 21, .ro, 0, .none, 0, 0xFFFFFFFF⟩]⟩]

/-- The DIR block (R40). -/
def rowsDir : List RegRow := [
  ⟨0x10, 4, 0x4, [⟨0, 15, .rw, 0, .s, 0, 0xFFFFFFFF⟩, ⟨16, 15, .rw, 0, .s, 0, 0xFFFFFFFF⟩, ⟨31, 1, .rw, 0, .s, 0, 0xFFFFFFFF⟩]⟩,
  ⟨0x20, 1, 0x4, [⟨0, 15, .rw, 0, .s, 0, 0xFFFFFFFF⟩, ⟨16, 15, .rw, 0, .s, 0, 0xFFFFFFFF⟩, ⟨31, 1, .rw, 0, .s, 0, 0xFFFFFFFF⟩]⟩,
  ⟨0x24, 1, 0x4, [⟨0, 1, .rw, 0, .s, 0, 0xFFFFFFFF⟩, ⟨8, 2, .rw, 0, .s, 0, 0xFFFFFFFF⟩, ⟨10, 2, .rw, 1, .s, 0, 0xFFFFFFFF⟩, ⟨12, 2, .rw, 2, .s, 0, 0xFFFFFFFF⟩, ⟨14, 2, .rw, 3, .s, 0, 0xFFFFFFFF⟩]⟩,
  ⟨0x28, 1, 0x4, [⟨0, 22, .rw, 0x3FFFFF, .s, 0, 0xFFFFFFFF⟩]⟩,
  ⟨0x2C, 1, 0x4, [⟨0, 4, .ro, 1, .none, 0, 0xFFFFFFFF⟩, ⟨4, 2, .ro, 0, .none, 0, 0xFFFFFFFF⟩]⟩,
  ⟨0x30, 1, 0x4, [⟨0, 1, .w1c, 0, .imm, 0, 0xFFFFFFFF⟩, ⟨4, 4, .ro, 0, .none, 0, 0xFFFFFFFF⟩]⟩,
  ⟨0x40, 1, 0x4, [⟨0, 1, .w1c, 0, .imm, 0, 0xFFFFFFFF⟩, ⟨1, 1, .w1c, 0, .imm, 0, 0xFFFFFFFF⟩, ⟨2, 4, .ro, 0, .none, 0, 0xFFFFFFFF⟩, ⟨8, 4, .ro, 0, .none, 0, 0xFFFFFFFF⟩]⟩,
  ⟨0x44, 1, 0x4, [⟨0, 32, .ro, 0, .none, 0, 0xFFFFFFFF⟩]⟩,
  ⟨0x48, 1, 0x4, [⟨0, 14, .ro, 0, .none, 0, 0xFFFFFFFF⟩]⟩,
  ⟨0x400, 256, 0x4, [⟨0, 5, .rw, 0, .s, 0, 0xFFFFFFFF⟩]⟩,
  ⟨0x800, 256, 0x4, [⟨0, 5, .ro, 0, .none, 0, 0xFFFFFFFF⟩]⟩]

/-- The PCI block (R339). -/
def rowsPci : List RegRow := [
  ⟨0x0, 1, 0x4, [⟨0, 1, .rw, 1, .s, 0, 0xFFFFFFFF⟩, ⟨1, 1, .rw, 0, .s, 0, 0xFFFFFFFF⟩, ⟨2, 2, .rw, 0, .s, 0, 0xFFFFFFFF⟩, ⟨8, 8, .rw, 90, .imm, 10, 250⟩]⟩,
  ⟨0x4, 1, 0x4, [⟨0, 1, .ro, 0, .none, 0, 0xFFFFFFFF⟩, ⟨1, 2, .ro, 0, .none, 0, 0xFFFFFFFF⟩, ⟨3, 2, .ro, 0, .none, 0, 0xFFFFFFFF⟩, ⟨5, 2, .ro, 0, .none, 0, 0xFFFFFFFF⟩, ⟨7, 1, .ro, 0, .none, 0, 0xFFFFFFFF⟩]⟩,
  ⟨0x8, 1, 0x4, [⟨0, 1, .w1c, 0, .imm, 0, 0xFFFFFFFF⟩, ⟨1, 1, .w1c, 0, .imm, 0, 0xFFFFFFFF⟩, ⟨2, 1, .w1c, 0, .imm, 0, 0xFFFFFFFF⟩, ⟨3, 1, .w1c, 0, .imm, 0, 0xFFFFFFFF⟩, ⟨4, 1, .w1c, 0, .imm, 0, 0xFFFFFFFF⟩, ⟨5, 1, .w1c, 0, .imm, 0, 0xFFFFFFFF⟩, ⟨6, 1, .w1c, 0, .imm, 0, 0xFFFFFFFF⟩]⟩,
  ⟨0xC, 1, 0x4, [⟨0, 6, .rw, 0, .imm, 0, 0xFFFFFFFF⟩]⟩,
  ⟨0x10, 1, 0x4, [⟨0, 6, .ro, 0, .none, 0, 0xFFFFFFFF⟩]⟩,
  ⟨0x14, 1, 0x4, [⟨0, 16, .ro, 0, .none, 0, 0xFFFFFFFF⟩, ⟨16, 16, .ro, 0x6440, .none, 0, 0xFFFFFFFF⟩]⟩,
  ⟨0x100, 2, 0x40, [⟨0, 1, .rw, 0, .imm, 0, 0xFFFFFFFF⟩, ⟨1, 1, .wo, 0, .imm, 0, 0xFFFFFFFF⟩]⟩,
  ⟨0x104, 2, 0x40, [⟨0, 2, .ro, 0, .none, 0, 0xFFFFFFFF⟩, ⟨4, 4, .ro, 0, .none, 0, 0xFFFFFFFF⟩]⟩,
  ⟨0x108, 2, 0x40, [⟨6, 26, .rw, 0, .imm, 0, 0xFFFFFFFF⟩]⟩,
  ⟨0x10C, 2, 0x40, [⟨0, 32, .rw, 0, .imm, 0, 0xFFFFFFFF⟩]⟩,
  ⟨0x110, 2, 0x40, [⟨0, 4, .rw, 3, .imm, 3, 12⟩]⟩,
  ⟨0x114, 2, 0x40, [⟨0, 12, .ro, 0, .none, 0, 0xFFFFFFFF⟩]⟩,
  ⟨0x118, 2, 0x40, [⟨0, 12, .rw, 0, .imm, 0, 0xFFFFFFFF⟩]⟩,
  ⟨0x11C, 2, 0x40, [⟨0, 32, .ro, 0, .none, 0, 0xFFFFFFFF⟩]⟩,
  ⟨0x400, 1, 0x4, [⟨0, 16, .rw, 0, .imm, 0, 0xFFFFFFFF⟩, ⟨16, 8, .rw, 0, .imm, 0, 0xFFFFFFFF⟩, ⟨24, 1, .rw, 0, .imm, 0, 0xFFFFFFFF⟩, ⟨31, 1, .wo, 0, .imm, 0, 0xFFFFFFFF⟩]⟩,
  ⟨0x404, 1, 0x4, [⟨0, 9, .rw, 0, .imm, 0, 256⟩]⟩,
  ⟨0x408, 1, 0x4, [⟨0, 32, .rw, 0, .imm, 0, 0xFFFFFFFF⟩]⟩,
  ⟨0x40C, 1, 0x4, [⟨0, 1, .wo, 0, .imm, 0, 0xFFFFFFFF⟩, ⟨1, 1, .w1c, 0, .imm, 0, 0xFFFFFFFF⟩]⟩,
  ⟨0x410, 1, 0x4, [⟨0, 1, .ro, 0, .none, 0, 0xFFFFFFFF⟩, ⟨1, 1, .ro, 0, .none, 0, 0xFFFFFFFF⟩, ⟨2, 1, .ro, 0, .none, 0, 0xFFFFFFFF⟩, ⟨16, 16, .ro, 0, .none, 0, 0xFFFFFFFF⟩]⟩,
  ⟨0x414, 1, 0x4, [⟨0, 9, .ro, 0, .none, 0, 0xFFFFFFFF⟩]⟩,
  ⟨0x418, 1, 0x4, [⟨0, 32, .ro, 0, .none, 0, 0xFFFFFFFF⟩]⟩,
  ⟨0x440, 64, 0x4, [⟨0, 32, .rw, 0, .imm, 0, 0xFFFFFFFF⟩]⟩]

/-- The CAN block (R340). -/
def rowsCan : List RegRow := [
  ⟨0x0, 1, 0x4, [⟨0, 1, .rw, 1, .s, 0, 0xFFFFFFFF⟩, ⟨1, 1, .rw, 0, .s, 0, 0xFFFFFFFF⟩]⟩,
  ⟨0x4, 1, 0x4, [⟨0, 7, .rw, 127, .s, 0, 0xFFFFFFFF⟩]⟩,
  ⟨0x8, 1, 0x4, [⟨0, 2, .rw, 2, .s, 0, 0xFFFFFFFF⟩, ⟨2, 2, .rw, 1, .s, 0, 0xFFFFFFFF⟩]⟩,
  ⟨0xC, 1, 0x4, [⟨0, 29, .rw, 0x01000000, .s, 0, 0xFFFFFFFF⟩, ⟨31, 1, .rw, 1, .s, 0, 0xFFFFFFFF⟩]⟩,
  ⟨0x10, 1, 0x4, [⟨0, 2, .ro, 0, .none, 0, 0xFFFFFFFF⟩, ⟨2, 2, .ro, 0, .none, 0, 0xFFFFFFFF⟩, ⟨4, 1, .ro, 0, .none, 0, 0xFFFFFFFF⟩, ⟨8, 8, .ro, 0, .none, 0, 0xFFFFFFFF⟩, ⟨16, 8, .ro, 0, .none, 0, 0xFFFFFFFF⟩]⟩,
  ⟨0x14, 1, 0x4, [⟨0, 1, .w1c, 0, .imm, 0, 0xFFFFFFFF⟩, ⟨1, 1, .w1c, 0, .imm, 0, 0xFFFFFFFF⟩, ⟨2, 1, .w1c, 0, .imm, 0, 0xFFFFFFFF⟩, ⟨3, 1, .w1c, 0, .imm, 0, 0xFFFFFFFF⟩]⟩,
  ⟨0x400, 1, 0x4, [⟨0, 16, .rw, 0, .imm, 0, 0xFFFFFFFF⟩, ⟨16, 8, .rw, 0, .imm, 0, 0xFFFFFFFF⟩, ⟨24, 1, .rw, 0, .imm, 0, 0xFFFFFFFF⟩, ⟨31, 1, .wo, 0, .imm, 0, 0xFFFFFFFF⟩]⟩,
  ⟨0x404, 1, 0x4, [⟨0, 9, .rw, 0, .imm, 0, 256⟩]⟩,
  ⟨0x408, 1, 0x4, [⟨0, 32, .rw, 0, .imm, 0, 0xFFFFFFFF⟩]⟩,
  ⟨0x40C, 1, 0x4, [⟨0, 1, .wo, 0, .imm, 0, 0xFFFFFFFF⟩, ⟨1, 1, .w1c, 0, .imm, 0, 0xFFFFFFFF⟩]⟩,
  ⟨0x410, 1, 0x4, [⟨0, 1, .ro, 0, .none, 0, 0xFFFFFFFF⟩, ⟨1, 1, .ro, 0, .none, 0, 0xFFFFFFFF⟩, ⟨2, 1, .ro, 0, .none, 0, 0xFFFFFFFF⟩, ⟨16, 16, .ro, 0, .none, 0, 0xFFFFFFFF⟩]⟩,
  ⟨0x414, 1, 0x4, [⟨0, 9, .ro, 0, .none, 0, 0xFFFFFFFF⟩]⟩,
  ⟨0x418, 1, 0x4, [⟨0, 32, .ro, 0, .none, 0, 0xFFFFFFFF⟩]⟩,
  ⟨0x440, 64, 0x4, [⟨0, 32, .rw, 0, .imm, 0, 0xFFFFFFFF⟩]⟩]

/-- The MSR block (R393). -/
def rowsMsr : List RegRow := [
  ⟨0x0, 1, 0x4, [⟨0, 1, .wo, 0, .imm, 0, 0xFFFFFFFF⟩, ⟨1, 1, .wo, 0, .imm, 0, 0xFFFFFFFF⟩]⟩,
  ⟨0x10, 8, 0x4, [⟨0, 5, .rw, 0, .imm, 0, 0xFFFFFFFF⟩]⟩,
  ⟨0x40, 1, 0x4, [⟨0, 5, .rw, 0, .imm, 0, 0xFFFFFFFF⟩, ⟨8, 3, .rw, 0, .imm, 0, 0xFFFFFFFF⟩, ⟨12, 1, .rw, 0, .imm, 0, 0xFFFFFFFF⟩]⟩,
  ⟨0x44, 1, 0x4, [⟨0, 32, .ro, 0, .none, 0, 0xFFFFFFFF⟩]⟩,
  ⟨0x48, 1, 0x4, [⟨0, 16, .ro, 0, .none, 0, 0xFFFFFFFF⟩]⟩,
  ⟨0x50, 1, 0x4, [⟨0, 8, .rw, 30, .imm, 0, 0xFFFFFFFF⟩, ⟨8, 8, .rw, 10, .imm, 1, 255⟩]⟩,
  ⟨0x54, 1, 0x4, [⟨0, 3, .rw, 0, .imm, 0, 0xFFFFFFFF⟩, ⟨8, 4, .rw, 0, .imm, 0, 0xFFFFFFFF⟩, ⟨12, 1, .rw, 0, .imm, 0, 0xFFFFFFFF⟩]⟩,
  ⟨0x58, 1, 0x4, [⟨0, 32, .ro, 0, .none, 0, 0xFFFFFFFF⟩]⟩,
  ⟨0x80, 8, 0x4, [⟨0, 12, .ro, 0, .none, 0, 0xFFFFFFFF⟩, ⟨16, 1, .ro, 0, .none, 0, 0xFFFFFFFF⟩]⟩,
  ⟨0xA0, 8, 0x4, [⟨0, 14, .ro, 0, .none, 0, 0xFFFFFFFF⟩]⟩,
  ⟨0xC0, 1, 0x4, [⟨0, 32, .ro, 0, .none, 0, 0xFFFFFFFF⟩]⟩,
  ⟨0xC4, 1, 0x4, [⟨0, 16, .ro, 0, .none, 0, 0xFFFFFFFF⟩, ⟨16, 8, .ro, 0, .none, 0, 0xFFFFFFFF⟩]⟩,
  ⟨0xC8, 1, 0x4, [⟨0, 32, .ro, 0, .none, 0, 0xFFFFFFFF⟩]⟩,
  ⟨0xCC, 1, 0x4, [⟨0, 16, .ro, 0, .none, 0, 0xFFFFFFFF⟩, ⟨16, 8, .ro, 0, .none, 0, 0xFFFFFFFF⟩]⟩,
  ⟨0xE0, 1, 0x4, [⟨0, 32, .ro, 0, .none, 0, 0xFFFFFFFF⟩]⟩,
  ⟨0xE4, 1, 0x4, [⟨0, 32, .ro, 0, .none, 0, 0xFFFFFFFF⟩]⟩,
  ⟨0xE8, 1, 0x4, [⟨0, 32, .ro, 0, .none, 0, 0xFFFFFFFF⟩]⟩,
  ⟨0xEC, 1, 0x4, [⟨0, 16, .ro, 0, .none, 0, 0xFFFFFFFF⟩]⟩]

/-- The SLC block (R95/R239/R291). -/
def rowsSlc : List RegRow := [
  ⟨0x0, 1, 0x4, [⟨0, 1, .rw, 0, .s, 0, 0xFFFFFFFF⟩]⟩,
  ⟨0x4, 1, 0x4, [⟨0, 2, .ro, 0, .none, 0, 0xFFFFFFFF⟩, ⟨2, 1, .ro, 0, .none, 0, 0xFFFFFFFF⟩]⟩,
  ⟨0x8, 1, 0x4, [⟨0, 16, .ro, 0, .none, 0, 0xFFFFFFFF⟩, ⟨16, 15, .ro, 0, .none, 0, 0xFFFFFFFF⟩]⟩,
  ⟨0x10, 1, 0x4, [⟨0, 1, .w1c, 0, .imm, 0, 0xFFFFFFFF⟩, ⟨1, 3, .ro, 0, .none, 0, 0xFFFFFFFF⟩, ⟨4, 1, .w1c, 0, .imm, 0, 0xFFFFFFFF⟩, ⟨5, 1, .w1c, 0, .imm, 0, 0xFFFFFFFF⟩, ⟨6, 1, .w1c, 0, .imm, 0, 0xFFFFFFFF⟩, ⟨7, 1, .w1c, 0, .imm, 0, 0xFFFFFFFF⟩, ⟨8, 1, .w1c, 0, .imm, 0, 0xFFFFFFFF⟩]⟩,
  ⟨0x20, 8, 0x4, [⟨0, 16, .rw, 0xFFFF, .p, 0, 0xFFFFFFFF⟩, ⟨16, 1, .rw, 0, .p, 0, 0xFFFFFFFF⟩]⟩,
  ⟨0x40, 1, 0x4, [⟨0, 3, .rw, 0, .p, 0, 0xFFFFFFFF⟩, ⟨4, 3, .rw, 0, .p, 0, 0xFFFFFFFF⟩, ⟨8, 3, .rw, 0, .p, 0, 0xFFFFFFFF⟩, ⟨12, 3, .rw, 0, .p, 0, 0xFFFFFFFF⟩, ⟨16, 3, .rw, 0, .p, 0, 0xFFFFFFFF⟩, ⟨20, 3, .rw, 0, .p, 0, 0xFFFFFFFF⟩, ⟨24, 3, .rw, 0, .p, 0, 0xFFFFFFFF⟩, ⟨28, 3, .rw, 0, .p, 0, 0xFFFFFFFF⟩]⟩,
  ⟨0x44, 1, 0x4, [⟨0, 3, .rw, 0, .p, 0, 0xFFFFFFFF⟩, ⟨4, 3, .rw, 0, .p, 0, 0xFFFFFFFF⟩, ⟨8, 3, .rw, 0, .p, 0, 0xFFFFFFFF⟩, ⟨12, 3, .rw, 0, .p, 0, 0xFFFFFFFF⟩]⟩,
  ⟨0x48, 1, 0x4, [⟨0, 6, .rw, 0, .p, 0, 0xFFFFFFFF⟩]⟩,
  ⟨0x4C, 1, 0x4, [⟨0, 16, .rw, 0, .p, 0, 0xFFFFFFFF⟩]⟩,
  ⟨0x50, 1, 0x4, [⟨0, 7, .ro, 0, .none, 0, 0xFFFFFFFF⟩]⟩,
  ⟨0x54, 1, 0x4, [⟨0, 7, .rw, 56, .p, 0, 0xFFFFFFFF⟩, ⟨8, 1, .w1c, 0, .imm, 0, 0xFFFFFFFF⟩, ⟨16, 7, .ro, 0, .none, 0, 0xFFFFFFFF⟩]⟩,
  ⟨0x58, 1, 0x4, [⟨0, 32, .ro, 0, .none, 0, 0xFFFFFFFF⟩]⟩,
  ⟨0x5C, 1, 0x4, [⟨0, 32, .ro, 0, .none, 0, 0xFFFFFFFF⟩]⟩,
  ⟨0x60, 1, 0x4, [⟨0, 7, .ro, 0, .none, 0, 0xFFFFFFFF⟩]⟩,
  ⟨0x64, 1, 0x4, [⟨0, 7, .rw, 12, .p, 0, 0xFFFFFFFF⟩, ⟨8, 1, .w1c, 0, .imm, 0, 0xFFFFFFFF⟩, ⟨16, 7, .ro, 0, .none, 0, 0xFFFFFFFF⟩]⟩,
  ⟨0x68, 1, 0x4, [⟨0, 32, .ro, 0, .none, 0, 0xFFFFFFFF⟩]⟩,
  ⟨0x6C, 1, 0x4, [⟨0, 32, .ro, 0, .none, 0, 0xFFFFFFFF⟩]⟩,
  ⟨0x80, 1, 0x4, [⟨0, 11, .rw, 0, .imm, 0, 0xFFFFFFFF⟩, ⟨16, 4, .rw, 0, .imm, 0, 0xFFFFFFFF⟩]⟩,
  ⟨0x84, 1, 0x4, [⟨0, 32, .ro, 0, .none, 0, 0xFFFFFFFF⟩]⟩,
  ⟨0x88, 1, 0x4, [⟨0, 15, .ro, 0, .none, 0, 0xFFFFFFFF⟩]⟩,
  ⟨0x90, 4, 0x4, [⟨0, 32, .ro, 0, .none, 0, 0xFFFFFFFF⟩]⟩,
  ⟨0xC0, 8, 0x4, [⟨0, 11, .rw, 0, .imm, 0, 0xFFFFFFFF⟩, ⟨12, 4, .rw, 0, .imm, 0, 0xFFFFFFFF⟩, ⟨30, 1, .ro, 0, .none, 0, 0xFFFFFFFF⟩, ⟨31, 1, .rw, 0, .imm, 0, 0xFFFFFFFF⟩]⟩,
  ⟨0xE0, 1, 0x4, [⟨0, 2, .rw, 3, .s, 0, 0xFFFFFFFF⟩]⟩,
  ⟨0xE4, 1, 0x4, [⟨0, 11, .ro, 0, .none, 0, 0xFFFFFFFF⟩, ⟨11, 4, .ro, 0, .none, 0, 0xFFFFFFFF⟩, ⟨15, 2, .ro, 0, .none, 0, 0xFFFFFFFF⟩, ⟨17, 1, .ro, 0, .none, 0, 0xFFFFFFFF⟩]⟩,
  ⟨0x100, 8, 0x4, [⟨0, 32, .rw, 0, .s, 0, 0xFFFFFFFF⟩]⟩,
  ⟨0x120, 1, 0x4, [⟨0, 17, .ro, 0, .none, 0, 0xFFFFFFFF⟩, ⟨17, 1, .ro, 0, .none, 0, 0xFFFFFFFF⟩, ⟨18, 1, .ro, 0, .none, 0, 0xFFFFFFFF⟩]⟩]

/-- The APT block (R67). -/
def rowsApt : List RegRow := [
  ⟨0x0, 1, 0x4, [⟨0, 1, .rw, 0, .s, 0, 0xFFFFFFFF⟩, ⟨1, 1, .rw, 0, .s, 0, 0xFFFFFFFF⟩, ⟨2, 1, .rw, 0, .s, 0, 0xFFFFFFFF⟩, ⟨4, 1, .wo, 0, .imm, 0, 0xFFFFFFFF⟩, ⟨5, 1, .wo, 0, .imm, 0, 0xFFFFFFFF⟩]⟩,
  ⟨0x4, 1, 0x4, [⟨0, 4, .ro, 0, .none, 0, 0xFFFFFFFF⟩, ⟨4, 2, .ro, 0, .none, 0, 0xFFFFFFFF⟩, ⟨6, 1, .ro, 0, .none, 0, 0xFFFFFFFF⟩, ⟨7, 1, .ro, 0, .none, 0, 0xFFFFFFFF⟩, ⟨8, 1, .ro, 0, .none, 0, 0xFFFFFFFF⟩, ⟨9, 1, .ro, 0, .none, 0, 0xFFFFFFFF⟩, ⟨10, 1, .ro, 0, .none, 0, 0xFFFFFFFF⟩, ⟨11, 1, .ro, 0, .none, 0, 0xFFFFFFFF⟩]⟩,
  ⟨0x8, 1, 0x4, [⟨0, 8, .rw, 20, .s, 1, 40⟩, ⟨8, 8, .rw, 8, .s, 8, 64⟩, ⟨16, 8, .rw, 50, .s, 10, 255⟩]⟩,
  ⟨0xC, 1, 0x4, [⟨0, 8, .rw, 48, .s, 8, 48⟩, ⟨8, 8, .rw, 32, .s, 8, 32⟩, ⟨16, 8, .rw, 32, .s, 8, 32⟩]⟩,
  ⟨0x10, 1, 0x4, [⟨0, 8, .ro, 0, .none, 0, 0xFFFFFFFF⟩, ⟨8, 8, .ro, 0, .none, 0, 0xFFFFFFFF⟩, ⟨16, 8, .ro, 0, .none, 0, 0xFFFFFFFF⟩]⟩,
  ⟨0x14, 1, 0x4, [⟨0, 11, .ro, 0, .none, 0, 0xFFFFFFFF⟩, ⟨16, 8, .ro, 0, .none, 0, 0xFFFFFFFF⟩]⟩,
  ⟨0x18, 1, 0x4, [⟨0, 32, .ro, 0, .none, 0, 0xFFFFFFFF⟩]⟩,
  ⟨0x1C, 1, 0x4, [⟨0, 32, .ro, 0, .none, 0, 0xFFFFFFFF⟩]⟩,
  ⟨0x20, 1, 0x4, [⟨0, 1, .w1c, 0, .imm, 0, 0xFFFFFFFF⟩, ⟨1, 1, .w1c, 0, .imm, 0, 0xFFFFFFFF⟩, ⟨2, 1, .w1c, 0, .imm, 0, 0xFFFFFFFF⟩, ⟨3, 1, .w1c, 0, .imm, 0, 0xFFFFFFFF⟩, ⟨4, 1, .w1c, 0, .imm, 0, 0xFFFFFFFF⟩, ⟨5, 1, .w1c, 0, .imm, 0, 0xFFFFFFFF⟩, ⟨6, 1, .w1c, 0, .imm, 0, 0xFFFFFFFF⟩, ⟨8, 8, .ro, 0, .none, 0, 0xFFFFFFFF⟩]⟩,
  ⟨0x24, 4, 0x4, [⟨0, 32, .ro, 0, .none, 0, 0xFFFFFFFF⟩]⟩,
  ⟨0x34, 1, 0x4, [⟨0, 32, .ro, 0, .none, 0, 0xFFFFFFFF⟩]⟩,
  ⟨0x38, 1, 0x4, [⟨0, 32, .ro, 0, .none, 0, 0xFFFFFFFF⟩]⟩,
  ⟨0x3C, 1, 0x4, [⟨0, 16, .ro, 0, .none, 0, 0xFFFFFFFF⟩]⟩,
  ⟨0x40, 1, 0x4, [⟨0, 7, .ro, 0, .none, 0, 0xFFFFFFFF⟩]⟩,
  ⟨0x44, 1, 0x4, [⟨0, 7, .rw, 80, .p, 0, 0xFFFFFFFF⟩, ⟨8, 1, .w1c, 0, .imm, 0, 0xFFFFFFFF⟩, ⟨16, 7, .ro, 0, .none, 0, 0xFFFFFFFF⟩]⟩,
  ⟨0x48, 1, 0x4, [⟨0, 32, .ro, 0, .none, 0, 0xFFFFFFFF⟩]⟩,
  ⟨0x4C, 1, 0x4, [⟨0, 32, .ro, 0, .none, 0, 0xFFFFFFFF⟩]⟩]

/-- The FED block (R383). -/
def rowsFed : List RegRow := [
  ⟨0x0, 1, 0x4, [⟨0, 1, .rw, 0, .s, 0, 0xFFFFFFFF⟩, ⟨1, 1, .rw, 0, .s, 0, 0xFFFFFFFF⟩, ⟨5, 1, .wo, 0, .imm, 0, 0xFFFFFFFF⟩]⟩,
  ⟨0x4, 1, 0x4, [⟨0, 4, .ro, 0, .none, 0, 0xFFFFFFFF⟩, ⟨4, 2, .ro, 0, .none, 0, 0xFFFFFFFF⟩, ⟨6, 1, .ro, 0, .none, 0, 0xFFFFFFFF⟩, ⟨7, 1, .ro, 0, .none, 0, 0xFFFFFFFF⟩, ⟨8, 2, .ro, 0, .none, 0, 0xFFFFFFFF⟩, ⟨10, 1, .ro, 0, .none, 0, 0xFFFFFFFF⟩, ⟨11, 1, .ro, 0, .none, 0, 0xFFFFFFFF⟩]⟩,
  ⟨0x8, 1, 0x4, [⟨0, 8, .rw, 20, .s, 1, 40⟩, ⟨8, 8, .rw, 8, .s, 8, 64⟩]⟩,
  ⟨0xC, 1, 0x4, [⟨0, 1, .w1c, 0, .imm, 0, 0xFFFFFFFF⟩, ⟨1, 1, .w1c, 0, .imm, 0, 0xFFFFFFFF⟩, ⟨2, 1, .w1c, 0, .imm, 0, 0xFFFFFFFF⟩, ⟨3, 1, .w1c, 0, .imm, 0, 0xFFFFFFFF⟩, ⟨4, 1, .w1c, 0, .imm, 0, 0xFFFFFFFF⟩, ⟨5, 1, .w1c, 0, .imm, 0, 0xFFFFFFFF⟩]⟩,
  ⟨0x10, 1, 0x4, [⟨0, 32, .ro, 0, .none, 0, 0xFFFFFFFF⟩]⟩,
  ⟨0x14, 1, 0x4, [⟨0, 32, .ro, 0, .none, 0, 0xFFFFFFFF⟩]⟩,
  ⟨0x20, 8, 0x4, [⟨0, 32, .ro, 0, .none, 0, 0xFFFFFFFF⟩]⟩,
  ⟨0x40, 1, 0x4, [⟨0, 32, .ro, 0, .none, 0, 0xFFFFFFFF⟩]⟩,
  ⟨0x44, 1, 0x4, [⟨0, 32, .ro, 0, .none, 0, 0xFFFFFFFF⟩]⟩,
  ⟨0x48, 1, 0x4, [⟨0, 32, .ro, 0, .none, 0, 0xFFFFFFFF⟩]⟩]

/-- The FEDA block (R384). -/
def rowsFeda : List RegRow := [
  ⟨0x1000, 1, 0x4, [⟨0, 4, .rw, 1, .s, 0, 0xFFFFFFFF⟩, ⟨8, 8, .rw, 20, .s, 1, 255⟩]⟩,
  ⟨0x1004, 1, 0x4, [⟨0, 8, .rw, 150, .s, 10, 255⟩]⟩,
  ⟨0x1008, 1, 0x4, [⟨0, 1, .wo, 0, .imm, 0, 0xFFFFFFFF⟩]⟩,
  ⟨0x100C, 1, 0x4, [⟨0, 3, .ro, 0, .none, 0, 0xFFFFFFFF⟩, ⟨4, 2, .ro, 0, .none, 0, 0xFFFFFFFF⟩, ⟨8, 8, .ro, 0, .none, 0, 0xFFFFFFFF⟩, ⟨16, 4, .ro, 0, .none, 0, 0xFFFFFFFF⟩, ⟨20, 4, .ro, 0, .none, 0, 0xFFFFFFFF⟩, ⟨24, 4, .ro, 0, .none, 0, 0xFFFFFFFF⟩]⟩,
  ⟨0x1010, 1, 0x4, [⟨0, 4, .ro, 1, .none, 0, 0xFFFFFFFF⟩, ⟨4, 2, .ro, 0, .none, 0, 0xFFFFFFFF⟩, ⟨6, 1, .ro, 0, .none, 0, 0xFFFFFFFF⟩, ⟨7, 1, .ro, 0, .none, 0, 0xFFFFFFFF⟩, ⟨8, 1, .ro, 0, .none, 0, 0xFFFFFFFF⟩]⟩,
  ⟨0x1014, 1, 0x4, [⟨0, 32, .ro, 0, .none, 0, 0xFFFFFFFF⟩]⟩,
  ⟨0x1018, 1, 0x4, [⟨0, 6, .rw, 0, .imm, 0, 0xFFFFFFFF⟩, ⟨8, 6, .ro, 0, .none, 0, 0xFFFFFFFF⟩]⟩,
  ⟨0x1020, 8, 0x4, [⟨0, 32, .ro, 0, .none, 0, 0xFFFFFFFF⟩]⟩]

/-- The MCH block (R238). -/
def rowsMch : List RegRow := [
  ⟨0x0, 1, 0x4, [⟨0, 1, .rw, 0, .s, 0, 0xFFFFFFFF⟩, ⟨1, 2, .rw, 0, .s, 0, 2⟩]⟩,
  ⟨0x4, 1, 0x4, [⟨0, 2, .rw, 0, .s, 0, 0xFFFFFFFF⟩, ⟨2, 1, .rw, 0, .s, 0, 0xFFFFFFFF⟩, ⟨3, 1, .rw, 1, .s, 0, 0xFFFFFFFF⟩, ⟨4, 1, .rw, 0, .s, 0, 0xFFFFFFFF⟩]⟩,
  ⟨0x8, 1, 0x4, [⟨0, 2, .rw, 0, .s, 0, 0xFFFFFFFF⟩]⟩,
  ⟨0xC, 1, 0x4, [⟨0, 2, .ro, 0, .none, 0, 0xFFFFFFFF⟩, ⟨2, 1, .ro, 0, .none, 0, 0xFFFFFFFF⟩, ⟨3, 1, .w1c, 0, .imm, 0, 0xFFFFFFFF⟩, ⟨4, 9, .ro, 0, .none, 0, 0xFFFFFFFF⟩]⟩,
  ⟨0x10, 1, 0x4, [⟨0, 8, .rw, 16, .imm, 1, 255⟩, ⟨8, 8, .rw, 60, .imm, 1, 255⟩, ⟨16, 1, .rw, 1, .imm, 0, 0xFFFFFFFF⟩]⟩,
  ⟨0x20, 8, 0x4, [⟨0, 4, .rw, 0, .imm, 0, 0xFFFFFFFF⟩, ⟨4, 1, .rw, 0, .imm, 0, 0xFFFFFFFF⟩, ⟨5, 1, .ro, 0, .none, 0, 0xFFFFFFFF⟩]⟩,
  ⟨0x40, 1, 0x4, [⟨0, 1, .rw, 0, .imm, 0, 0xFFFFFFFF⟩, ⟨1, 2, .rw, 0, .imm, 0, 0xFFFFFFFF⟩, ⟨3, 4, .rw, 0, .imm, 0, 0xFFFFFFFF⟩]⟩,
  ⟨0x44, 1, 0x4, [⟨0, 8, .ro, 0, .none, 0, 0xFFFFFFFF⟩, ⟨8, 24, .ro, 0, .none, 0, 0xFFFFFFFF⟩]⟩,
  ⟨0x50, 1, 0x4, [⟨0, 1, .w1c, 0, .imm, 0, 0xFFFFFFFF⟩, ⟨1, 1, .w1c, 0, .imm, 0, 0xFFFFFFFF⟩, ⟨2, 1, .w1c, 0, .imm, 0, 0xFFFFFFFF⟩, ⟨3, 1, .w1c, 0, .imm, 0, 0xFFFFFFFF⟩, ⟨4, 1, .w1c, 0, .imm, 0, 0xFFFFFFFF⟩]⟩,
  ⟨0x54, 1, 0x4, [⟨0, 1, .ro, 0, .none, 0, 0xFFFFFFFF⟩, ⟨1, 2, .ro, 0, .none, 0, 0xFFFFFFFF⟩, ⟨3, 3, .ro, 0, .none, 0, 0xFFFFFFFF⟩]⟩,
  ⟨0x58, 1, 0x4, [⟨0, 32, .ro, 0, .none, 0, 0xFFFFFFFF⟩]⟩,
  ⟨0x5C, 1, 0x4, [⟨0, 14, .ro, 0, .none, 0, 0xFFFFFFFF⟩]⟩,
  ⟨0x60, 1, 0x4, [⟨0, 32, .ro, 0, .none, 0, 0xFFFFFFFF⟩]⟩,
  ⟨0x64, 1, 0x4, [⟨0, 32, .ro, 0, .none, 0, 0xFFFFFFFF⟩]⟩]

/-- The register rows of a block. -/
def rowsOf : Blk → List RegRow
  | .gen => rowsGen
  | .cfg => rowsCfg
  | .evq => rowsEvq
  | .clk => rowsClk
  | .pmu => rowsPmu
  | .phu => rowsPhu
  | .mop => rowsMop
  | .crc => rowsCrc
  | .sec => rowsSec
  | .cst => rowsCst
  | .pmp => rowsPmp
  | .dir => rowsDir
  | .pci => rowsPci
  | .can => rowsCan
  | .msr => rowsMsr
  | .slc => rowsSlc
  | .apt => rowsApt
  | .fed => rowsFed
  | .feda => rowsFeda
  | .mch => rowsMch

namespace R

def GEN_ID : Nat := 0x0
def GEN_SER_LO : Nat := 0x4
def GEN_SER_HI : Nat := 0x8
def GEN_STAT : Nat := 0x10
def GEN_RST : Nat := 0x20
def GEN_RST_ERR : Nat := 0x24
def GEN_SCRATCH : Nat := 0x30
def CFG_COMMIT : Nat := 0x10000
def CFG_CSLC : Nat := 0x10004
def CFG_COMMIT_STAT : Nat := 0x10008
def CFG_COMMIT_REF : Nat := 0x1000C
def CFG_EPOCH : Nat := 0x10010
def CFG_CTL : Nat := 0x10014
def CFG_ERR : Nat := 0x10018
def CFG_EPOCH_STAT (k : Nat) : Nat := 0x10020 + 0x4 * k
def CFG_IND_ADDR (k : Nat) : Nat := 0x10040 + 0x8 * k
def CFG_IND_DATA (k : Nat) : Nat := 0x10044 + 0x8 * k
def EVQ_POP : Nat := 0x20000
def EVQ_REC (k : Nat) : Nat := 0x20004 + 0x4 * k
def EVQ_STAT : Nat := 0x20020
def EVQ_CFG : Nat := 0x20024
def EVQ_FN : Nat := 0x20028
def EVQ_FN_T_LO : Nat := 0x2002C
def EVQ_FN_T_HI : Nat := 0x20030
def EVQ_IRQ_STAT : Nat := 0x20040
def EVQ_IRQ_AG : Nat := 0x20044
def EVQ_IRQ_HOST : Nat := 0x20048
def EVQ_IRQ_NET : Nat := 0x2004C
def CLK_CTL : Nat := 0x30000
def CLK_STAT : Nat := 0x30004
def CLK_SRC : Nat := 0x30008
def CLK_CFG : Nat := 0x3000C
def CLK_DVFS : Nat := 0x30010
def CLK_EN_SLC : Nat := 0x30020
def CLK_EN_DEV : Nat := 0x30024
def CLK_EN_SLC_EFF : Nat := 0x30028
def CLK_EN_DEV_EFF : Nat := 0x3002C
def CLK_TRIM : Nat := 0x30040
def CLK_TRIM_CAN : Nat := 0x30044
def CLK_TRIM_STAT : Nat := 0x30048
def CLK_ERR : Nat := 0x30050
def CLK_HOLD_T : Nat := 0x30054
def CLK_TBASE_LO : Nat := 0x30060
def CLK_TBASE_HI : Nat := 0x30064
def PMU_PD_CTL : Nat := 0x40000
def PMU_PD_STAT : Nat := 0x40004
def PMU_PD_BUSY : Nat := 0x40008
def PMU_PD_ERR : Nat := 0x4000C
def PMU_SAG_CFG : Nat := 0x40010
def PMU_MCU : Nat := 0x40020
def PHU_CTL : Nat := 0x50000
def PHU_STAT : Nat := 0x50004
def PHU_PHASE : Nat := 0x50008
def PHU_PERIOD : Nat := 0x5000C
def PHU_CFG : Nat := 0x50010
def PHU_PLIM : Nat := 0x50014
def PHU_CNT : Nat := 0x50018
def PHU_QW : Nat := 0x5001C
def PHU_ERR : Nat := 0x50020
def PHU_SLOT (k : Nat) : Nat := 0x50040 + 0x4 * k
def MOP_CTL : Nat := 0x60000
def MOP_STAT : Nat := 0x60004
def MOP_SEQ : Nat := 0x60008
def MOP_S_CMD (k : Nat) : Nat := 0x60100 + 0x40 * k
def MOP_S_ADDR_LO (k : Nat) : Nat := 0x60104 + 0x40 * k
def MOP_S_ADDR_HI (k : Nat) : Nat := 0x60108 + 0x40 * k
def MOP_S_COUNT_LO (k : Nat) : Nat := 0x6010C + 0x40 * k
def MOP_S_COUNT_HI (k : Nat) : Nat := 0x60110 + 0x40 * k
def MOP_S_SEL (k : Nat) : Nat := 0x60114 + 0x40 * k
def MOP_S_RES (k : Nat) : Nat := 0x60118 + 0x40 * k
def MOP_S_RES_DONE_LO (k : Nat) : Nat := 0x6011C + 0x40 * k
def MOP_S_RES_DONE_HI (k : Nat) : Nat := 0x60120 + 0x40 * k
def MOP_S_RES_FAIL (k : Nat) : Nat := 0x60124 + 0x40 * k
def MOP_S_RES_CORR (k : Nat) : Nat := 0x60128 + 0x40 * k
def MOP_S_RES_FADDR_LO (k : Nat) : Nat := 0x6012C + 0x40 * k
def MOP_S_RES_FADDR_HI (k : Nat) : Nat := 0x60130 + 0x40 * k
def MOP_S_PROG_LO (k : Nat) : Nat := 0x60134 + 0x40 * k
def MOP_S_PROG_HI (k : Nat) : Nat := 0x60138 + 0x40 * k
def CRC_U_CTL (k : Nat) : Nat := 0x70000 + 0x40 * k
def CRC_U_INIT_LO (k : Nat) : Nat := 0x70004 + 0x40 * k
def CRC_U_INIT_HI (k : Nat) : Nat := 0x70008 + 0x40 * k
def CRC_U_D8 (k : Nat) : Nat := 0x7000C + 0x40 * k
def CRC_U_D16 (k : Nat) : Nat := 0x70010 + 0x40 * k
def CRC_U_D32 (k : Nat) : Nat := 0x70014 + 0x40 * k
def CRC_U_RES (k : Nat) : Nat := 0x70018 + 0x40 * k
def CRC_U_VAL_LO (k : Nat) : Nat := 0x7001C + 0x40 * k
def CRC_U_VAL_HI (k : Nat) : Nat := 0x70020 + 0x40 * k
def CRC_U_CNT (k : Nat) : Nat := 0x70024 + 0x40 * k
def SEC_ID : Nat := 0x80000
def SEC_FUSE : Nat := 0x80004
def SEC_STAT : Nat := 0x80008
def SEC_RKH (k : Nat) : Nat := 0x80010 + 0x4 * k
def SEC_CHISO_DG (k : Nat) : Nat := 0x80040 + 0x4 * k
def SEC_ODDG (k : Nat) : Nat := 0x80060 + 0x4 * k
def SEC_CMD : Nat := 0x80100
def SEC_RES : Nat := 0x80104
def SEC_ADDR_LO : Nat := 0x80108
def SEC_ADDR_HI : Nat := 0x8010C
def SEC_LEN : Nat := 0x80110
def SEC_DG (k : Nat) : Nat := 0x80120 + 0x4 * k
def SEC_NONCE (k : Nat) : Nat := 0x80140 + 0x4 * k
def SEC_BUF (k : Nat) : Nat := 0x81000 + 0x4 * k
def CST_CTL : Nat := 0x90000
def CST_STAT : Nat := 0x90004
def CST_SPLIT : Nat := 0x90008
def CST_WL : Nat := 0x9000C
def CST_ERR : Nat := 0x90010
def CST_ERR_LINE : Nat := 0x90014
def CST_REPAIR : Nat := 0x90018
def CST_RIDX : Nat := 0x90020
def CST_RINFO : Nat := 0x90024
def CST_RGAP : Nat := 0x90028
def CST_RWEAR_LO : Nat := 0x9002C
def CST_RWEAR_HI : Nat := 0x90030
def CST_RMIDX : Nat := 0x90040
def CST_RMDAT : Nat := 0x90044
def CST_LOC : Nat := 0x90048
def PMP_PDQ : Nat := 0xA0000
def PMP_CLEAN : Nat := 0xA0004
def PMP_OWNQ : Nat := 0xA0008
def PMP_PDQ_LVL : Nat := 0xA0010
def PMP_PDQ_FN : Nat := 0xA0014
def PMP_PDQ_FN_T_LO : Nat := 0xA0018
def PMP_PDQ_FN_T_HI : Nat := 0xA001C
def PMP_OWN_LVL : Nat := 0xA0020
def PMP_OWN_FN : Nat := 0xA0024
def PMP_OWN_FN_T_LO : Nat := 0xA0028
def PMP_OWN_FN_T_HI : Nat := 0xA002C
def PMP_CKPT : Nat := 0xA0040
def PMP_CKPT_RES : Nat := 0xA0044
def PMP_CKPT_T_LO : Nat := 0xA0048
def PMP_CKPT_T_HI : Nat := 0xA004C
def WGV_RATE : Nat := 0xA0100
def WGV_LOW : Nat := 0xA0104
def WGV_LVL_LO : Nat := 0xA0108
def WGV_LVL_HI : Nat := 0xA010C
def WGV_STAT : Nat := 0xA0110
def WGV_FN : Nat := 0xA0114
def WGV_FN_T_LO : Nat := 0xA0118
def WGV_FN_T_HI : Nat := 0xA011C
def WGV_TOT_LO : Nat := 0xA0120
def WGV_TOT_HI : Nat := 0xA0124
def WGV_DRN_LO : Nat := 0xA0128
def WGV_DRN_HI : Nat := 0xA012C
def WGV_DLY : Nat := 0xA0130
def PMP_DRN_STAT : Nat := 0xA0200
def PMP_RST_STAT : Nat := 0xA0204
def PMP_RST_POIS : Nat := 0xA0208
def PMP_DRN_LAST : Nat := 0xA020C
def PMP_DRN_ENT : Nat := 0xA0210
def PMP_DRN_CTL : Nat := 0xA0220
def PMP_PRIME_LIM : Nat := 0xA0224
def PMP_PRIME_STAT : Nat := 0xA0228
def DIR_DRNG (k : Nat) : Nat := 0xB0010 + 0x4 * k
def DIR_ILV : Nat := 0xB0020
def DIR_ILV_CFG : Nat := 0xB0024
def DIR_BOOT : Nat := 0xB0028
def DIR_PRESENT : Nat := 0xB002C
def DIR_COMMIT_STAT : Nat := 0xB0030
def DIR_ERR_INFO : Nat := 0xB0040
def DIR_ERR_ADDR_LO : Nat := 0xB0044
def DIR_ERR_ADDR_HI : Nat := 0xB0048
def DIR_HT (k : Nat) : Nat := 0xB0400 + 0x4 * k
def DIR_HT_EFF (k : Nat) : Nat := 0xB0800 + 0x4 * k
def PCI_CTL : Nat := 0xC0000
def PCI_STAT : Nat := 0xC0004
def PCI_ERR : Nat := 0xC0008
def PCI_IRQ_EN : Nat := 0xC000C
def PCI_QLVL : Nat := 0xC0010
def PCI_ID : Nat := 0xC0014
def PCI_DMA_CTL (k : Nat) : Nat := 0xC0100 + 0x40 * k
def PCI_DMA_STAT (k : Nat) : Nat := 0xC0104 + 0x40 * k
def PCI_DMA_RING_LO (k : Nat) : Nat := 0xC0108 + 0x40 * k
def PCI_DMA_RING_HI (k : Nat) : Nat := 0xC010C + 0x40 * k
def PCI_DMA_RING_SZ (k : Nat) : Nat := 0xC0110 + 0x40 * k
def PCI_DMA_HEAD (k : Nat) : Nat := 0xC0114 + 0x40 * k
def PCI_DMA_TAIL (k : Nat) : Nat := 0xC0118 + 0x40 * k
def PCI_DMA_DONE (k : Nat) : Nat := 0xC011C + 0x40 * k
def PCI_MBX_CMD : Nat := 0xC0400
def PCI_MBX_LEN : Nat := 0xC0404
def PCI_MBX_OFF : Nat := 0xC0408
def PCI_MBX_CTL : Nat := 0xC040C
def PCI_MBX_RES : Nat := 0xC0410
def PCI_MBX_RLEN : Nat := 0xC0414
def PCI_MBX_ABORT : Nat := 0xC0418
def PCI_MBX_DATA (k : Nat) : Nat := 0xC0440 + 0x4 * k
def CAN_CTL : Nat := 0xD0000
def CAN_NODE : Nat := 0xD0004
def CAN_RATE : Nat := 0xD0008
def CAN_WH : Nat := 0xD000C
def CAN_STAT : Nat := 0xD0010
def CAN_ERR : Nat := 0xD0014
def CAN_MBX_CMD : Nat := 0xD0400
def CAN_MBX_LEN : Nat := 0xD0404
def CAN_MBX_OFF : Nat := 0xD0408
def CAN_MBX_CTL : Nat := 0xD040C
def CAN_MBX_RES : Nat := 0xD0410
def CAN_MBX_RLEN : Nat := 0xD0414
def CAN_MBX_ABORT : Nat := 0xD0418
def CAN_MBX_DATA (k : Nat) : Nat := 0xD0440 + 0x4 * k
def MSR_CTL : Nat := 0xE0000
def MSR_EVSEL (k : Nat) : Nat := 0xE0010 + 0x4 * k
def MSR_CIDX : Nat := 0xE0040
def MSR_CNT_LO : Nat := 0xE0044
def MSR_CNT_HI : Nat := 0xE0048
def MSR_HCFG : Nat := 0xE0050
def MSR_HIDX : Nat := 0xE0054
def MSR_HDAT : Nat := 0xE0058
def MSR_TEMP (k : Nat) : Nat := 0xE0080 + 0x4 * k
def MSR_RAIL (k : Nat) : Nat := 0xE00A0 + 0x4 * k
def MSR_WMAX_LO : Nat := 0xE00C0
def MSR_WMAX_HI : Nat := 0xE00C4
def MSR_WMIN_LO : Nat := 0xE00C8
def MSR_WMIN_HI : Nat := 0xE00CC
def MSR_SNAP_T_LO : Nat := 0xE00E0
def MSR_SNAP_T_HI : Nat := 0xE00E4
def MSR_SNAP_PH : Nat := 0xE00E8
def MSR_SNAP_SEQ : Nat := 0xE00EC
def SLC_CTL (n : Nat) : Nat := 0x100000 + 0x10000 * n
def SLC_STAT (n : Nat) : Nat := 0x100004 + 0x10000 * n
def SLC_OCC (n : Nat) : Nat := 0x100008 + 0x10000 * n
def SLC_ERR (n : Nat) : Nat := 0x100010 + 0x10000 * n
def SLC_AMASK (n k : Nat) : Nat := 0x100020 + 0x10000 * n + 0x4 * k
def SLC_ASRC0 (n : Nat) : Nat := 0x100040 + 0x10000 * n
def SLC_ASRC1 (n : Nat) : Nat := 0x100044 + 0x10000 * n
def SLC_CRIT (n : Nat) : Nat := 0x100048 + 0x10000 * n
def SLC_LOCKW (n : Nat) : Nat := 0x10004C + 0x10000 * n
def SLC_MSHR (n : Nat) : Nat := 0x100050 + 0x10000 * n
def SLC_MSHR_FN (n : Nat) : Nat := 0x100054 + 0x10000 * n
def SLC_MSHR_FN_T_LO (n : Nat) : Nat := 0x100058 + 0x10000 * n
def SLC_MSHR_FN_T_HI (n : Nat) : Nat := 0x10005C + 0x10000 * n
def SLC_EVB (n : Nat) : Nat := 0x100060 + 0x10000 * n
def SLC_EVB_FN (n : Nat) : Nat := 0x100064 + 0x10000 * n
def SLC_EVB_FN_T_LO (n : Nat) : Nat := 0x100068 + 0x10000 * n
def SLC_EVB_FN_T_HI (n : Nat) : Nat := 0x10006C + 0x10000 * n
def SLC_DBG_IDX (n : Nat) : Nat := 0x100080 + 0x10000 * n
def SLC_DBG_TAG_LO (n : Nat) : Nat := 0x100084 + 0x10000 * n
def SLC_DBG_TAG_HI (n : Nat) : Nat := 0x100088 + 0x10000 * n
def SLC_DBG_LRU (n k : Nat) : Nat := 0x100090 + 0x10000 * n + 0x4 * k
def SLC_RMAP (n k : Nat) : Nat := 0x1000C0 + 0x10000 * n + 0x4 * k
def SLC_REPAIR (n : Nat) : Nat := 0x1000E0 + 0x10000 * n
def SLC_SBE_LOC (n : Nat) : Nat := 0x1000E4 + 0x10000 * n
def SLC_EVAC (n k : Nat) : Nat := 0x100100 + 0x10000 * n + 0x4 * k
def SLC_EVAC_STAT (n : Nat) : Nat := 0x100120 + 0x10000 * n
def APT_CTL (n : Nat) : Nat := 0x300000 + 0x10000 * n
def APT_STAT (n : Nat) : Nat := 0x300004 + 0x10000 * n
def APT_TMR (n : Nat) : Nat := 0x300008 + 0x10000 * n
def APT_CRD (n : Nat) : Nat := 0x30000C + 0x10000 * n
def APT_CRD_AGENT (n : Nat) : Nat := 0x300010 + 0x10000 * n
def APT_CAPS (n : Nat) : Nat := 0x300014 + 0x10000 * n
def APT_ID_LO (n : Nat) : Nat := 0x300018 + 0x10000 * n
def APT_ID_HI (n : Nat) : Nat := 0x30001C + 0x10000 * n
def APT_ERR (n : Nat) : Nat := 0x300020 + 0x10000 * n
def APT_ERR_HDR (n k : Nat) : Nat := 0x300024 + 0x10000 * n + 0x4 * k
def APT_CNT_CRC (n : Nat) : Nat := 0x300034 + 0x10000 * n
def APT_CNT_REPLAY (n : Nat) : Nat := 0x300038 + 0x10000 * n
def APT_LANE (n : Nat) : Nat := 0x30003C + 0x10000 * n
def APT_IWB (n : Nat) : Nat := 0x300040 + 0x10000 * n
def APT_IWB_FN (n : Nat) : Nat := 0x300044 + 0x10000 * n
def APT_IWB_FN_T_LO (n : Nat) : Nat := 0x300048 + 0x10000 * n
def APT_IWB_FN_T_HI (n : Nat) : Nat := 0x30004C + 0x10000 * n
def FED_LCTL (n : Nat) : Nat := 0x380000 + 0x10000 * n
def FED_LSTAT (n : Nat) : Nat := 0x380004 + 0x10000 * n
def FED_LTMR (n : Nat) : Nat := 0x380008 + 0x10000 * n
def FED_LERR (n : Nat) : Nat := 0x38000C + 0x10000 * n
def FED_PSER_LO (n : Nat) : Nat := 0x380010 + 0x10000 * n
def FED_PSER_HI (n : Nat) : Nat := 0x380014 + 0x10000 * n
def FED_PDG (n k : Nat) : Nat := 0x380020 + 0x10000 * n + 0x4 * k
def FED_CNT_CRC (n : Nat) : Nat := 0x380040 + 0x10000 * n
def FED_CNT_REPLAY (n : Nat) : Nat := 0x380044 + 0x10000 * n
def FED_CNT_STALE (n : Nat) : Nat := 0x380048 + 0x10000 * n
def FED_CFG : Nat := 0x381000
def FED_WAIT : Nat := 0x381004
def FED_GCTL : Nat := 0x381008
def FED_STAT : Nat := 0x38100C
def FED_SSTAT : Nat := 0x381010
def FED_TREL : Nat := 0x381014
def FED_ARST : Nat := 0x381018
def FED_DIGEST (k : Nat) : Nat := 0x381020 + 0x4 * k
def MCH_CTL (n : Nat) : Nat := 0x400000 + 0x40000 * n
def MCH_CFG (n : Nat) : Nat := 0x400004 + 0x40000 * n
def MCH_ILV (n : Nat) : Nat := 0x400008 + 0x40000 * n
def MCH_STAT (n : Nat) : Nat := 0x40000C + 0x40000 * n
def MCH_MARK_CFG (n : Nat) : Nat := 0x400010 + 0x40000 * n
def MCH_MARK (n k : Nat) : Nat := 0x400020 + 0x40000 * n + 0x4 * k
def MCH_CIDX (n : Nat) : Nat := 0x400040 + 0x40000 * n
def MCH_CDAT (n : Nat) : Nat := 0x400044 + 0x40000 * n
def MCH_ERR (n : Nat) : Nat := 0x400050 + 0x40000 * n
def MCH_UE_INFO (n : Nat) : Nat := 0x400054 + 0x40000 * n
def MCH_UE_ADDR_LO (n : Nat) : Nat := 0x400058 + 0x40000 * n
def MCH_UE_ADDR_HI (n : Nat) : Nat := 0x40005C + 0x40000 * n
def MCH_CE_CNT (n : Nat) : Nat := 0x400060 + 0x40000 * n
def MCH_UE_CNT (n : Nat) : Nat := 0x400064 + 0x40000 * n

end R

namespace F

def GEN_ID_PART : Fld := ⟨R.GEN_ID, 0, 16⟩
def GEN_ID_MINOR : Fld := ⟨R.GEN_ID, 16, 4⟩
def GEN_ID_MAJOR : Fld := ⟨R.GEN_ID, 20, 4⟩
def GEN_SER_LO_SERIAL : Fld := ⟨R.GEN_SER_LO, 0, 32⟩
def GEN_SER_HI_SERIAL : Fld := ⟨R.GEN_SER_HI, 0, 32⟩
def GEN_STAT_FATAL : Fld := ⟨R.GEN_STAT, 0, 1⟩
def GEN_STAT_START : Fld := ⟨R.GEN_STAT, 2, 2⟩
def GEN_STAT_RELEASED : Fld := ⟨R.GEN_STAT, 4, 1⟩
def GEN_STAT_DRAIN : Fld := ⟨R.GEN_STAT, 5, 1⟩
def GEN_STAT_CHOLD : Fld := ⟨R.GEN_STAT, 6, 1⟩
def GEN_STAT_SUSPECT : Fld := ⟨R.GEN_STAT, 7, 1⟩
def GEN_STAT_ROM : Fld := ⟨R.GEN_STAT, 8, 1⟩
def GEN_RST_CMD : Fld := ⟨R.GEN_RST, 0, 16⟩
def GEN_RST_KEY : Fld := ⟨R.GEN_RST, 16, 16⟩
def GEN_RST_ERR_IGN : Fld := ⟨R.GEN_RST_ERR, 0, 1⟩
def GEN_SCRATCH_DATA : Fld := ⟨R.GEN_SCRATCH, 0, 32⟩
def CFG_COMMIT_CLK : Fld := ⟨R.CFG_COMMIT, 0, 1⟩
def CFG_COMMIT_PMU : Fld := ⟨R.CFG_COMMIT, 1, 1⟩
def CFG_COMMIT_PHU : Fld := ⟨R.CFG_COMMIT, 2, 1⟩
def CFG_COMMIT_CST : Fld := ⟨R.CFG_COMMIT, 3, 1⟩
def CFG_COMMIT_PMP : Fld := ⟨R.CFG_COMMIT, 4, 1⟩
def CFG_COMMIT_DIR : Fld := ⟨R.CFG_COMMIT, 5, 1⟩
def CFG_COMMIT_PCI : Fld := ⟨R.CFG_COMMIT, 6, 1⟩
def CFG_COMMIT_CAN : Fld := ⟨R.CFG_COMMIT, 7, 1⟩
def CFG_COMMIT_MSR : Fld := ⟨R.CFG_COMMIT, 8, 1⟩
def CFG_COMMIT_SEC : Fld := ⟨R.CFG_COMMIT, 9, 1⟩
def CFG_COMMIT_EVQ : Fld := ⟨R.CFG_COMMIT, 10, 1⟩
def CFG_COMMIT_APT : Fld := ⟨R.CFG_COMMIT, 12, 6⟩
def CFG_COMMIT_FED : Fld := ⟨R.CFG_COMMIT, 20, 3⟩
def CFG_COMMIT_MCH : Fld := ⟨R.CFG_COMMIT, 24, 4⟩
def CFG_COMMIT_SLC : Fld := ⟨R.CFG_COMMIT, 31, 1⟩
def CFG_CSLC_SLICES : Fld := ⟨R.CFG_CSLC, 0, 32⟩
def CFG_COMMIT_STAT_BUSY : Fld := ⟨R.CFG_COMMIT_STAT, 0, 1⟩
def CFG_COMMIT_STAT_PHASE : Fld := ⟨R.CFG_COMMIT_STAT, 1, 2⟩
def CFG_COMMIT_STAT_COLL : Fld := ⟨R.CFG_COMMIT_STAT, 3, 1⟩
def CFG_COMMIT_STAT_ABORT : Fld := ⟨R.CFG_COMMIT_STAT, 4, 1⟩
def CFG_COMMIT_STAT_ACAUSE : Fld := ⟨R.CFG_COMMIT_STAT, 5, 3⟩
def CFG_COMMIT_STAT_SEQ : Fld := ⟨R.CFG_COMMIT_STAT, 16, 16⟩
def CFG_COMMIT_REF_CLK : Fld := ⟨R.CFG_COMMIT_REF, 0, 1⟩
def CFG_COMMIT_REF_PMU : Fld := ⟨R.CFG_COMMIT_REF, 1, 1⟩
def CFG_COMMIT_REF_PHU : Fld := ⟨R.CFG_COMMIT_REF, 2, 1⟩
def CFG_COMMIT_REF_CST : Fld := ⟨R.CFG_COMMIT_REF, 3, 1⟩
def CFG_COMMIT_REF_PMP : Fld := ⟨R.CFG_COMMIT_REF, 4, 1⟩
def CFG_COMMIT_REF_DIR : Fld := ⟨R.CFG_COMMIT_REF, 5, 1⟩
def CFG_COMMIT_REF_PCI : Fld := ⟨R.CFG_COMMIT_REF, 6, 1⟩
def CFG_COMMIT_REF_CAN : Fld := ⟨R.CFG_COMMIT_REF, 7, 1⟩
def CFG_COMMIT_REF_MSR : Fld := ⟨R.CFG_COMMIT_REF, 8, 1⟩
def CFG_COMMIT_REF_SEC : Fld := ⟨R.CFG_COMMIT_REF, 9, 1⟩
def CFG_COMMIT_REF_EVQ : Fld := ⟨R.CFG_COMMIT_REF, 10, 1⟩
def CFG_COMMIT_REF_APT : Fld := ⟨R.CFG_COMMIT_REF, 12, 6⟩
def CFG_COMMIT_REF_FED : Fld := ⟨R.CFG_COMMIT_REF, 20, 3⟩
def CFG_COMMIT_REF_MCH : Fld := ⟨R.CFG_COMMIT_REF, 24, 4⟩
def CFG_COMMIT_REF_SLC : Fld := ⟨R.CFG_COMMIT_REF, 31, 1⟩
def CFG_EPOCH_EPOCH : Fld := ⟨R.CFG_EPOCH, 0, 8⟩
def CFG_CTL_PHOLD : Fld := ⟨R.CFG_CTL, 0, 1⟩
def CFG_ERR_CSR_TO : Fld := ⟨R.CFG_ERR, 0, 1⟩
def CFG_ERR_DEV : Fld := ⟨R.CFG_ERR, 2, 2⟩
def CFG_ERR_MASTER : Fld := ⟨R.CFG_ERR, 4, 4⟩
def CFG_ERR_OFF : Fld := ⟨R.CFG_ERR, 8, 24⟩
def CFG_EPOCH_STAT_EP0 (k : Nat) : Fld := ⟨R.CFG_EPOCH_STAT k, 0, 8⟩
def CFG_EPOCH_STAT_EP1 (k : Nat) : Fld := ⟨R.CFG_EPOCH_STAT k, 8, 8⟩
def CFG_EPOCH_STAT_EP2 (k : Nat) : Fld := ⟨R.CFG_EPOCH_STAT k, 16, 8⟩
def CFG_EPOCH_STAT_EP3 (k : Nat) : Fld := ⟨R.CFG_EPOCH_STAT k, 24, 8⟩
def CFG_IND_ADDR_OFF (k : Nat) : Fld := ⟨R.CFG_IND_ADDR k, 2, 22⟩
def CFG_IND_ADDR_DEV (k : Nat) : Fld := ⟨R.CFG_IND_ADDR k, 24, 2⟩
def CFG_IND_ADDR_INC (k : Nat) : Fld := ⟨R.CFG_IND_ADDR k, 28, 1⟩
def CFG_IND_DATA_DATA (k : Nat) : Fld := ⟨R.CFG_IND_DATA k, 0, 32⟩
def EVQ_POP_WORD0 : Fld := ⟨R.EVQ_POP, 0, 32⟩
def EVQ_REC_WORD (k : Nat) : Fld := ⟨R.EVQ_REC k, 0, 32⟩
def EVQ_STAT_LEVEL : Fld := ⟨R.EVQ_STAT, 0, 11⟩
def EVQ_STAT_LOST : Fld := ⟨R.EVQ_STAT, 16, 16⟩
def EVQ_CFG_STALL : Fld := ⟨R.EVQ_CFG, 0, 8⟩
def EVQ_FN_THRESH : Fld := ⟨R.EVQ_FN, 0, 11⟩
def EVQ_FN_LATCHED : Fld := ⟨R.EVQ_FN, 11, 1⟩
def EVQ_FN_PEAK : Fld := ⟨R.EVQ_FN, 16, 11⟩
def EVQ_FN_T_LO_TBASE : Fld := ⟨R.EVQ_FN_T_LO, 0, 32⟩
def EVQ_FN_T_HI_TBASE : Fld := ⟨R.EVQ_FN_T_HI, 0, 32⟩
def EVQ_IRQ_STAT_SRC : Fld := ⟨R.EVQ_IRQ_STAT, 0, 16⟩
def EVQ_IRQ_AG_EN : Fld := ⟨R.EVQ_IRQ_AG, 0, 16⟩
def EVQ_IRQ_AG_PORTS : Fld := ⟨R.EVQ_IRQ_AG, 16, 6⟩
def EVQ_IRQ_HOST_EN : Fld := ⟨R.EVQ_IRQ_HOST, 0, 16⟩
def EVQ_IRQ_NET_EN : Fld := ⟨R.EVQ_IRQ_NET, 0, 16⟩
def CLK_CTL_SVC : Fld := ⟨R.CLK_CTL, 0, 1⟩
def CLK_STAT_CST : Fld := ⟨R.CLK_STAT, 0, 3⟩
def CLK_STAT_MSRC : Fld := ⟨R.CLK_STAT, 3, 2⟩
def CLK_STAT_RREF : Fld := ⟨R.CLK_STAT, 5, 1⟩
def CLK_STAT_TRO_RDY : Fld := ⟨R.CLK_STAT, 6, 1⟩
def CLK_STAT_XTAL_RDY : Fld := ⟨R.CLK_STAT, 7, 1⟩
def CLK_STAT_ROOT_LK : Fld := ⟨R.CLK_STAT, 8, 1⟩
def CLK_STAT_SPLL_LK : Fld := ⟨R.CLK_STAT, 9, 1⟩
def CLK_STAT_TRIMMED : Fld := ⟨R.CLK_STAT, 10, 1⟩
def CLK_STAT_TBSRC : Fld := ⟨R.CLK_STAT, 11, 2⟩
def CLK_STAT_RAMP : Fld := ⟨R.CLK_STAT, 13, 1⟩
def CLK_STAT_OP : Fld := ⟨R.CLK_STAT, 14, 3⟩
def CLK_STAT_DVFS_BUSY : Fld := ⟨R.CLK_STAT, 17, 1⟩
def CLK_STAT_PEND : Fld := ⟨R.CLK_STAT, 18, 1⟩
def CLK_STAT_THERM : Fld := ⟨R.CLK_STAT, 19, 1⟩
def CLK_SRC_RREF : Fld := ⟨R.CLK_SRC, 0, 1⟩
def CLK_CFG_XTO : Fld := ⟨R.CLK_CFG, 0, 8⟩
def CLK_CFG_DWELL : Fld := ⟨R.CLK_CFG, 8, 8⟩
def CLK_CFG_COMPAT : Fld := ⟨R.CLK_CFG, 16, 1⟩
def CLK_CFG_XTAL_EN : Fld := ⟨R.CLK_CFG, 17, 1⟩
def CLK_DVFS_TARGET : Fld := ⟨R.CLK_DVFS, 0, 3⟩
def CLK_DVFS_TLIM : Fld := ⟨R.CLK_DVFS, 8, 8⟩
def CLK_DVFS_THYS : Fld := ⟨R.CLK_DVFS, 16, 4⟩
def CLK_EN_SLC_SLC : Fld := ⟨R.CLK_EN_SLC, 0, 32⟩
def CLK_EN_DEV_APT : Fld := ⟨R.CLK_EN_DEV, 0, 6⟩
def CLK_EN_DEV_MCH : Fld := ⟨R.CLK_EN_DEV, 6, 4⟩
def CLK_EN_DEV_CSTA : Fld := ⟨R.CLK_EN_DEV, 10, 1⟩
def CLK_EN_DEV_CSTB : Fld := ⟨R.CLK_EN_DEV, 11, 1⟩
def CLK_EN_DEV_VL : Fld := ⟨R.CLK_EN_DEV, 12, 3⟩
def CLK_EN_DEV_PCIE : Fld := ⟨R.CLK_EN_DEV, 15, 1⟩
def CLK_EN_DEV_CAN : Fld := ⟨R.CLK_EN_DEV, 16, 1⟩
def CLK_EN_DEV_CRYPTO : Fld := ⟨R.CLK_EN_DEV, 17, 1⟩
def CLK_EN_SLC_EFF_SLC : Fld := ⟨R.CLK_EN_SLC_EFF, 0, 32⟩
def CLK_EN_DEV_EFF_APT : Fld := ⟨R.CLK_EN_DEV_EFF, 0, 6⟩
def CLK_EN_DEV_EFF_MCH : Fld := ⟨R.CLK_EN_DEV_EFF, 6, 4⟩
def CLK_EN_DEV_EFF_CSTA : Fld := ⟨R.CLK_EN_DEV_EFF, 10, 1⟩
def CLK_EN_DEV_EFF_CSTB : Fld := ⟨R.CLK_EN_DEV_EFF, 11, 1⟩
def CLK_EN_DEV_EFF_VL : Fld := ⟨R.CLK_EN_DEV_EFF, 12, 3⟩
def CLK_EN_DEV_EFF_PCIE : Fld := ⟨R.CLK_EN_DEV_EFF, 15, 1⟩
def CLK_EN_DEV_EFF_CAN : Fld := ⟨R.CLK_EN_DEV_EFF, 16, 1⟩
def CLK_EN_DEV_EFF_CRYPTO : Fld := ⟨R.CLK_EN_DEV_EFF, 17, 1⟩
def CLK_TRIM_CODE : Fld := ⟨R.CLK_TRIM, 0, 12⟩
def CLK_TRIM_SRC : Fld := ⟨R.CLK_TRIM, 12, 2⟩
def CLK_TRIM_GO : Fld := ⟨R.CLK_TRIM, 14, 1⟩
def CLK_TRIM_AUTO : Fld := ⟨R.CLK_TRIM, 15, 1⟩
def CLK_TRIM_INT : Fld := ⟨R.CLK_TRIM, 16, 8⟩
def CLK_TRIM_CAN_BIT : Fld := ⟨R.CLK_TRIM_CAN, 0, 16⟩
def CLK_TRIM_STAT_BUSY : Fld := ⟨R.CLK_TRIM_STAT, 0, 1⟩
def CLK_TRIM_STAT_DONE : Fld := ⟨R.CLK_TRIM_STAT, 1, 1⟩
def CLK_TRIM_STAT_FAIL : Fld := ⟨R.CLK_TRIM_STAT, 2, 1⟩
def CLK_TRIM_STAT_ERR : Fld := ⟨R.CLK_TRIM_STAT, 16, 16⟩
def CLK_ERR_XMON : Fld := ⟨R.CLK_ERR, 0, 1⟩
def CLK_ERR_TMON : Fld := ⟨R.CLK_ERR, 1, 1⟩
def CLK_ERR_RMON : Fld := ⟨R.CLK_ERR, 2, 1⟩
def CLK_ERR_HOLD : Fld := ⟨R.CLK_ERR, 3, 1⟩
def CLK_ERR_XNS : Fld := ⟨R.CLK_ERR, 4, 1⟩
def CLK_ERR_SWREF : Fld := ⟨R.CLK_ERR, 5, 1⟩
def CLK_ERR_ENREF : Fld := ⟨R.CLK_ERR, 6, 1⟩
def CLK_ERR_VTO : Fld := ⟨R.CLK_ERR, 7, 1⟩
def CLK_HOLD_T_LAST : Fld := ⟨R.CLK_HOLD_T, 0, 16⟩
def CLK_HOLD_T_COUNT : Fld := ⟨R.CLK_HOLD_T, 16, 16⟩
def CLK_TBASE_LO_TBASE : Fld := ⟨R.CLK_TBASE_LO, 0, 32⟩
def CLK_TBASE_HI_TBASE : Fld := ⟨R.CLK_TBASE_HI, 0, 32⟩
def PMU_PD_CTL_ON : Fld := ⟨R.PMU_PD_CTL, 0, 30⟩
def PMU_PD_STAT_ON : Fld := ⟨R.PMU_PD_STAT, 0, 30⟩
def PMU_PD_BUSY_BUSY : Fld := ⟨R.PMU_PD_BUSY, 0, 30⟩
def PMU_PD_ERR_REFUSED : Fld := ⟨R.PMU_PD_ERR, 0, 1⟩
def PMU_PD_ERR_CAUSE : Fld := ⟨R.PMU_PD_ERR, 1, 3⟩
def PMU_PD_ERR_PD : Fld := ⟨R.PMU_PD_ERR, 8, 5⟩
def PMU_SAG_CFG_WARN : Fld := ⟨R.PMU_SAG_CFG, 0, 8⟩
def PMU_SAG_CFG_RESET : Fld := ⟨R.PMU_SAG_CFG, 8, 8⟩
def PMU_SAG_CFG_REFUSED : Fld := ⟨R.PMU_SAG_CFG, 16, 1⟩
def PMU_MCU_RST : Fld := ⟨R.PMU_MCU, 0, 1⟩
def PMU_MCU_STATE : Fld := ⟨R.PMU_MCU, 1, 3⟩
def PMU_MCU_FALLBK : Fld := ⟨R.PMU_MCU, 4, 1⟩
def PMU_MCU_COUNT : Fld := ⟨R.PMU_MCU, 16, 16⟩
def PHU_CTL_EN : Fld := ⟨R.PHU_CTL, 0, 1⟩
def PHU_CTL_MODE : Fld := ⟨R.PHU_CTL, 1, 2⟩
def PHU_CTL_POL : Fld := ⟨R.PHU_CTL, 3, 1⟩
def PHU_CTL_ZEN : Fld := ⟨R.PHU_CTL, 4, 1⟩
def PHU_STAT_STATE : Fld := ⟨R.PHU_STAT, 0, 3⟩
def PHU_STAT_QW : Fld := ⟨R.PHU_STAT, 3, 1⟩
def PHU_STAT_REV : Fld := ⟨R.PHU_STAT, 4, 1⟩
def PHU_STAT_MISS : Fld := ⟨R.PHU_STAT, 5, 2⟩
def PHU_STAT_FALLBACK : Fld := ⟨R.PHU_STAT, 7, 1⟩
def PHU_PHASE_PHASE : Fld := ⟨R.PHU_PHASE, 0, 32⟩
def PHU_PERIOD_PERIOD : Fld := ⟨R.PHU_PERIOD, 0, 32⟩
def PHU_CFG_TOL : Fld := ⟨R.PHU_CFG, 0, 4⟩
def PHU_CFG_LOCK_N : Fld := ⟨R.PHU_CFG, 4, 4⟩
def PHU_CFG_COAST_N : Fld := ⟨R.PHU_CFG, 8, 8⟩
def PHU_CFG_FILT : Fld := ⟨R.PHU_CFG, 16, 4⟩
def PHU_PLIM_PMIN : Fld := ⟨R.PHU_PLIM, 0, 16⟩
def PHU_PLIM_PMAX : Fld := ⟨R.PHU_PLIM, 16, 16⟩
def PHU_CNT_CPR_M1 : Fld := ⟨R.PHU_CNT, 0, 16⟩
def PHU_CNT_LPC : Fld := ⟨R.PHU_CNT, 16, 12⟩
def PHU_QW_MAX : Fld := ⟨R.PHU_QW, 0, 16⟩
def PHU_ERR_EARLY : Fld := ⟨R.PHU_ERR, 0, 1⟩
def PHU_ERR_MISS : Fld := ⟨R.PHU_ERR, 1, 1⟩
def PHU_ERR_COAST : Fld := ⟨R.PHU_ERR, 2, 1⟩
def PHU_ERR_LOST : Fld := ⟨R.PHU_ERR, 3, 1⟩
def PHU_ERR_ZMIS : Fld := ⟨R.PHU_ERR, 4, 1⟩
def PHU_ERR_QILL : Fld := ⟨R.PHU_ERR, 5, 1⟩
def PHU_ERR_QW_OVR : Fld := ⟨R.PHU_ERR, 6, 1⟩
def PHU_SLOT_POS (k : Nat) : Fld := ⟨R.PHU_SLOT k, 0, 16⟩
def PHU_SLOT_ACT (k : Nat) : Fld := ⟨R.PHU_SLOT k, 16, 3⟩
def PHU_SLOT_DIV (k : Nat) : Fld := ⟨R.PHU_SLOT k, 20, 4⟩
def PHU_SLOT_EN (k : Nat) : Fld := ⟨R.PHU_SLOT k, 24, 1⟩
def MOP_CTL_SWEEP_GAP : Fld := ⟨R.MOP_CTL, 0, 16⟩
def MOP_CTL_EVT : Fld := ⟨R.MOP_CTL, 16, 1⟩
def MOP_STAT_BUSY : Fld := ⟨R.MOP_STAT, 0, 4⟩
def MOP_STAT_VALID : Fld := ⟨R.MOP_STAT, 4, 4⟩
def MOP_STAT_COLL : Fld := ⟨R.MOP_STAT, 8, 1⟩
def MOP_SEQ_NEXT : Fld := ⟨R.MOP_SEQ, 0, 16⟩
def MOP_S_CMD_OP (k : Nat) : Fld := ⟨R.MOP_S_CMD k, 0, 4⟩
def MOP_S_CMD_SCOPE (k : Nat) : Fld := ⟨R.MOP_S_CMD k, 4, 3⟩
def MOP_S_CMD_PRIO (k : Nat) : Fld := ⟨R.MOP_S_CMD k, 7, 1⟩
def MOP_S_CMD_START (k : Nat) : Fld := ⟨R.MOP_S_CMD k, 8, 1⟩
def MOP_S_CMD_ABORT (k : Nat) : Fld := ⟨R.MOP_S_CMD k, 9, 1⟩
def MOP_S_CMD_REL (k : Nat) : Fld := ⟨R.MOP_S_CMD k, 10, 1⟩
def MOP_S_CMD_SEQ (k : Nat) : Fld := ⟨R.MOP_S_CMD k, 16, 16⟩
def MOP_S_ADDR_LO_ADDR (k : Nat) : Fld := ⟨R.MOP_S_ADDR_LO k, 6, 26⟩
def MOP_S_ADDR_HI_ADDR (k : Nat) : Fld := ⟨R.MOP_S_ADDR_HI k, 0, 14⟩
def MOP_S_COUNT_LO_COUNT (k : Nat) : Fld := ⟨R.MOP_S_COUNT_LO k, 0, 32⟩
def MOP_S_COUNT_HI_COUNT (k : Nat) : Fld := ⟨R.MOP_S_COUNT_HI k, 0, 8⟩
def MOP_S_SEL_SLICE (k : Nat) : Fld := ⟨R.MOP_S_SEL k, 0, 5⟩
def MOP_S_SEL_SET (k : Nat) : Fld := ⟨R.MOP_S_SEL k, 8, 11⟩
def MOP_S_SEL_WAY (k : Nat) : Fld := ⟨R.MOP_S_SEL k, 20, 4⟩
def MOP_S_RES_VALID (k : Nat) : Fld := ⟨R.MOP_S_RES k, 0, 1⟩
def MOP_S_RES_BUSY (k : Nat) : Fld := ⟨R.MOP_S_RES k, 1, 1⟩
def MOP_S_RES_STATUS (k : Nat) : Fld := ⟨R.MOP_S_RES k, 4, 2⟩
def MOP_S_RES_CAUSE (k : Nat) : Fld := ⟨R.MOP_S_RES k, 8, 4⟩
def MOP_S_RES_SEQ (k : Nat) : Fld := ⟨R.MOP_S_RES k, 16, 16⟩
def MOP_S_RES_DONE_LO_DONE (k : Nat) : Fld := ⟨R.MOP_S_RES_DONE_LO k, 0, 32⟩
def MOP_S_RES_DONE_HI_DONE (k : Nat) : Fld := ⟨R.MOP_S_RES_DONE_HI k, 0, 8⟩
def MOP_S_RES_FAIL_FAILED (k : Nat) : Fld := ⟨R.MOP_S_RES_FAIL k, 0, 16⟩
def MOP_S_RES_FAIL_UNC (k : Nat) : Fld := ⟨R.MOP_S_RES_FAIL k, 16, 16⟩
def MOP_S_RES_CORR_CORR (k : Nat) : Fld := ⟨R.MOP_S_RES_CORR k, 0, 32⟩
def MOP_S_RES_FADDR_LO_FADDR (k : Nat) : Fld := ⟨R.MOP_S_RES_FADDR_LO k, 0, 32⟩
def MOP_S_RES_FADDR_HI_FADDR (k : Nat) : Fld := ⟨R.MOP_S_RES_FADDR_HI k, 0, 14⟩
def MOP_S_PROG_LO_PROG (k : Nat) : Fld := ⟨R.MOP_S_PROG_LO k, 0, 32⟩
def MOP_S_PROG_HI_PROG (k : Nat) : Fld := ⟨R.MOP_S_PROG_HI k, 0, 8⟩
def CRC_U_CTL_POLY (k : Nat) : Fld := ⟨R.CRC_U_CTL k, 0, 2⟩
def CRC_U_CTL_USEINIT (k : Nat) : Fld := ⟨R.CRC_U_CTL k, 2, 1⟩
def CRC_U_CTL_START (k : Nat) : Fld := ⟨R.CRC_U_CTL k, 8, 1⟩
def CRC_U_CTL_FIN (k : Nat) : Fld := ⟨R.CRC_U_CTL k, 9, 1⟩
def CRC_U_CTL_REL (k : Nat) : Fld := ⟨R.CRC_U_CTL k, 10, 1⟩
def CRC_U_CTL_COLL (k : Nat) : Fld := ⟨R.CRC_U_CTL k, 11, 1⟩
def CRC_U_INIT_LO_INIT (k : Nat) : Fld := ⟨R.CRC_U_INIT_LO k, 0, 32⟩
def CRC_U_INIT_HI_INIT (k : Nat) : Fld := ⟨R.CRC_U_INIT_HI k, 0, 32⟩
def CRC_U_D8_DATA (k : Nat) : Fld := ⟨R.CRC_U_D8 k, 0, 8⟩
def CRC_U_D16_DATA (k : Nat) : Fld := ⟨R.CRC_U_D16 k, 0, 16⟩
def CRC_U_D32_DATA (k : Nat) : Fld := ⟨R.CRC_U_D32 k, 0, 32⟩
def CRC_U_RES_VALID (k : Nat) : Fld := ⟨R.CRC_U_RES k, 0, 1⟩
def CRC_U_RES_BUSY (k : Nat) : Fld := ⟨R.CRC_U_RES k, 1, 1⟩
def CRC_U_RES_SEQ (k : Nat) : Fld := ⟨R.CRC_U_RES k, 16, 16⟩
def CRC_U_VAL_LO_VAL (k : Nat) : Fld := ⟨R.CRC_U_VAL_LO k, 0, 32⟩
def CRC_U_VAL_HI_VAL (k : Nat) : Fld := ⟨R.CRC_U_VAL_HI k, 0, 32⟩
def CRC_U_CNT_BYTES (k : Nat) : Fld := ⟨R.CRC_U_CNT k, 0, 32⟩
def SEC_ID_ROMVER : Fld := ⟨R.SEC_ID, 0, 16⟩
def SEC_ID_SVN : Fld := ⟨R.SEC_ID, 16, 8⟩
def SEC_ID_SLOT : Fld := ⟨R.SEC_ID, 24, 1⟩
def SEC_FUSE_ROLL : Fld := ⟨R.SEC_FUSE, 0, 7⟩
def SEC_FUSE_PROV : Fld := ⟨R.SEC_FUSE, 8, 1⟩
def SEC_FUSE_RKH : Fld := ⟨R.SEC_FUSE, 9, 1⟩
def SEC_STAT_VA : Fld := ⟨R.SEC_STAT, 0, 3⟩
def SEC_STAT_VB : Fld := ⟨R.SEC_STAT, 4, 3⟩
def SEC_RKH_HASH (k : Nat) : Fld := ⟨R.SEC_RKH k, 0, 32⟩
def SEC_CHISO_DG_DG (k : Nat) : Fld := ⟨R.SEC_CHISO_DG k, 0, 32⟩
def SEC_ODDG_DG (k : Nat) : Fld := ⟨R.SEC_ODDG k, 0, 32⟩
def SEC_CMD_OP : Fld := ⟨R.SEC_CMD, 0, 3⟩
def SEC_CMD_START : Fld := ⟨R.SEC_CMD, 8, 1⟩
def SEC_CMD_REL : Fld := ⟨R.SEC_CMD, 9, 1⟩
def SEC_CMD_COLL : Fld := ⟨R.SEC_CMD, 10, 1⟩
def SEC_RES_VALID : Fld := ⟨R.SEC_RES, 0, 1⟩
def SEC_RES_BUSY : Fld := ⟨R.SEC_RES, 1, 1⟩
def SEC_RES_STATUS : Fld := ⟨R.SEC_RES, 2, 2⟩
def SEC_RES_SEQ : Fld := ⟨R.SEC_RES, 16, 16⟩
def SEC_ADDR_LO_ADDR : Fld := ⟨R.SEC_ADDR_LO, 0, 32⟩
def SEC_ADDR_HI_ADDR : Fld := ⟨R.SEC_ADDR_HI, 0, 14⟩
def SEC_LEN_LEN : Fld := ⟨R.SEC_LEN, 0, 32⟩
def SEC_DG_DG (k : Nat) : Fld := ⟨R.SEC_DG k, 0, 32⟩
def SEC_NONCE_NONCE (k : Nat) : Fld := ⟨R.SEC_NONCE k, 0, 32⟩
def SEC_BUF_DATA (k : Nat) : Fld := ⟨R.SEC_BUF k, 0, 32⟩
def CST_CTL_TIER_EN : Fld := ⟨R.CST_CTL, 0, 1⟩
def CST_STAT_READY_A : Fld := ⟨R.CST_STAT, 0, 1⟩
def CST_STAT_READY_B : Fld := ⟨R.CST_STAT, 1, 1⟩
def CST_STAT_PMEM_EFF : Fld := ⟨R.CST_STAT, 2, 6⟩
def CST_STAT_MOVE_A : Fld := ⟨R.CST_STAT, 8, 1⟩
def CST_STAT_MOVE_B : Fld := ⟨R.CST_STAT, 9, 1⟩
def CST_SPLIT_PMEM : Fld := ⟨R.CST_SPLIT, 0, 6⟩
def CST_WL_GAP_INT : Fld := ⟨R.CST_WL, 0, 8⟩
def CST_WL_SWAP_DELTA : Fld := ⟨R.CST_WL, 8, 8⟩
def CST_ERR_CE : Fld := ⟨R.CST_ERR, 0, 1⟩
def CST_ERR_UE : Fld := ⟨R.CST_ERR, 1, 1⟩
def CST_ERR_ACHK : Fld := ⟨R.CST_ERR, 2, 1⟩
def CST_ERR_REGREC : Fld := ⟨R.CST_ERR, 3, 1⟩
def CST_ERR_LINE_LINE : Fld := ⟨R.CST_ERR_LINE, 0, 22⟩
def CST_REPAIR_MODE_A : Fld := ⟨R.CST_REPAIR, 0, 2⟩
def CST_REPAIR_MODE_B : Fld := ⟨R.CST_REPAIR, 2, 2⟩
def CST_RIDX_PREG : Fld := ⟨R.CST_RIDX, 0, 8⟩
def CST_RINFO_LREG : Fld := ⟨R.CST_RINFO, 0, 8⟩
def CST_RINFO_MOVING : Fld := ⟨R.CST_RINFO, 8, 1⟩
def CST_RGAP_GAP : Fld := ⟨R.CST_RGAP, 0, 15⟩
def CST_RGAP_START : Fld := ⟨R.CST_RGAP, 16, 14⟩
def CST_RWEAR_LO_WEAR : Fld := ⟨R.CST_RWEAR_LO, 0, 32⟩
def CST_RWEAR_HI_WEAR : Fld := ⟨R.CST_RWEAR_HI, 0, 16⟩
def CST_RMIDX_ENTRY : Fld := ⟨R.CST_RMIDX, 0, 6⟩
def CST_RMIDX_DIE : Fld := ⟨R.CST_RMIDX, 6, 1⟩
def CST_RMDAT_PREG : Fld := ⟨R.CST_RMDAT, 0, 8⟩
def CST_RMDAT_SLOT : Fld := ⟨R.CST_RMDAT, 8, 15⟩
def CST_RMDAT_PEND : Fld := ⟨R.CST_RMDAT, 30, 1⟩
def CST_RMDAT_VALID : Fld := ⟨R.CST_RMDAT, 31, 1⟩
def CST_LOC_PREG : Fld := ⟨R.CST_LOC, 0, 8⟩
def CST_LOC_SLOT : Fld := ⟨R.CST_LOC, 8, 15⟩
def PMP_PDQ_LINES : Fld := ⟨R.PMP_PDQ, 0, 9⟩
def PMP_CLEAN_START : Fld := ⟨R.PMP_CLEAN, 0, 7⟩
def PMP_CLEAN_STOP : Fld := ⟨R.PMP_CLEAN, 8, 7⟩
def PMP_OWNQ_LINES : Fld := ⟨R.PMP_OWNQ, 0, 7⟩
def PMP_OWNQ_TRIM : Fld := ⟨R.PMP_OWNQ, 8, 7⟩
def PMP_OWNQ_TRIM_STOP : Fld := ⟨R.PMP_OWNQ, 16, 7⟩
def PMP_PDQ_LVL_LEVEL : Fld := ⟨R.PMP_PDQ_LVL, 0, 19⟩
def PMP_PDQ_FN_THRESH : Fld := ⟨R.PMP_PDQ_FN, 0, 9⟩
def PMP_PDQ_FN_LATCHED : Fld := ⟨R.PMP_PDQ_FN, 16, 1⟩
def PMP_PDQ_FN_PEAK : Fld := ⟨R.PMP_PDQ_FN, 20, 9⟩
def PMP_PDQ_FN_T_LO_TBASE : Fld := ⟨R.PMP_PDQ_FN_T_LO, 0, 32⟩
def PMP_PDQ_FN_T_HI_TBASE : Fld := ⟨R.PMP_PDQ_FN_T_HI, 0, 32⟩
def PMP_OWN_LVL_LEVEL : Fld := ⟨R.PMP_OWN_LVL, 0, 17⟩
def PMP_OWN_FN_THRESH : Fld := ⟨R.PMP_OWN_FN, 0, 7⟩
def PMP_OWN_FN_LATCHED : Fld := ⟨R.PMP_OWN_FN, 8, 1⟩
def PMP_OWN_FN_PEAK : Fld := ⟨R.PMP_OWN_FN, 16, 7⟩
def PMP_OWN_FN_T_LO_TBASE : Fld := ⟨R.PMP_OWN_FN_T_LO, 0, 32⟩
def PMP_OWN_FN_T_HI_TBASE : Fld := ⟨R.PMP_OWN_FN_T_HI, 0, 32⟩
def PMP_CKPT_GO : Fld := ⟨R.PMP_CKPT, 0, 1⟩
def PMP_CKPT_REL : Fld := ⟨R.PMP_CKPT, 1, 1⟩
def PMP_CKPT_COLL : Fld := ⟨R.PMP_CKPT, 2, 1⟩
def PMP_CKPT_RES_VALID : Fld := ⟨R.PMP_CKPT_RES, 0, 1⟩
def PMP_CKPT_RES_BUSY : Fld := ⟨R.PMP_CKPT_RES, 1, 1⟩
def PMP_CKPT_RES_STATUS : Fld := ⟨R.PMP_CKPT_RES, 2, 2⟩
def PMP_CKPT_RES_SEQ : Fld := ⟨R.PMP_CKPT_RES, 16, 16⟩
def PMP_CKPT_T_LO_TBASE : Fld := ⟨R.PMP_CKPT_T_LO, 0, 32⟩
def PMP_CKPT_T_HI_TBASE : Fld := ⟨R.PMP_CKPT_T_HI, 0, 32⟩
def WGV_RATE_RATE : Fld := ⟨R.WGV_RATE, 0, 32⟩
def WGV_LOW_LOW : Fld := ⟨R.WGV_LOW, 0, 13⟩
def WGV_LVL_LO_LEVEL : Fld := ⟨R.WGV_LVL_LO, 0, 32⟩
def WGV_LVL_HI_LEVEL : Fld := ⟨R.WGV_LVL_HI, 0, 8⟩
def WGV_STAT_THROTTLED : Fld := ⟨R.WGV_STAT, 0, 1⟩
def WGV_STAT_TIERDROP : Fld := ⟨R.WGV_STAT, 1, 1⟩
def WGV_FN_THRESH : Fld := ⟨R.WGV_FN, 0, 13⟩
def WGV_FN_LATCHED : Fld := ⟨R.WGV_FN, 16, 1⟩
def WGV_FN_LOWEST : Fld := ⟨R.WGV_FN, 17, 13⟩
def WGV_FN_T_LO_TBASE : Fld := ⟨R.WGV_FN_T_LO, 0, 32⟩
def WGV_FN_T_HI_TBASE : Fld := ⟨R.WGV_FN_T_HI, 0, 32⟩
def WGV_TOT_LO_TOTAL : Fld := ⟨R.WGV_TOT_LO, 0, 32⟩
def WGV_TOT_HI_TOTAL : Fld := ⟨R.WGV_TOT_HI, 0, 16⟩
def WGV_DRN_LO_DRAIN : Fld := ⟨R.WGV_DRN_LO, 0, 32⟩
def WGV_DRN_HI_DRAIN : Fld := ⟨R.WGV_DRN_HI, 0, 16⟩
def WGV_DLY_DELAYED : Fld := ⟨R.WGV_DLY, 0, 32⟩
def PMP_DRN_STAT_STATE : Fld := ⟨R.PMP_DRN_STAT, 0, 3⟩
def PMP_DRN_STAT_WARN : Fld := ⟨R.PMP_DRN_STAT, 3, 1⟩
def PMP_DRN_STAT_REASON : Fld := ⟨R.PMP_DRN_STAT, 4, 3⟩
def PMP_DRN_STAT_GEN : Fld := ⟨R.PMP_DRN_STAT, 8, 24⟩
def PMP_RST_STAT_CLASS : Fld := ⟨R.PMP_RST_STAT, 0, 2⟩
def PMP_RST_STAT_SUSPECT : Fld := ⟨R.PMP_RST_STAT, 2, 1⟩
def PMP_RST_STAT_PRIMED : Fld := ⟨R.PMP_RST_STAT, 3, 1⟩
def PMP_RST_STAT_GS : Fld := ⟨R.PMP_RST_STAT, 8, 24⟩
def PMP_RST_POIS_POISONED : Fld := ⟨R.PMP_RST_POIS, 0, 32⟩
def PMP_DRN_LAST_TIME : Fld := ⟨R.PMP_DRN_LAST, 0, 16⟩
def PMP_DRN_ENT_ENTRIES : Fld := ⟨R.PMP_DRN_ENT, 0, 19⟩
def PMP_DRN_CTL_ACCEPT : Fld := ⟨R.PMP_DRN_CTL, 0, 1⟩
def PMP_DRN_CTL_PRIME_EN : Fld := ⟨R.PMP_DRN_CTL, 1, 1⟩
def PMP_DRN_CTL_PRIME_WAIT : Fld := ⟨R.PMP_DRN_CTL, 2, 1⟩
def PMP_DRN_CTL_HEATW : Fld := ⟨R.PMP_DRN_CTL, 3, 2⟩
def PMP_PRIME_LIM_LINES : Fld := ⟨R.PMP_PRIME_LIM, 0, 21⟩
def PMP_PRIME_STAT_LINES : Fld := ⟨R.PMP_PRIME_STAT, 0, 21⟩
def DIR_DRNG_BASE (k : Nat) : Fld := ⟨R.DIR_DRNG k, 0, 15⟩
def DIR_DRNG_LIM (k : Nat) : Fld := ⟨R.DIR_DRNG k, 16, 15⟩
def DIR_DRNG_EN (k : Nat) : Fld := ⟨R.DIR_DRNG k, 31, 1⟩
def DIR_ILV_BASE : Fld := ⟨R.DIR_ILV, 0, 15⟩
def DIR_ILV_LIM : Fld := ⟨R.DIR_ILV, 16, 15⟩
def DIR_ILV_EN : Fld := ⟨R.DIR_ILV, 31, 1⟩
def DIR_ILV_CFG_WAYS : Fld := ⟨R.DIR_ILV_CFG, 0, 1⟩
def DIR_ILV_CFG_ILV_MAP0 : Fld := ⟨R.DIR_ILV_CFG, 8, 2⟩
def DIR_ILV_CFG_ILV_MAP1 : Fld := ⟨R.DIR_ILV_CFG, 10, 2⟩
def DIR_ILV_CFG_ILV_MAP2 : Fld := ⟨R.DIR_ILV_CFG, 12, 2⟩
def DIR_ILV_CFG_ILV_MAP3 : Fld := ⟨R.DIR_ILV_CFG, 14, 2⟩
def DIR_BOOT_BASE : Fld := ⟨R.DIR_BOOT, 0, 22⟩
def DIR_PRESENT_DEV : Fld := ⟨R.DIR_PRESENT, 0, 4⟩
def DIR_PRESENT_SELF : Fld := ⟨R.DIR_PRESENT, 4, 2⟩
def DIR_COMMIT_STAT_REFUSED : Fld := ⟨R.DIR_COMMIT_STAT, 0, 1⟩
def DIR_COMMIT_STAT_CAUSE : Fld := ⟨R.DIR_COMMIT_STAT, 4, 4⟩
def DIR_ERR_INFO_VALID : Fld := ⟨R.DIR_ERR_INFO, 0, 1⟩
def DIR_ERR_INFO_OVF : Fld := ⟨R.DIR_ERR_INFO, 1, 1⟩
def DIR_ERR_INFO_CAUSE : Fld := ⟨R.DIR_ERR_INFO, 2, 4⟩
def DIR_ERR_INFO_SRC : Fld := ⟨R.DIR_ERR_INFO, 8, 4⟩
def DIR_ERR_ADDR_LO_ADDR : Fld := ⟨R.DIR_ERR_ADDR_LO, 0, 32⟩
def DIR_ERR_ADDR_HI_ADDR : Fld := ⟨R.DIR_ERR_ADDR_HI, 0, 14⟩
def DIR_HT_SLICE (k : Nat) : Fld := ⟨R.DIR_HT k, 0, 5⟩
def DIR_HT_EFF_SLICE (k : Nat) : Fld := ⟨R.DIR_HT_EFF k, 0, 5⟩
def PCI_CTL_EN : Fld := ⟨R.PCI_CTL, 0, 1⟩
def PCI_CTL_TPH_EN : Fld := ⟨R.PCI_CTL, 1, 1⟩
def PCI_CTL_MAXW : Fld := ⟨R.PCI_CTL, 2, 2⟩
def PCI_CTL_CTO : Fld := ⟨R.PCI_CTL, 8, 8⟩
def PCI_STAT_LINK : Fld := ⟨R.PCI_STAT, 0, 1⟩
def PCI_STAT_SPEED : Fld := ⟨R.PCI_STAT, 1, 2⟩
def PCI_STAT_WIDTH : Fld := ⟨R.PCI_STAT, 3, 2⟩
def PCI_STAT_DSTATE : Fld := ⟨R.PCI_STAT, 5, 2⟩
def PCI_STAT_BME : Fld := ⟨R.PCI_STAT, 7, 1⟩
def PCI_ERR_CTO : Fld := ⟨R.PCI_ERR, 0, 1⟩
def PCI_ERR_POIS_RX : Fld := ⟨R.PCI_ERR, 1, 1⟩
def PCI_ERR_UR : Fld := ⟨R.PCI_ERR, 2, 1⟩
def PCI_ERR_CA : Fld := ⟨R.PCI_ERR, 3, 1⟩
def PCI_ERR_DMA0 : Fld := ⟨R.PCI_ERR, 4, 1⟩
def PCI_ERR_DMA1 : Fld := ⟨R.PCI_ERR, 5, 1⟩
def PCI_ERR_ECRC : Fld := ⟨R.PCI_ERR, 6, 1⟩
def PCI_IRQ_EN_EN : Fld := ⟨R.PCI_IRQ_EN, 0, 6⟩
def PCI_QLVL_LEVEL : Fld := ⟨R.PCI_QLVL, 0, 6⟩
def PCI_ID_VENDOR : Fld := ⟨R.PCI_ID, 0, 16⟩
def PCI_ID_DEVICE : Fld := ⟨R.PCI_ID, 16, 16⟩
def PCI_DMA_CTL_EN (k : Nat) : Fld := ⟨R.PCI_DMA_CTL k, 0, 1⟩
def PCI_DMA_CTL_ABORT (k : Nat) : Fld := ⟨R.PCI_DMA_CTL k, 1, 1⟩
def PCI_DMA_STAT_STATE (k : Nat) : Fld := ⟨R.PCI_DMA_STAT k, 0, 2⟩
def PCI_DMA_STAT_LAST (k : Nat) : Fld := ⟨R.PCI_DMA_STAT k, 4, 4⟩
def PCI_DMA_RING_LO_ADDR (k : Nat) : Fld := ⟨R.PCI_DMA_RING_LO k, 6, 26⟩
def PCI_DMA_RING_HI_ADDR (k : Nat) : Fld := ⟨R.PCI_DMA_RING_HI k, 0, 32⟩
def PCI_DMA_RING_SZ_LOG2 (k : Nat) : Fld := ⟨R.PCI_DMA_RING_SZ k, 0, 4⟩
def PCI_DMA_HEAD_HEAD (k : Nat) : Fld := ⟨R.PCI_DMA_HEAD k, 0, 12⟩
def PCI_DMA_TAIL_TAIL (k : Nat) : Fld := ⟨R.PCI_DMA_TAIL k, 0, 12⟩
def PCI_DMA_DONE_COUNT (k : Nat) : Fld := ⟨R.PCI_DMA_DONE k, 0, 32⟩
def PCI_MBX_CMD_INDEX : Fld := ⟨R.PCI_MBX_CMD, 0, 16⟩
def PCI_MBX_CMD_SUB : Fld := ⟨R.PCI_MBX_CMD, 16, 8⟩
def PCI_MBX_CMD_WR : Fld := ⟨R.PCI_MBX_CMD, 24, 1⟩
def PCI_MBX_CMD_START : Fld := ⟨R.PCI_MBX_CMD, 31, 1⟩
def PCI_MBX_LEN_LEN : Fld := ⟨R.PCI_MBX_LEN, 0, 9⟩
def PCI_MBX_OFF_OFF : Fld := ⟨R.PCI_MBX_OFF, 0, 32⟩
def PCI_MBX_CTL_REL : Fld := ⟨R.PCI_MBX_CTL, 0, 1⟩
def PCI_MBX_CTL_COLL : Fld := ⟨R.PCI_MBX_CTL, 1, 1⟩
def PCI_MBX_RES_VALID : Fld := ⟨R.PCI_MBX_RES, 0, 1⟩
def PCI_MBX_RES_BUSY : Fld := ⟨R.PCI_MBX_RES, 1, 1⟩
def PCI_MBX_RES_STATUS : Fld := ⟨R.PCI_MBX_RES, 2, 1⟩
def PCI_MBX_RES_SEQ : Fld := ⟨R.PCI_MBX_RES, 16, 16⟩
def PCI_MBX_RLEN_LEN : Fld := ⟨R.PCI_MBX_RLEN, 0, 9⟩
def PCI_MBX_ABORT_CODE : Fld := ⟨R.PCI_MBX_ABORT, 0, 32⟩
def PCI_MBX_DATA_DATA (k : Nat) : Fld := ⟨R.PCI_MBX_DATA k, 0, 32⟩
def CAN_CTL_EN : Fld := ⟨R.CAN_CTL, 0, 1⟩
def CAN_CTL_AUTOSTART : Fld := ⟨R.CAN_CTL, 1, 1⟩
def CAN_NODE_ID : Fld := ⟨R.CAN_NODE, 0, 7⟩
def CAN_RATE_NOM : Fld := ⟨R.CAN_RATE, 0, 2⟩
def CAN_RATE_DATA : Fld := ⟨R.CAN_RATE, 2, 2⟩
def CAN_WH_BASE : Fld := ⟨R.CAN_WH, 0, 29⟩
def CAN_WH_EN : Fld := ⟨R.CAN_WH, 31, 1⟩
def CAN_STAT_BUS : Fld := ⟨R.CAN_STAT, 0, 2⟩
def CAN_STAT_NMT : Fld := ⟨R.CAN_STAT, 2, 2⟩
def CAN_STAT_LISTEN : Fld := ⟨R.CAN_STAT, 4, 1⟩
def CAN_STAT_TEC : Fld := ⟨R.CAN_STAT, 8, 8⟩
def CAN_STAT_REC : Fld := ⟨R.CAN_STAT, 16, 8⟩
def CAN_ERR_BUSOFF : Fld := ⟨R.CAN_ERR, 0, 1⟩
def CAN_ERR_EMCY_OVF : Fld := ⟨R.CAN_ERR, 1, 1⟩
def CAN_ERR_SDO_TO : Fld := ⟨R.CAN_ERR, 2, 1⟩
def CAN_ERR_WH_ABORT : Fld := ⟨R.CAN_ERR, 3, 1⟩
def CAN_MBX_CMD_INDEX : Fld := ⟨R.CAN_MBX_CMD, 0, 16⟩
def CAN_MBX_CMD_SUB : Fld := ⟨R.CAN_MBX_CMD, 16, 8⟩
def CAN_MBX_CMD_WR : Fld := ⟨R.CAN_MBX_CMD, 24, 1⟩
def CAN_MBX_CMD_START : Fld := ⟨R.CAN_MBX_CMD, 31, 1⟩
def CAN_MBX_LEN_LEN : Fld := ⟨R.CAN_MBX_LEN, 0, 9⟩
def CAN_MBX_OFF_OFF : Fld := ⟨R.CAN_MBX_OFF, 0, 32⟩
def CAN_MBX_CTL_REL : Fld := ⟨R.CAN_MBX_CTL, 0, 1⟩
def CAN_MBX_CTL_COLL : Fld := ⟨R.CAN_MBX_CTL, 1, 1⟩
def CAN_MBX_RES_VALID : Fld := ⟨R.CAN_MBX_RES, 0, 1⟩
def CAN_MBX_RES_BUSY : Fld := ⟨R.CAN_MBX_RES, 1, 1⟩
def CAN_MBX_RES_STATUS : Fld := ⟨R.CAN_MBX_RES, 2, 1⟩
def CAN_MBX_RES_SEQ : Fld := ⟨R.CAN_MBX_RES, 16, 16⟩
def CAN_MBX_RLEN_LEN : Fld := ⟨R.CAN_MBX_RLEN, 0, 9⟩
def CAN_MBX_ABORT_CODE : Fld := ⟨R.CAN_MBX_ABORT, 0, 32⟩
def CAN_MBX_DATA_DATA (k : Nat) : Fld := ⟨R.CAN_MBX_DATA k, 0, 32⟩
def MSR_CTL_SNAP : Fld := ⟨R.MSR_CTL, 0, 1⟩
def MSR_CTL_CLR : Fld := ⟨R.MSR_CTL, 1, 1⟩
def MSR_EVSEL_EV (k : Nat) : Fld := ⟨R.MSR_EVSEL k, 0, 5⟩
def MSR_CIDX_SLICE : Fld := ⟨R.MSR_CIDX, 0, 5⟩
def MSR_CIDX_CNT : Fld := ⟨R.MSR_CIDX, 8, 3⟩
def MSR_CIDX_LATCH : Fld := ⟨R.MSR_CIDX, 12, 1⟩
def MSR_CNT_LO_COUNT : Fld := ⟨R.MSR_CNT_LO, 0, 32⟩
def MSR_CNT_HI_COUNT : Fld := ⟨R.MSR_CNT_HI, 0, 16⟩
def MSR_HCFG_BASE : Fld := ⟨R.MSR_HCFG, 0, 8⟩
def MSR_HCFG_BINW : Fld := ⟨R.MSR_HCFG, 8, 8⟩
def MSR_HIDX_PORT : Fld := ⟨R.MSR_HIDX, 0, 3⟩
def MSR_HIDX_BIN : Fld := ⟨R.MSR_HIDX, 8, 4⟩
def MSR_HIDX_LATCH : Fld := ⟨R.MSR_HIDX, 12, 1⟩
def MSR_HDAT_COUNT : Fld := ⟨R.MSR_HDAT, 0, 32⟩
def MSR_TEMP_TEMP (k : Nat) : Fld := ⟨R.MSR_TEMP k, 0, 12⟩
def MSR_TEMP_VALID (k : Nat) : Fld := ⟨R.MSR_TEMP k, 16, 1⟩
def MSR_RAIL_MV (k : Nat) : Fld := ⟨R.MSR_RAIL k, 0, 14⟩
def MSR_WMAX_LO_WEAR : Fld := ⟨R.MSR_WMAX_LO, 0, 32⟩
def MSR_WMAX_HI_WEAR : Fld := ⟨R.MSR_WMAX_HI, 0, 16⟩
def MSR_WMAX_HI_PREG : Fld := ⟨R.MSR_WMAX_HI, 16, 8⟩
def MSR_WMIN_LO_WEAR : Fld := ⟨R.MSR_WMIN_LO, 0, 32⟩
def MSR_WMIN_HI_WEAR : Fld := ⟨R.MSR_WMIN_HI, 0, 16⟩
def MSR_WMIN_HI_PREG : Fld := ⟨R.MSR_WMIN_HI, 16, 8⟩
def MSR_SNAP_T_LO_TBASE : Fld := ⟨R.MSR_SNAP_T_LO, 0, 32⟩
def MSR_SNAP_T_HI_TBASE : Fld := ⟨R.MSR_SNAP_T_HI, 0, 32⟩
def MSR_SNAP_PH_PHASE : Fld := ⟨R.MSR_SNAP_PH, 0, 32⟩
def MSR_SNAP_SEQ_COUNT : Fld := ⟨R.MSR_SNAP_SEQ, 0, 16⟩
def SLC_CTL_EN (n : Nat) : Fld := ⟨R.SLC_CTL n, 0, 1⟩
def SLC_STAT_STATE (n : Nat) : Fld := ⟨R.SLC_STAT n, 0, 2⟩
def SLC_STAT_APEND (n : Nat) : Fld := ⟨R.SLC_STAT n, 2, 1⟩
def SLC_OCC_PDIRTY (n : Nat) : Fld := ⟨R.SLC_OCC n, 0, 16⟩
def SLC_OCC_LOCKED (n : Nat) : Fld := ⟨R.SLC_OCC n, 16, 15⟩
def SLC_ERR_ACFG (n : Nat) : Fld := ⟨R.SLC_ERR n, 0, 1⟩
def SLC_ERR_ACFG_CAUSE (n : Nat) : Fld := ⟨R.SLC_ERR n, 1, 3⟩
def SLC_ERR_LOCK_FULL (n : Nat) : Fld := ⟨R.SLC_ERR n, 4, 1⟩
def SLC_ERR_SBE (n : Nat) : Fld := ⟨R.SLC_ERR n, 5, 1⟩
def SLC_ERR_UE (n : Nat) : Fld := ⟨R.SLC_ERR n, 6, 1⟩
def SLC_ERR_TAGE (n : Nat) : Fld := ⟨R.SLC_ERR n, 7, 1⟩
def SLC_ERR_NOALLOC (n : Nat) : Fld := ⟨R.SLC_ERR n, 8, 1⟩
def SLC_AMASK_WAYS (n k : Nat) : Fld := ⟨R.SLC_AMASK n k, 0, 16⟩
def SLC_AMASK_FENCE (n k : Nat) : Fld := ⟨R.SLC_AMASK n k, 16, 1⟩
def SLC_ASRC0_SRC0 (n : Nat) : Fld := ⟨R.SLC_ASRC0 n, 0, 3⟩
def SLC_ASRC0_SRC1 (n : Nat) : Fld := ⟨R.SLC_ASRC0 n, 4, 3⟩
def SLC_ASRC0_SRC2 (n : Nat) : Fld := ⟨R.SLC_ASRC0 n, 8, 3⟩
def SLC_ASRC0_SRC3 (n : Nat) : Fld := ⟨R.SLC_ASRC0 n, 12, 3⟩
def SLC_ASRC0_SRC4 (n : Nat) : Fld := ⟨R.SLC_ASRC0 n, 16, 3⟩
def SLC_ASRC0_SRC5 (n : Nat) : Fld := ⟨R.SLC_ASRC0 n, 20, 3⟩
def SLC_ASRC0_SRC6 (n : Nat) : Fld := ⟨R.SLC_ASRC0 n, 24, 3⟩
def SLC_ASRC0_SRC7 (n : Nat) : Fld := ⟨R.SLC_ASRC0 n, 28, 3⟩
def SLC_ASRC1_SRC8 (n : Nat) : Fld := ⟨R.SLC_ASRC1 n, 0, 3⟩
def SLC_ASRC1_SRC9 (n : Nat) : Fld := ⟨R.SLC_ASRC1 n, 4, 3⟩
def SLC_ASRC1_SRC10 (n : Nat) : Fld := ⟨R.SLC_ASRC1 n, 8, 3⟩
def SLC_ASRC1_SRC11 (n : Nat) : Fld := ⟨R.SLC_ASRC1 n, 12, 3⟩
def SLC_CRIT_PORTS (n : Nat) : Fld := ⟨R.SLC_CRIT n, 0, 6⟩
def SLC_LOCKW_WAYS (n : Nat) : Fld := ⟨R.SLC_LOCKW n, 0, 16⟩
def SLC_MSHR_LEVEL (n : Nat) : Fld := ⟨R.SLC_MSHR n, 0, 7⟩
def SLC_MSHR_FN_THRESH (n : Nat) : Fld := ⟨R.SLC_MSHR_FN n, 0, 7⟩
def SLC_MSHR_FN_LATCHED (n : Nat) : Fld := ⟨R.SLC_MSHR_FN n, 8, 1⟩
def SLC_MSHR_FN_PEAK (n : Nat) : Fld := ⟨R.SLC_MSHR_FN n, 16, 7⟩
def SLC_MSHR_FN_T_LO_TBASE (n : Nat) : Fld := ⟨R.SLC_MSHR_FN_T_LO n, 0, 32⟩
def SLC_MSHR_FN_T_HI_TBASE (n : Nat) : Fld := ⟨R.SLC_MSHR_FN_T_HI n, 0, 32⟩
def SLC_EVB_LEVEL (n : Nat) : Fld := ⟨R.SLC_EVB n, 0, 7⟩
def SLC_EVB_FN_THRESH (n : Nat) : Fld := ⟨R.SLC_EVB_FN n, 0, 7⟩
def SLC_EVB_FN_LATCHED (n : Nat) : Fld := ⟨R.SLC_EVB_FN n, 8, 1⟩
def SLC_EVB_FN_PEAK (n : Nat) : Fld := ⟨R.SLC_EVB_FN n, 16, 7⟩
def SLC_EVB_FN_T_LO_TBASE (n : Nat) : Fld := ⟨R.SLC_EVB_FN_T_LO n, 0, 32⟩
def SLC_EVB_FN_T_HI_TBASE (n : Nat) : Fld := ⟨R.SLC_EVB_FN_T_HI n, 0, 32⟩
def SLC_DBG_IDX_SET (n : Nat) : Fld := ⟨R.SLC_DBG_IDX n, 0, 11⟩
def SLC_DBG_IDX_WAY (n : Nat) : Fld := ⟨R.SLC_DBG_IDX n, 16, 4⟩
def SLC_DBG_TAG_LO_TAG (n : Nat) : Fld := ⟨R.SLC_DBG_TAG_LO n, 0, 32⟩
def SLC_DBG_TAG_HI_TAG (n : Nat) : Fld := ⟨R.SLC_DBG_TAG_HI n, 0, 15⟩
def SLC_DBG_LRU_LRU (n k : Nat) : Fld := ⟨R.SLC_DBG_LRU n k, 0, 32⟩
def SLC_RMAP_SET (n k : Nat) : Fld := ⟨R.SLC_RMAP n k, 0, 11⟩
def SLC_RMAP_WAY (n k : Nat) : Fld := ⟨R.SLC_RMAP n k, 12, 4⟩
def SLC_RMAP_PEND (n k : Nat) : Fld := ⟨R.SLC_RMAP n k, 30, 1⟩
def SLC_RMAP_VALID (n k : Nat) : Fld := ⟨R.SLC_RMAP n k, 31, 1⟩
def SLC_REPAIR_MODE (n : Nat) : Fld := ⟨R.SLC_REPAIR n, 0, 2⟩
def SLC_SBE_LOC_SET (n : Nat) : Fld := ⟨R.SLC_SBE_LOC n, 0, 11⟩
def SLC_SBE_LOC_WAY (n : Nat) : Fld := ⟨R.SLC_SBE_LOC n, 11, 4⟩
def SLC_SBE_LOC_CHUNK (n : Nat) : Fld := ⟨R.SLC_SBE_LOC n, 15, 2⟩
def SLC_SBE_LOC_TAG (n : Nat) : Fld := ⟨R.SLC_SBE_LOC n, 17, 1⟩
def SLC_EVAC_BKT (n k : Nat) : Fld := ⟨R.SLC_EVAC n k, 0, 32⟩
def SLC_EVAC_STAT_LEFT (n : Nat) : Fld := ⟨R.SLC_EVAC_STAT n, 0, 17⟩
def SLC_EVAC_STAT_WALK (n : Nat) : Fld := ⟨R.SLC_EVAC_STAT n, 17, 1⟩
def SLC_EVAC_STAT_EMPTY (n : Nat) : Fld := ⟨R.SLC_EVAC_STAT n, 18, 1⟩
def APT_CTL_EN (n : Nat) : Fld := ⟨R.APT_CTL n, 0, 1⟩
def APT_CTL_MAXW8 (n : Nat) : Fld := ⟨R.APT_CTL n, 1, 1⟩
def APT_CTL_STASH_EN (n : Nat) : Fld := ⟨R.APT_CTL n, 2, 1⟩
def APT_CTL_RST (n : Nat) : Fld := ⟨R.APT_CTL n, 4, 1⟩
def APT_CTL_RETRAIN (n : Nat) : Fld := ⟨R.APT_CTL n, 5, 1⟩
def APT_STAT_LTSSM (n : Nat) : Fld := ⟨R.APT_STAT n, 0, 4⟩
def APT_STAT_WIDTH (n : Nat) : Fld := ⟨R.APT_STAT n, 4, 2⟩
def APT_STAT_REV (n : Nat) : Fld := ⟨R.APT_STAT n, 6, 1⟩
def APT_STAT_UP (n : Nat) : Fld := ⟨R.APT_STAT n, 7, 1⟩
def APT_STAT_DEAD (n : Nat) : Fld := ⟨R.APT_STAT n, 8, 1⟩
def APT_STAT_RECLAIM (n : Nat) : Fld := ⟨R.APT_STAT n, 9, 1⟩
def APT_STAT_AG_RECALL (n : Nat) : Fld := ⟨R.APT_STAT n, 10, 1⟩
def APT_STAT_AG_STASH (n : Nat) : Fld := ⟨R.APT_STAT n, 11, 1⟩
def APT_TMR_TX_INT (n : Nat) : Fld := ⟨R.APT_TMR n, 0, 8⟩
def APT_TMR_KEEP_TO (n : Nat) : Fld := ⟨R.APT_TMR n, 8, 8⟩
def APT_TMR_FWD_TO (n : Nat) : Fld := ⟨R.APT_TMR n, 16, 8⟩
def APT_CRD_REQ (n : Nat) : Fld := ⟨R.APT_CRD n, 0, 8⟩
def APT_CRD_RSP (n : Nat) : Fld := ⟨R.APT_CRD n, 8, 8⟩
def APT_CRD_DAT (n : Nat) : Fld := ⟨R.APT_CRD n, 16, 8⟩
def APT_CRD_AGENT_FWD (n : Nat) : Fld := ⟨R.APT_CRD_AGENT n, 0, 8⟩
def APT_CRD_AGENT_RSP (n : Nat) : Fld := ⟨R.APT_CRD_AGENT n, 8, 8⟩
def APT_CRD_AGENT_DAT (n : Nat) : Fld := ⟨R.APT_CRD_AGENT n, 16, 8⟩
def APT_CAPS_MAXTX (n : Nat) : Fld := ⟨R.APT_CAPS n, 0, 11⟩
def APT_CAPS_VER (n : Nat) : Fld := ⟨R.APT_CAPS n, 16, 8⟩
def APT_ID_LO_ID (n : Nat) : Fld := ⟨R.APT_ID_LO n, 0, 32⟩
def APT_ID_HI_ID (n : Nat) : Fld := ⟨R.APT_ID_HI n, 0, 32⟩
def APT_ERR_CRC (n : Nat) : Fld := ⟨R.APT_ERR n, 0, 1⟩
def APT_ERR_REPLAY_LIM (n : Nat) : Fld := ⟨R.APT_ERR n, 1, 1⟩
def APT_ERR_RECOV_FAIL (n : Nat) : Fld := ⟨R.APT_ERR n, 2, 1⟩
def APT_ERR_KEEP_TO (n : Nat) : Fld := ⟨R.APT_ERR n, 3, 1⟩
def APT_ERR_FWD_TO (n : Nat) : Fld := ⟨R.APT_ERR n, 4, 1⟩
def APT_ERR_PROTO (n : Nat) : Fld := ⟨R.APT_ERR n, 5, 1⟩
def APT_ERR_MALFORMED (n : Nat) : Fld := ⟨R.APT_ERR n, 6, 1⟩
def APT_ERR_VCODE (n : Nat) : Fld := ⟨R.APT_ERR n, 8, 8⟩
def APT_ERR_HDR_HDR (n k : Nat) : Fld := ⟨R.APT_ERR_HDR n k, 0, 32⟩
def APT_CNT_CRC_COUNT (n : Nat) : Fld := ⟨R.APT_CNT_CRC n, 0, 32⟩
def APT_CNT_REPLAY_COUNT (n : Nat) : Fld := ⟨R.APT_CNT_REPLAY n, 0, 32⟩
def APT_LANE_GOOD (n : Nat) : Fld := ⟨R.APT_LANE n, 0, 16⟩
def APT_IWB_LEVEL (n : Nat) : Fld := ⟨R.APT_IWB n, 0, 7⟩
def APT_IWB_FN_THRESH (n : Nat) : Fld := ⟨R.APT_IWB_FN n, 0, 7⟩
def APT_IWB_FN_LATCHED (n : Nat) : Fld := ⟨R.APT_IWB_FN n, 8, 1⟩
def APT_IWB_FN_PEAK (n : Nat) : Fld := ⟨R.APT_IWB_FN n, 16, 7⟩
def APT_IWB_FN_T_LO_TBASE (n : Nat) : Fld := ⟨R.APT_IWB_FN_T_LO n, 0, 32⟩
def APT_IWB_FN_T_HI_TBASE (n : Nat) : Fld := ⟨R.APT_IWB_FN_T_HI n, 0, 32⟩
def FED_LCTL_EN (n : Nat) : Fld := ⟨R.FED_LCTL n, 0, 1⟩
def FED_LCTL_MAXW4 (n : Nat) : Fld := ⟨R.FED_LCTL n, 1, 1⟩
def FED_LCTL_RETRAIN (n : Nat) : Fld := ⟨R.FED_LCTL n, 5, 1⟩
def FED_LSTAT_LTSSM (n : Nat) : Fld := ⟨R.FED_LSTAT n, 0, 4⟩
def FED_LSTAT_WIDTH (n : Nat) : Fld := ⟨R.FED_LSTAT n, 4, 2⟩
def FED_LSTAT_REV (n : Nat) : Fld := ⟨R.FED_LSTAT n, 6, 1⟩
def FED_LSTAT_UP (n : Nat) : Fld := ⟨R.FED_LSTAT n, 7, 1⟩
def FED_LSTAT_PDEV (n : Nat) : Fld := ⟨R.FED_LSTAT n, 8, 2⟩
def FED_LSTAT_PREADY (n : Nat) : Fld := ⟨R.FED_LSTAT n, 10, 1⟩
def FED_LSTAT_PMEMBER (n : Nat) : Fld := ⟨R.FED_LSTAT n, 11, 1⟩
def FED_LTMR_TX_INT (n : Nat) : Fld := ⟨R.FED_LTMR n, 0, 8⟩
def FED_LTMR_KEEP_TO (n : Nat) : Fld := ⟨R.FED_LTMR n, 8, 8⟩
def FED_LERR_CRC (n : Nat) : Fld := ⟨R.FED_LERR n, 0, 1⟩
def FED_LERR_REPLAY_LIM (n : Nat) : Fld := ⟨R.FED_LERR n, 1, 1⟩
def FED_LERR_RECOV_FAIL (n : Nat) : Fld := ⟨R.FED_LERR n, 2, 1⟩
def FED_LERR_KEEP_TO (n : Nat) : Fld := ⟨R.FED_LERR n, 3, 1⟩
def FED_LERR_PROTO (n : Nat) : Fld := ⟨R.FED_LERR n, 4, 1⟩
def FED_LERR_WIRE (n : Nat) : Fld := ⟨R.FED_LERR n, 5, 1⟩
def FED_PSER_LO_SERIAL (n : Nat) : Fld := ⟨R.FED_PSER_LO n, 0, 32⟩
def FED_PSER_HI_SERIAL (n : Nat) : Fld := ⟨R.FED_PSER_HI n, 0, 32⟩
def FED_PDG_DIGEST (n k : Nat) : Fld := ⟨R.FED_PDG n k, 0, 32⟩
def FED_CNT_CRC_COUNT (n : Nat) : Fld := ⟨R.FED_CNT_CRC n, 0, 32⟩
def FED_CNT_REPLAY_COUNT (n : Nat) : Fld := ⟨R.FED_CNT_REPLAY n, 0, 32⟩
def FED_CNT_STALE_COUNT (n : Nat) : Fld := ⟨R.FED_CNT_STALE n, 0, 32⟩
def FED_CFG_EXPECT : Fld := ⟨R.FED_CFG, 0, 4⟩
def FED_CFG_RDY_TO : Fld := ⟨R.FED_CFG, 8, 8⟩
def FED_WAIT_MS : Fld := ⟨R.FED_WAIT, 0, 8⟩
def FED_GCTL_REDO : Fld := ⟨R.FED_GCTL, 0, 1⟩
def FED_STAT_STATE : Fld := ⟨R.FED_STAT, 0, 3⟩
def FED_STAT_COORD : Fld := ⟨R.FED_STAT, 4, 2⟩
def FED_STAT_EPOCH : Fld := ⟨R.FED_STAT, 8, 8⟩
def FED_STAT_ABSENT : Fld := ⟨R.FED_STAT, 16, 4⟩
def FED_STAT_MISM : Fld := ⟨R.FED_STAT, 20, 4⟩
def FED_STAT_TAINT : Fld := ⟨R.FED_STAT, 24, 4⟩
def FED_SSTAT_STEP : Fld := ⟨R.FED_SSTAT, 0, 4⟩
def FED_SSTAT_KIND : Fld := ⟨R.FED_SSTAT, 4, 2⟩
def FED_SSTAT_MEM : Fld := ⟨R.FED_SSTAT, 6, 1⟩
def FED_SSTAT_FED : Fld := ⟨R.FED_SSTAT, 7, 1⟩
def FED_SSTAT_PRIME : Fld := ⟨R.FED_SSTAT, 8, 1⟩
def FED_TREL_US : Fld := ⟨R.FED_TREL, 0, 32⟩
def FED_ARST_HOLD : Fld := ⟨R.FED_ARST, 0, 6⟩
def FED_ARST_DRIVEN : Fld := ⟨R.FED_ARST, 8, 6⟩
def FED_DIGEST_DIGEST (k : Nat) : Fld := ⟨R.FED_DIGEST k, 0, 32⟩
def MCH_CTL_EN (n : Nat) : Fld := ⟨R.MCH_CTL n, 0, 1⟩
def MCH_CTL_RATE (n : Nat) : Fld := ⟨R.MCH_CTL n, 1, 2⟩
def MCH_CFG_RANKS (n : Nat) : Fld := ⟨R.MCH_CFG n, 0, 2⟩
def MCH_CFG_DENS (n : Nat) : Fld := ⟨R.MCH_CFG n, 2, 1⟩
def MCH_CFG_RDIMM (n : Nat) : Fld := ⟨R.MCH_CFG n, 3, 1⟩
def MCH_CFG_TWODPC (n : Nat) : Fld := ⟨R.MCH_CFG n, 4, 1⟩
def MCH_ILV_CHMODE (n : Nat) : Fld := ⟨R.MCH_ILV n, 0, 2⟩
def MCH_STAT_STATE (n : Nat) : Fld := ⟨R.MCH_STAT n, 0, 2⟩
def MCH_STAT_REF2X (n : Nat) : Fld := ⟨R.MCH_STAT n, 2, 1⟩
def MCH_STAT_REFUSED (n : Nat) : Fld := ⟨R.MCH_STAT n, 3, 1⟩
def MCH_STAT_CAP (n : Nat) : Fld := ⟨R.MCH_STAT n, 4, 9⟩
def MCH_MARK_CFG_THR (n : Nat) : Fld := ⟨R.MCH_MARK_CFG n, 0, 8⟩
def MCH_MARK_CFG_LEAK (n : Nat) : Fld := ⟨R.MCH_MARK_CFG n, 8, 8⟩
def MCH_MARK_CFG_AUTO (n : Nat) : Fld := ⟨R.MCH_MARK_CFG n, 16, 1⟩
def MCH_MARK_DEV (n k : Nat) : Fld := ⟨R.MCH_MARK n k, 0, 4⟩
def MCH_MARK_VALID (n k : Nat) : Fld := ⟨R.MCH_MARK n k, 4, 1⟩
def MCH_MARK_HW (n k : Nat) : Fld := ⟨R.MCH_MARK n k, 5, 1⟩
def MCH_CIDX_SUB (n : Nat) : Fld := ⟨R.MCH_CIDX n, 0, 1⟩
def MCH_CIDX_RANK (n : Nat) : Fld := ⟨R.MCH_CIDX n, 1, 2⟩
def MCH_CIDX_DEV (n : Nat) : Fld := ⟨R.MCH_CIDX n, 3, 4⟩
def MCH_CDAT_LEAKY (n : Nat) : Fld := ⟨R.MCH_CDAT n, 0, 8⟩
def MCH_CDAT_TOTAL (n : Nat) : Fld := ⟨R.MCH_CDAT n, 8, 24⟩
def MCH_ERR_CE (n : Nat) : Fld := ⟨R.MCH_ERR n, 0, 1⟩
def MCH_ERR_UE (n : Nat) : Fld := ⟨R.MCH_ERR n, 1, 1⟩
def MCH_ERR_MARKED (n : Nat) : Fld := ⟨R.MCH_ERR n, 2, 1⟩
def MCH_ERR_CAPAR (n : Nat) : Fld := ⟨R.MCH_ERR n, 3, 1⟩
def MCH_ERR_OVF (n : Nat) : Fld := ⟨R.MCH_ERR n, 4, 1⟩
def MCH_UE_INFO_SUB (n : Nat) : Fld := ⟨R.MCH_UE_INFO n, 0, 1⟩
def MCH_UE_INFO_RANK (n : Nat) : Fld := ⟨R.MCH_UE_INFO n, 1, 2⟩
def MCH_UE_INFO_KIND (n : Nat) : Fld := ⟨R.MCH_UE_INFO n, 3, 3⟩
def MCH_UE_ADDR_LO_ADDR (n : Nat) : Fld := ⟨R.MCH_UE_ADDR_LO n, 0, 32⟩
def MCH_UE_ADDR_HI_ADDR (n : Nat) : Fld := ⟨R.MCH_UE_ADDR_HI n, 0, 14⟩
def MCH_CE_CNT_COUNT (n : Nat) : Fld := ⟨R.MCH_CE_CNT n, 0, 32⟩
def MCH_UE_CNT_COUNT (n : Nat) : Fld := ⟨R.MCH_UE_CNT n, 0, 32⟩

end F

end Sys2Proof.Machine
end

