-- ==== Sys2Proof/Machine/Ops.lean ====
section
/-! DEFINITION. The named operations over the machine's registers and units: reading and writing a register's
stored value, effective values (R8), the units' records, and what the rest of the model calls to change them. -/

namespace Sys2Proof.Machine

/-- The block, its number and the offset in it that a CSR offset names; none outside every span (R385). -/
def place (off : Nat) : Option (Blk × Nat × Nat) :=
  let o := off % 0x10000
  if off < 0x10000 then some (.gen, 0, o)
  else if off < 0x20000 then some (.cfg, 0, o)
  else if off < 0x30000 then some (.evq, 0, o)
  else if off < 0x40000 then some (.clk, 0, o)
  else if off < 0x50000 then some (.pmu, 0, o)
  else if off < 0x60000 then some (.phu, 0, o)
  else if off < 0x70000 then some (.mop, 0, o)
  else if off < 0x80000 then some (.crc, 0, o)
  else if off < 0x90000 then some (.sec, 0, o)
  else if off < 0xA0000 then some (.cst, 0, o)
  else if off < 0xB0000 then some (.pmp, 0, o)
  else if off < 0xC0000 then some (.dir, 0, o)
  else if off < 0xD0000 then some (.pci, 0, o)
  else if off < 0xE0000 then some (.can, 0, o)
  else if off < 0xF0000 then some (.msr, 0, o)
  else if off < 0x100000 then none
  else if off < 0x300000 then some (.slc, (off - 0x100000) / 0x10000, o)
  else if off < 0x360000 then some (.apt, (off - 0x300000) / 0x10000, o)
  else if off < 0x380000 then none
  else if off < 0x381100 ∧ 0x381000 ≤ off then some (.feda, 0, o)
  else if off < 0x3B0000 then some (.fed, (off - 0x380000) / 0x10000, o)
  else if off < 0x400000 then none
  else if off < 0x500000 then some (.mch, (off - 0x400000) / 0x40000, (off - 0x400000) % 0x40000)
  else none

/-- Whether a register row holds the offset of a register. -/
def RegRow.holds (r : RegRow) (o : Nat) : Bool :=
  decide (r.off ≤ o) && decide ((o - r.off) % r.stride = 0) && decide ((o - r.off) / r.stride < r.count)

/-- The row of the register at a CSR offset, if one lies there. -/
def rowAt (off : Nat) : Option RegRow :=
  match place off with
  | none => none
  | some (b, _, o) => (rowsOf b).find? (fun r => r.holds o)

/-- The word a row's fields reset to. -/
def RegRow.resetWord (r : RegRow) : Word :=
  r.flds.foldl (fun w f => putBits w f.lo f.w f.rst) 0

/-- The reset value of the register at an offset (R7, R394); entry b of the home table resets to b mod 32 (R37)
and MSR_EVSEL_k to k (R389). -/
def resetWord (off : Nat) : Word :=
  if 0xB0400 ≤ off ∧ off < 0xB0800 then BitVec.ofNat 32 ((off - 0xB0400) / 4 % 32)
  else if 0xE0010 ≤ off ∧ off < 0xE0030 then BitVec.ofNat 32 ((off - 0xE0010) / 4)
  else match rowAt off with
  | none => 0
  | some r => r.resetWord

/-- The stored value of a register. -/
def raw (s : State) (off : Nat) : Word := (nget s.csr off).getD (resetWord off)

/-- Store a register's value. -/
def wr (s : State) (off : Nat) (w : Word) : State := { s with csr := nset s.csr off w }

/-- A field's stored value. -/
def getF (s : State) (f : Fld) : Nat := bits (raw s f.off) f.lo f.w

/-- Store a field's value. -/
def setF (s : State) (f : Fld) (v : Nat) : State := wr s f.off (putBits (raw s f.off) f.lo f.w v)

/-- Set a one-bit flag. -/
def flag (s : State) (f : Fld) : State := setF s f 1

/-- A value kept to the ends of a field's range (R67, R172, R190, R191, R238, R240, R254, R275, R339, R383, R389). -/
def FRow.clip (f : FRow) (v : Nat) : Nat := if v < f.min then f.min else if f.max < v then f.max else v

/-- What a field's stored value is taken as where its table gives a range: the nearest end (log entry 31). -/
def rangedF (s : State) (f : Fld) : Nat :=
  match (rowAt f.off).bind (fun r => r.flds.find? (fun x => decide (x.lo = f.lo))) with
  | some x => x.clip (getF s f)
  | none => getF s f

/-- Whether a one-bit flag is set. -/
def isF (s : State) (f : Fld) : Bool := decide (getF s f = 1)

/-- The effective word of a register whose fields are of class P or S (R8). -/
def effWord (s : State) (off : Nat) : Word := (nget s.eff off).getD (resetWord off)

/-- A field's effective value. -/
def effF (s : State) (f : Fld) : Nat := bits (effWord s f.off) f.lo f.w

/-- Set the effective word of a register. -/
def setEff (s : State) (off : Nat) (w : Word) : State := { s with eff := nset s.eff off w }

/-- The listed registers of a range of offsets at their reset values. -/
def atReset (m : NMap Word) (lo hi : Nat) : NMap Word := m.map (fun e => (e.1, if lo ≤ e.1 ∧ e.1 < hi then resetWord e.1 else e.2))

/-- The registers of a range of offsets take their reset values (R7). -/
def resetRange (s : State) (lo hi : Nat) : State :=
  { s with csr := atReset s.csr lo hi, eff := atReset s.eff lo hi, snaps := nclear s.snaps lo hi }

/-- A slice, port, link, channel, MOP slot, DMA channel, mailbox, CRC unit, boot slot or firmware slot. -/
def slice (s : State) (n : Nat) : Slice := (nget s.slices n).getD {}
def port (s : State) (p : Nat) : Port := (nget s.ports p).getD {}
def vl (s : State) (l : Nat) : Vl := (nget s.vls l).getD {}
def chan (s : State) (c : Nat) : Chan := (nget s.chans c).getD {}
def mopOf (s : State) (k : Nat) : Mop := (nget s.mops k).getD {}
def dmaOf (s : State) (c : Nat) : Dma := (nget s.dmas c).getD {}
def crcOf (s : State) (u : Nat) : Crc := (nget s.crcs u).getD {}
def bootOf (s : State) (k : Nat) : BootHdr := (nget s.boots k).getD {}
def fwOf (s : State) (k : Nat) : Fw := (nget s.fws k).getD {}
def mbxIx : Mbx → Nat
  | .pci => 0
  | .csr => 1
def mbxOf (s : State) (m : Mbx) : MbxSt := (nget s.mbxs (mbxIx m)).getD {}

def setSlice (s : State) (n : Nat) (x : Slice) : State := { s with slices := nset s.slices n x }
def setPort (s : State) (p : Nat) (x : Port) : State := { s with ports := nset s.ports p x }
def setVl (s : State) (l : Nat) (x : Vl) : State := { s with vls := nset s.vls l x }
def setChan (s : State) (c : Nat) (x : Chan) : State := { s with chans := nset s.chans c x }
def setMop (s : State) (k : Nat) (x : Mop) : State := { s with mops := nset s.mops k x }
def setDma (s : State) (c : Nat) (x : Dma) : State := { s with dmas := nset s.dmas c x }

/-- The channels without a descriptor; the numbers of the ones they had stay used. -/
def idleDmas (s : State) : NMap Dma := s.dmas.map (fun e => (e.1, { no := e.2.no }))
def setCrc (s : State) (u : Nat) (x : Crc) : State := { s with crcs := nset s.crcs u x }
def setBoot (s : State) (k : Nat) (x : BootHdr) : State := { s with boots := nset s.boots k x }
def setFw (s : State) (k : Nat) (x : Fw) : State := { s with fws := nset s.fws k x }
def setMbx (s : State) (m : Mbx) (x : MbxSt) : State := { s with mbxs := nset s.mbxs (mbxIx m) x }

/-- The sides and masters by number. -/
def apS (p : Nat) : Side := .ap (Fin.ofNat 6 p)
def vlS (l : Nat) : Side := .vl (Fin.ofNat 3 l)
def masterOf (n : Nat) : Master :=
  if n < 6 then .ap (Fin.ofNat 6 n) else if n < 9 then .vl (Fin.ofNat 3 (n - 6)) else if n = 9 then .host
  else if n = 10 then .net else .chiso
/-- A master's code: SRC of R39; Chiso shares the network's latch (R308). The table of R40 lists no SRC for Chiso's own accesses: they
are recorded as the network's, which they serve (DESIGN CHOICE, log entry 101). -/
def masterIx : Master → Nat
  | .ap p => p
  | .vl l => 6 + l
  | .host => 9
  | .net => 10
  | .chiso => 10

/-- Work for another unit joins what is in flight (R14). -/
def push (s : State) (f : Flow) : State := { s with fabric := s.fabric ++ [f] }

/-- Something leaves the device for the host, the network or a link's far side. -/
def emit (s : State) (o : Out) : State := { s with out := s.out ++ [o] }

/-- The next free value and the counter past it (log entry 2). -/
def freshen (s : State) : State := { s with fresh := s.fresh + 1 }

/-- This device's number, DIR_PRESENT.SELF (R40, R360). -/
def self (s : State) : Nat := getF s F.DIR_PRESENT_SELF

/-- Whether device `d` is present (R38). -/
def present (s : State) (d : Nat) : Bool := (getF s F.DIR_PRESENT_DEV).testBit d

/-- The present peers of this device. -/
def peers (s : State) : List Nat := (List.range 4).filter (fun d => present s d && decide (d ≠ self s))

/-- The link that joins this device to device `d` (R367). -/
def linkTo (s : State) (d : Nat) : Nat := (Nat.xor (self s) d) - 1

/-- The device a link joins this device to (R367). -/
def farEnd (s : State) (l : Nat) : Nat := Nat.xor (self s) (l + 1)

/-- Whether a power domain, 1 to 30, is on (R290). -/
def pdOn (s : State) (d : Nat) : Bool := (getF s F.PMU_PD_STAT_ON).testBit (d - 1)

/-- Whether a slice's clock enable is in effect (R271). -/
def slcEn (s : State) (n : Nat) : Bool := (getF s F.CLK_EN_SLC_EFF_SLC).testBit n

/-- Whether a bit of CLK_EN_DEV_EFF is in effect (R271). -/
def devEn (s : State) (b : Nat) : Bool := (bits (raw s R.CLK_EN_DEV_EFF) 0 18).testBit b

/-- The power domain of a slice (R11). -/
def slicePd (n : Nat) : Nat := n / 2 + 1

/-- Whether a slice is on and clocked. -/
def sliceUp (s : State) (n : Nat) : Bool := pdOn s (slicePd n) && slcEn s n

/-- Whether a channel's domain is on and its clock enabled. -/
def chanUp (s : State) (c : Nat) : Bool := pdOn s (23 + c) && devEn s (6 + c)

/-- Whether both Cistern dies are on and serving (R25). -/
def cisUp (s : State) : Bool := isF s F.CST_STAT_READY_A && isF s F.CST_STAT_READY_B

/-- Whether the clocks of the switched domains run (R261). -/
def clocksRun (s : State) : Bool := decide (getF s F.CLK_STAT_CST = 2 ∨ getF s F.CLK_STAT_CST = 3)

/-- The state of a slice, SLC_STAT.STATE (R95): 0 INIT; 1 DISABLED; 2 ENABLED; 3 DRAINING. -/
def slcState (s : State) (n : Nat) : Nat := getF s (F.SLC_STAT_STATE n)

/-- Whether the quiet window is open (R250). -/
def quiet (s : State) : Bool := isF s F.PHU_STAT_QW

/-- Whether the device drains or has sealed (R214): PMP_DRN_STAT.STATE. -/
def pumpState (s : State) : Nat := getF s F.PMP_DRN_STAT_STATE

/-- Whether WARN has tripped, or a drain runs, since the last start: the gate of R198 is closed. -/
def gated (s : State) : Bool := decide (s.drain.stage ≠ 0) || s.drain.shedWait

/-- A 64-bit value stored in a low and a high register. -/
def setPair (s : State) (lo hi : Nat) (v : BitVec 64) : State :=
  wr (wr s lo (BitVec.ofNat 32 v.toNat)) hi (BitVec.ofNat 32 (v.toNat >>> 32))

end Sys2Proof.Machine
end

