-- ==== Sys2Proof/Machine/Flags.lean ====
section
/-! DEFINITION. What the device raises: event records, the interrupt sources and their three directions,
the EMCY error register, and the float notices (R304–R310, R335). -/

namespace Sys2Proof.Machine

/-- Whether the CAN controller is bus-on (R331, R340). -/
def busOn (s : State) : Bool := decide (getF s F.CAN_STAT_BUS = 1 ∨ getF s F.CAN_STAT_BUS = 2)

/-- Whether the NMT state serves SDO, EMCY and Wellhead: Pre-operational or Operational (R333). -/
def nmtServes (s : State) : Bool := decide (getF s F.CAN_STAT_NMT = 1 ∨ getF s F.CAN_STAT_NMT = 2)

/-- The management controller runs Chiso: PMU_MCU.STATE reads RUN (R290). -/
def chisoRuns (s : State) : Bool := decide (getF s F.PMU_MCU_STATE = 2)

/-- The error register 0x1001 (R335). -/
def errorRegister (s : State) : BitVec 8 :=
  let q := getF s F.EVQ_IRQ_STAT_SRC
  let v := q.testBit 1
  let t := isF s F.CLK_STAT_THERM
  let c := q.testBit 11 || q.testBit 12
  let m := q.testBit 8 || q.testBit 9 || q.testBit 10
  BitVec.ofNat 8 (b2n (v || t || c || m) + 4 * b2n v + 8 * b2n t + 16 * b2n c + 128 * b2n m)

/-- An EMCY frame joins the queue of 16; a frame at a full queue is dropped (R335). -/
def queueEmcy (s : State) (frame : List Byte) : State :=
  if s.can.emcy.length < 16 then { s with can := { s.can with emcy := s.can.emcy ++ [frame] } }
  else flag s F.CAN_ERR_EMCY_OVF

/-- The EMCY error code of an interrupt source (R310). -/
def emcyCode (src : Nat) : Nat :=
  if src = 1 then 0x3100 else if 8 ≤ src ∧ src ≤ 10 then 0x5000 else 0xFF00 + src

/-- The error register follows its sources; a return to 0 sends EMCY 0x0000 (R335). -/
def refreshErr (s : State) : State :=
  let r := errorRegister s
  let s' := { s with can := { s.can with errReg := r } }
  if s.can.errReg ≠ 0 ∧ r = 0 ∧ busOn s ∧ nmtServes s then queueEmcy s' (leBytes 8 0) else s'

/-- The EMCY of a source (R310, R335): for source 1 whatever the enables say. -/
def emcyFor (s : State) (src : Nat) : State :=
  if (src = 1 ∨ (getF s F.EVQ_IRQ_NET_EN).testBit src) ∧ busOn s ∧ nmtServes s then
    let rec' := (nget s.evq.last src).getD (0, 0)
    queueEmcy s (leBytes 2 (emcyCode src) ++ [errorRegister s, BitVec.ofNat 8 src]
      ++ leBytes 2 rec'.1 ++ [BitVec.ofNat 8 rec'.2, 0])
  else s

/-- A message joins the egress of an agent port or a Vrelcia link. -/
def egress (s : State) (side : Side) (m : Msg) : State :=
  match side with
  | .ap p =>
    let x := port s p
    push (setPort s p { x with lnk := { x.lnk with egress := x.lnk.egress ++ [m] } }) (.egress side)
  | .vl l =>
    let x := vl s l
    push (setVl s l { x with lnk := { x.lnk with egress := x.lnk.egress ++ [m] } }) (.egress side)

/-- A Notify with the source to one port whose agent is UP (R310). -/
def notify (s : State) (src : Nat) (p : Nat) : State :=
  if isF s (F.APT_STAT_UP p) then egress s (apS p) { opc := 0x2E, cls := 2, arg := BitVec.ofNat 12 src } else s

/-- Notify to each port EVQ_IRQ_AG names, or to every UP port for source 1 (R310). -/
def notifyAgents (s : State) (src : Nat) : State :=
  if src = 1 then (List.range 6).foldl (fun s p => notify s src p) s
  else if (getF s F.EVQ_IRQ_AG_EN).testBit src then
    (setBits 6 (getF s F.EVQ_IRQ_AG_PORTS)).foldl (fun s p => notify s src p) s
  else s

/-- Word 3 of a vector's MSI-X table entry, bit 0: the vector is masked. Reset masks it (log entry 10). -/
def vectorMasked (s : State) (v : Nat) : Bool := bit ((nget s.pcie.table (4 * v + 3)).getD 1) 0

/-- An MSI-X message that falls due: sent, or its pending bit set while the vector is masked or the function may not send
(R310, R313, R320). -/
def msix (s : State) (v : Nat) : State :=
  if ¬ s.pcie.msixEn ∨ ¬ s.pcie.bme ∨ s.pcie.d3hot ∨ vectorMasked s v then
    { s with pcie := { s.pcie with pba := setBit s.pcie.pba v } }
  else emit s (.msix v)

/-- The host's direction of a source (R310). -/
def notifyHost (s : State) (src : Nat) : State :=
  if (getF s F.EVQ_IRQ_HOST_EN).testBit src ∧ pdOn s 30 then msix s src else s

/-- Raise an interrupt source (R309): its bit sets, source 10 sets the fatal flag, and each direction is signalled on
a change from 0 to 1 (R310). -/
def irq (s : State) (src : Nat) : State :=
  let s1 := if src = 10 then flag s F.GEN_STAT_FATAL else s
  if (getF s1 F.EVQ_IRQ_STAT_SRC).testBit src then s1
  else
    let s2 := setF s1 F.EVQ_IRQ_STAT_SRC (getF s1 F.EVQ_IRQ_STAT_SRC ||| 1 <<< src)
    refreshErr (emcyFor (notifyHost (notifyAgents s2 src) src) src)

/-- The interrupt source that a record of a code raises (R306, R357, R382, R405). -/
def irqOf (code : Nat) : Nat :=
  match code with
  | 0x0101 => 8 | 0x0102 => 8 | 0x0103 => 6 | 0x0104 => 6 | 0x0105 => 6 | 0x0106 => 2
  | 0x0200 => 11 | 0x0201 => 11 | 0x0202 => 11 | 0x0203 => 11 | 0x0204 => 1 | 0x0205 => 8
  | 0x0300 => 1 | 0x0301 => 1 | 0x0302 => 9
  | 0x0400 => 9 | 0x0401 => 10 | 0x0402 => 8 | 0x0403 => 9 | 0x0404 => 8 | 0x0405 => 8 | 0x0406 => 8
  | 0x0500 => 7 | 0x0501 => 7 | 0x0502 => 7 | 0x0503 => 7 | 0x0504 => 13 | 0x0505 => 13 | 0x0506 => 3
  | 0x0507 => 3 | 0x0508 => 10 | 0x0600 => 4 | 0x0700 => 13 | 0x0701 => 13
  | 0x0802 => 12 | 0x0803 => 12 | 0x0804 => 12 | 0x0805 => 12 | 0x0806 => 12 | 0x0807 => 10 | 0x0808 => 13
  | _ => 0

/-- The phase stamp is valid: the unit is LOCKED or in COAST (R253, R305). -/
def phaseValid (s : State) : Bool := decide (getF s F.PHU_STAT_STATE = 2 ∨ getF s F.PHU_STAT_STATE = 3)

/-- PHU_PHASE: cycle count and fraction (R244). -/
def phaseWord (s : State) : Word := BitVec.ofNat 32 (s.phu.cycle.toNat * 65536 + s.phu.frac.toNat)

/-- The eight words of a record (R305). -/
def record (s : State) (code unit : Nat) (detail : List Byte) : List Word :=
  let d := detail.take 16 ++ List.replicate (16 - detail.length) 0
  [BitVec.ofNat 32 (code + unit * 65536 + b2n (phaseValid s) * 0x2000000),
   phaseWord s, BitVec.ofNat 32 s.tb.toNat, BitVec.ofNat 32 (s.tb.toNat >>> 32)]
  ++ (List.range 4).map (fun i => BitVec.ofNat 32 (ofLe ((d.drop (4 * i)).take 4)))

/-- A float notice (R304): its fields, the time registers, and the unit that posts. -/
structure Float where
  thresh  : Fld
  latched : Fld
  peak    : Fld
  tLo     : Nat
  tHi     : Nat
  unit    : Nat
  scale   : Nat := 1

def floatEvq : Float := ⟨F.EVQ_FN_THRESH, F.EVQ_FN_LATCHED, F.EVQ_FN_PEAK, R.EVQ_FN_T_LO, R.EVQ_FN_T_HI, 0x4F, 1⟩
def floatIwb (p : Nat) : Float :=
  ⟨F.APT_IWB_FN_THRESH p, F.APT_IWB_FN_LATCHED p, F.APT_IWB_FN_PEAK p, R.APT_IWB_FN_T_LO p, R.APT_IWB_FN_T_HI p, 0x20 + p, 1⟩
def floatMshr (n : Nat) : Float :=
  ⟨F.SLC_MSHR_FN_THRESH n, F.SLC_MSHR_FN_LATCHED n, F.SLC_MSHR_FN_PEAK n, R.SLC_MSHR_FN_T_LO n, R.SLC_MSHR_FN_T_HI n, n, 1⟩
def floatEvb (n : Nat) : Float :=
  ⟨F.SLC_EVB_FN_THRESH n, F.SLC_EVB_FN_LATCHED n, F.SLC_EVB_FN_PEAK n, R.SLC_EVB_FN_T_LO n, R.SLC_EVB_FN_T_HI n, n, 1⟩
def floatPdq : Float :=
  ⟨F.PMP_PDQ_FN_THRESH, F.PMP_PDQ_FN_LATCHED, F.PMP_PDQ_FN_PEAK, R.PMP_PDQ_FN_T_LO, R.PMP_PDQ_FN_T_HI, 0x48, 1024⟩
def floatOwn : Float :=
  ⟨F.PMP_OWN_FN_THRESH, F.PMP_OWN_FN_LATCHED, F.PMP_OWN_FN_PEAK, R.PMP_OWN_FN_T_LO, R.PMP_OWN_FN_T_HI, 0x48, 1024⟩
def floatWgv : Float :=
  ⟨F.WGV_FN_THRESH, F.WGV_FN_LATCHED, F.WGV_FN_LOWEST, R.WGV_FN_T_LO, R.WGV_FN_T_HI, 0x49, 16777216⟩

/-- A level in the units of its notice, rounded up (R191). -/
def Float.units (f : Float) (level : Nat) : Nat := (level + f.scale - 1) / f.scale

/-- The notice latches: LATCHED and the crossing time, if it was not latched (R304). The record and the source
follow in `floatRaise`. -/
def floatLatch (s : State) (f : Float) : State := setPair (flag s f.latched) f.tLo f.tHi s.tb

/-- A record joins the queue, or goes to the pop that has waited longest: into its master's latch, its answer back to it
(R308). -/
def enterRaw (s : State) (r : List Word) : State :=
  match s.evq.waiters with
  | a :: rest =>
    let s1 := { s with evq := { s.evq with waiters := rest, latches := nset s.evq.latches (masterIx a.m) r } }
    push s1 (.csrDone a (BitVec.ofNat 64 (r.headD 0).toNat) 0)
  | [] => { s with evq := { s.evq with recs := s.evq.recs ++ [r] } }

/-- Enter one record in a queue with room; the queue's level and its notice follow (R305, R304). -/
def enter (s : State) (r : List Word) : State :=
  let old := s.evq.recs.length
  let s1 := enterRaw s r
  let new := s1.evq.recs.length
  let s2 := if getF s1 F.EVQ_FN_PEAK < new then setF s1 F.EVQ_FN_PEAK new else s1
  let s3 := if old = 0 ∧ 0 < new then irq s2 0 else s2
  if old ≤ effF s3 F.EVQ_FN_THRESH ∧ effF s3 F.EVQ_FN_THRESH < new ∧ ¬ isF s3 F.EVQ_FN_LATCHED then
    let s4 := floatLatch s3 floatEvq
    let s5 := { s4 with evq := { s4.evq with last := nset s4.evq.last 2 (0x0106, 0x4F) } }
    let s6 := if s5.evq.recs.length < 1024 then enterRaw s5 (record s5 0x0106 0x4F (leBytes 4 R.EVQ_FN ++ leBytes 2 new))
      else { s5 with evq := { s5.evq with lost := bump 0xFFFF s5.evq.lost 1 } }
    irq s6 2
  else s3

/-- The record 0x0100 of what was lost, at a queue with room (R307). -/
def enterLost (s : State) : State :=
  irq (enter { s with evq := { s.evq with lost := 0 } } (record s 0x0100 0x4F (leBytes 4 s.evq.lost))) 0

/-- The records that Chiso copies into the health log (R237). -/
def healthCode (code : Nat) : Bool := decide (0x0400 ≤ code ∧ code ≤ 0x0406)

/-- The events for which Chiso raises an EMCY whatever EVQ_IRQ_NET holds (R224, R237): marks, fatal events and uncorrectable lines. -/
def loudCode (code : Nat) (detail : List Byte) : Bool :=
  decide (code = 0x0402) || decide (irqOf code = 10)
    || (decide (code = 0x0400) && decide (1 ≤ (detail.getD 8 0).toNat ∧ (detail.getD 8 0).toNat ≤ 5))

/-- Whether raising a source sends its EMCY under R310. -/
def emcyGoes (s : State) (src : Nat) : Bool :=
  !((getF s F.EVQ_IRQ_STAT_SRC).testBit src) && (getF s F.EVQ_IRQ_NET_EN).testBit src && busOn s && nmtServes s

/-- Chiso's part in an error record (R224, R237, R287): the health log, and the EMCY that R310 has not sent. -/
def tellChiso (s : State) (code : Nat) (detail : List Byte) (r : List Word) : State :=
  if healthCode code ∨ loudCode code detail = true then push s (.health r (loudCode code detail && !(emcyGoes s (irqOf code)))) else s

/-- Post an event record (R305–R307): lost and counted at a full queue, after the record 0x0100 of what was lost; the
source the code names is raised either way. -/
def post (s : State) (code unit : Nat) (detail : List Byte) : State :=
  let s0 := { s with evq := { s.evq with last := nset s.evq.last (irqOf code) (code, unit) } }
  let s1 := if s0.evq.lost ≠ 0 ∧ s0.evq.recs.length < 1024 then
      enterLost s0
    else s0
  let s2 := if s1.evq.recs.length < 1024 then enter s1 (record s1 code unit detail)
    else { s1 with evq := { s1.evq with lost := bump 0xFFFF s1.evq.lost 1 } }
  irq (tellChiso s2 code detail (record s code unit detail)) (irqOf code)

/-- The record and source of a latched notice (R304, R306). -/
def floatRaise (s : State) (f : Float) : State :=
  post s 0x0106 f.unit (leBytes 4 f.latched.off ++ leBytes 2 (getF s f.peak))

/-- A level moved from `old` to `new` (R304): PEAK follows, and a rise above THRESH latches the notice. -/
def floatMove (s : State) (f : Float) (old new : Nat) : State :=
  let s1 := if getF s f.peak < f.units new then setF s f.peak (f.units new) else s
  if old ≤ effF s1 f.thresh * f.scale ∧ effF s1 f.thresh * f.scale < new ∧ ¬ isF s1 f.latched then
    floatRaise (floatLatch s1 f) f
  else s1

/-- The governor's level fell (R192): LOWEST follows, and a fall below THRESH latches its notice. -/
def floatFall (s : State) (old new : Int) : State :=
  let low := if new ≤ 0 then 0 else new.toNat / 16777216
  let s1 := if low < getF s F.WGV_FN_LOWEST then setF s F.WGV_FN_LOWEST low else s
  let t : Int := effF s1 F.WGV_FN_THRESH * 16777216
  if t ≤ old ∧ new < t ∧ ¬ isF s1 F.WGV_FN_LATCHED then floatRaise (floatLatch s1 floatWgv) floatWgv else s1

/-- An address as a record's 8 bytes. -/
def addrBytes (l : LineAddr) : List Byte := leBytes 8 (l.toNat * 64)

/-- One byte of a record's detail. -/
def b1 (n : Nat) : List Byte := [BitVec.ofNat 8 n]

/-- An event of a slice: each of its counters that MSR_EVSEL sets to the event adds 1 (R389). -/
def countBy (s : State) (n ev by' : Nat) : State :=
  let ks := (List.range 8).filter (fun k => decide (getF s (F.MSR_EVSEL_EV k) = ev))
  let x := slice s n
  if ks = [] then s
  else setSlice s n { x with ctr := ks.foldl (fun c k => nset c k (((nget c k).getD 0 + by') % 2 ^ 48)) x.ctr }
def count (s : State) (n ev : Nat) : State := countBy s n ev 1

/-- A line poisoned: record 0x0400 (R233, R306). `origin` 1 to 8. -/
def postPoison (s : State) (unit : Nat) (line : LineAddr) (origin dev pt : Nat) : State :=
  post (if unit < 32 then count s unit 12 else s) 0x0400 unit (addrBytes line ++ b1 origin ++ b1 dev ++ b1 pt)

/-- The fault of a start step: record 0x0807 (R365). -/
def startFault (s : State) (step : Nat) : State :=
  post { s with start := { s.start with faults := s.start.faults ++ [step] } } 0x0807 0x50 (b1 step)

/-- Record a failed access (R39): the first is kept, a later one sets OVF; every one posts its record. -/
def failAccess (s : State) (pa : Nat) (cause src : Nat) : State :=
  let s1 := if isF s F.DIR_ERR_INFO_VALID then flag s F.DIR_ERR_INFO_OVF
    else
      let a := wr (wr s R.DIR_ERR_ADDR_LO (BitVec.ofNat 32 pa)) R.DIR_ERR_ADDR_HI (BitVec.ofNat 32 (pa >>> 32 % 0x4000))
      setF (setF (flag a F.DIR_ERR_INFO_VALID) F.DIR_ERR_INFO_CAUSE cause) F.DIR_ERR_INFO_SRC src
  post s1 0x0102 0x4A (leBytes 8 pa ++ b1 cause ++ b1 src)

end Sys2Proof.Machine
end

