-- ==== Sys2Proof/Machine/Map.lean ====
section
/-! DEFINITION. The address map: regions, home devices, buckets, home slices, set indexes, DRAM addresses and the
outcome of an access the map cannot serve (R28–R38, R68, R98, R219). -/

namespace Sys2Proof.Machine

/-- The attributes of R28. -/
inductive Attr where
  | dram | pmem | device | boot
deriving DecidableEq, Repr

/-- Whether an enabled range word covers a GiB (R30): BASE [14:0], LIM [30:16], EN [31]. -/
def covers (w : Word) (gib : Nat) : Bool :=
  bit w 31 && decide (bits w 0 15 ≤ gib) && decide (gib ≤ bits w 16 15)

/-- The ways of the interleaved range (R31). -/
def ilvWays (s : State) : Nat := if effF s F.DIR_ILV_CFG_WAYS = 1 then 4 else 2

/-- The device that way `n` of the interleave names (R31). -/
def ilvMap (s : State) (n : Nat) : Nat := bits (effWord s R.DIR_ILV_CFG) (8 + 2 * n) 2

/-- The home device of an address in the interleaved range (R31). -/
def ilvDevice (s : State) (pa : Nat) : Nat :=
  let w0 := ((pa >>> 12) ^^^ (pa >>> 21)) % 2
  let w1 := ((pa >>> 13) ^^^ (pa >>> 22)) % 2
  ilvMap s (if ilvWays s = 2 then w0 else 2 * w1 + w0)

/-- The region of an address: its attribute and home device; none where unmapped (R28, R30, R31). -/
def route (s : State) (pa : Nat) : Option (Attr × Nat) :=
  if pa >>> 24 = effF s F.DIR_BOOT_BASE then some (.boot, self s)
  else if pa < 0x200000000000 then
    match (List.range 4).find? (fun d => covers (effWord s (R.DIR_DRNG d)) (pa >>> 30)) with
    | some d => some (.dram, d)
    | none => if covers (effWord s R.DIR_ILV) (pa >>> 30) then some (.dram, ilvDevice s pa) else none
  else if 0x3F0000000000 ≤ pa ∧ pa < 0x3F0040000000 then some (.pmem, (pa - 0x3F0000000000) >>> 28)
  else if 0x3FFE00000000 ≤ pa ∧ pa < 0x3FFE04000000 then some (.device, (pa - 0x3FFE00000000) >>> 24)
  else none

/-- Whether an address lies in some region of R28, mapped or not. -/
def inRegion (s : State) (pa : Nat) : Bool := decide (pa < 0x200000000000) || (route s pa).isSome

/-- The PMEM size in use in bytes (R33, R172). -/
def pmemSize (s : State) : Nat := getF s F.CST_STAT_PMEM_EFF * 0x400000

/-- The channels in use: log2 of their number (R215, R219); CHMODE 3 is taken as 0. -/
def chLog (s : State) : Nat :=
  match effF s (F.MCH_ILV_CHMODE 0) with
  | 1 => 1
  | 2 => 0
  | _ => 2

/-- The installed capacity of the device in bytes: CAP of the channels in use (R219, R238). -/
def installed (s : State) : Nat :=
  sumOf ((List.range (2 ^ chLog s)).map (fun c => getF s (F.MCH_STAT_CAP c))) * 0x40000000

/-- The size of this device's own DRAM range in bytes (R219). -/
def ownSize (s : State) : Nat :=
  let w := effWord s (R.DIR_DRNG (self s))
  if bit w 31 then (bits w 16 15 + 1 - bits w 0 15) * 0x40000000 else 0

/-- The local DRAM address of a physical address (R219). -/
def laOf (s : State) (pa : Nat) : Nat :=
  let own := effWord s (R.DIR_DRNG (self s))
  if covers own (pa >>> 30) then pa - bits own 0 15 * 0x40000000
  else
    let w := if ilvWays s = 2 then 1 else 2
    ownSize s + (((pa - bits (effWord s R.DIR_ILV) 0 15 * 0x40000000) >>> (12 + w)) <<< 12) + pa % 0x1000

/-- Where a local DRAM address lies (R219): channel, subchannel, rank, bank group, bank, row, and the first column of its burst. -/
structure Cell where
  ch   : Nat
  sub  : Nat
  rank : Nat
  bg   : Nat := 0
  ba   : Nat := 0
  row  : Nat := 0
  col  : Nat := 0
deriving DecidableEq, Repr

def cellOf (s : State) (la : Nat) : Cell :=
  let c := chLog s
  let ch := ((la >>> 7) ^^^ (la >>> 17)) % 2 ^ c
  let q := la >>> (7 + c)
  let r := min (effF s (F.MCH_CFG_RANKS ch)) 2
  { ch := ch, sub := (la >>> 6) % 2, rank := (q >>> 12) % 2 ^ r, bg := q % 8, ba := (q >>> 10) % 4, row := q >>> (12 + r),
    col := (q >>> 3) % 128 * 16 }

/-- The bucket of a line (R36). -/
def bucket (l : LineAddr) : Nat :=
  let pa := l.toNat * 64
  ((pa >>> 7) ^^^ (pa >>> 15) ^^^ (pa >>> 23) ^^^ (pa >>> 31)) % 256 ^^^ ((pa >>> 39) % 8)

/-- The home slice of a bucket under the effective table (R37). -/
def homeSlice (s : State) (b : Nat) : Nat := effF s (F.DIR_HT_SLICE b)

/-- The home slice of a line of this device. -/
def homeOf (s : State) (l : LineAddr) : Nat := homeSlice s (bucket l)

/-- The surface set of a line (R68). -/
def setOf (l : LineAddr) : Nat :=
  let pa := l.toNat * 64
  (pa >>> 6) % 2 + 2 * (((pa >>> 15) ^^^ (pa >>> 25)) % 1024)

/-- The directory set of a line (R98). -/
def dsetOf (l : LineAddr) : Nat :=
  let pa := l.toNat * 64
  (pa >>> 6) % 2 + 2 * (((pa >>> 15) ^^^ (pa >>> 26)) % 2048)

/-- The attribute of a line homed here. -/
def attrOf (s : State) (l : LineAddr) : Attr :=
  match route s (l.toNat * 64) with
  | some (a, _) => a
  | none => .dram

/-- A line of the PMEM apertures. -/
def isPmem (l : LineAddr) : Bool := decide (0x3F0000000000 ≤ l.toNat * 64) && decide (l.toNat * 64 < 0x3F0040000000)

/-- The granule of a line (R111). -/
def granule (l : LineAddr) : BitVec 39 := BitVec.ofNat 39 (l.toNat / 2)

/-- The opcodes an attribute accepts (R29); Device lines are served by the CSR root and are not judged here. -/
def accepts (a : Attr) (op : HOp) : Bool :=
  match a, op with
  | .dram, _ => true
  | .pmem, .atomMem => false
  | .pmem, _ => true
  | .device, _ => false
  | .boot, .rdShared => true
  | .boot, .rdOnce => true
  | .boot, .evict => true
  | .boot, .maint 6 => false
  | .boot, .maint _ => true
  | .boot, .sweep => true
  | .boot, .primeFill => true
  | .boot, .evacuate => true
  | .boot, .leave _ => true
  | .boot, _ => false

/-- The lowest of causes 1 to 4 that holds for an access to a line, 0 for none (R38). Cause 3 of a peer's aperture
and cause 1 of a peer's installed capacity are that peer's to find. -/
def mapCause (s : State) (l : LineAddr) (op : HOp) : Nat :=
  let pa := l.toNat * 64
  match route s pa with
  | none => 1
  | some (a, d) =>
    if a = .dram ∧ d = self s ∧ installed s ≤ laOf s pa then 1
    else if a ≠ .boot ∧ present s d = false then 2
    else if a = .pmem ∧ d = self s ∧ pmemSize s ≤ pa % 0x10000000 then 3
    else if accepts a op = false then 4
    else 0

/-- The logical line of a PMEM line of this device (R168, R170). -/
def pmemLine (l : LineAddr) : Nat := l.toNat % 0x400000

/-- The logical line of a line of the boot window in a boot slot (R170): slot A from region 196, B from 212. -/
def bootLine (slot : Nat) (l : LineAddr) : Nat := (196 + 16 * slot) * 16384 + l.toNat % 0x40000

/-- The logical Cistern line behind a PMEM or boot line of this device. -/
def cisLine (s : State) (l : LineAddr) : Nat :=
  if isPmem l then pmemLine l else bootLine s.start.bootSlot l

/-- The physical address of a logical line for a record (R306): a PMEM line's place in the aperture, an active boot
line's place in the window, otherwise the logical number with bit 63 set. -/
def cisAddr (s : State) (n : Nat) : Nat :=
  if n * 64 < pmemSize s then 0x3F0000000000 + self s * 0x10000000 + n * 64
  else if (196 + 16 * s.start.bootSlot) * 16384 ≤ n ∧ n < (212 + 16 * s.start.bootSlot) * 16384 then
    effF s F.DIR_BOOT_BASE * 0x1000000 + (n - (196 + 16 * s.start.bootSlot) * 16384) * 64
  else 0x8000000000000000 + n

end Sys2Proof.Machine
end

