-- ==== Sys2Proof/Machine/Cistern.lean ====
section
/-! DEFINITION. The Cistern: reads and writes of its lines, wear, the governor, the Tier (R168–R192, R229–R232). -/

namespace Sys2Proof.Machine

/-- GEN of the current run (R201, R214). -/
def genNow (s : State) : Nat := getF s F.PMP_DRN_STAT_GEN

/-- The physical region of a logical one (R170): the identity with 229 and 230 exchanged, until moves change it. -/
def physical (s : State) (r : Nat) : Nat :=
  (nget s.cis.map r).getD (if r = 229 then 230 else if r = 230 then 229 else r)

/-- The logical region that a physical region holds, 0xFF for a reserve region (R190). -/
def logicalOf (s : State) (p : Nat) : Nat := ((List.range 240).find? (fun r => decide (physical s r = p))).getD 0xFF

def regionOf (s : State) (p : Nat) : Region := (nget s.cis.regions p).getD {}

/-- The slot of a line of a region (R182). -/
def slotOf (g : Region) (l : Nat) : Nat :=
  let p := (l + g.start) % 16384
  if g.gap ≤ p then p + 1 else p

/-- One gap move (R182). -/
def moveGap (g : Region) : Region :=
  if g.gap = 0 then { g with start := (g.start + 1) % 16384, gap := 16384 } else { g with gap := g.gap - 1 }

/-- The floor of the governor in lines (R187). -/
def govFloor (s : State) : Int := effF s F.WGV_LOW_LOW * 16777216

/-- Credits taken for line writes, and the writes counted (R185, R187, R192): exempt writes from WARN to the seal count in
DRAIN. -/
def takeCredits (s : State) (k : Nat) : State :=
  let l := s.cis.level
  let d := if gated s then s.cis.drain + BitVec.ofNat 48 k else s.cis.drain
  let s1 := { s with cis := { s.cis with level := l - k, total := s.cis.total + BitVec.ofNat 48 k, drain := d } }
  floatFall s1 l (l - k)

/-- The wear of line writes on a physical region: its counter, and the gap moves owed (R182, R183). -/
def wearBy (s : State) (p k : Nat) : State :=
  let g := regionOf s p
  let i := max 1 (effF s F.CST_WL_GAP_INT)
  let g' := { g with wear := (g.wear + k) % 2 ^ 48, since := (g.since + k) % i, owed := g.owed + (g.since + k) / i }
  { s with cis := { s.cis with regions := nset s.cis.regions p g' } }

/-- The line that an unwritten place of the Cistern holds: zero data and valid metadata (R169, R172). -/
def blankLine (s : State) (n : Nat) : CLine := { data := 0, poison := false, seq := (nget s.cis.zeroed (n / 16384)).getD 0 }

def cisGet (s : State) (n : Nat) : CLine := (nget s.cis.lines n).getD (blankLine s n)

/-- The line's content changes; a line at its provisioned value is not listed. -/
def cisSet (s : State) (n : Nat) (c : CLine) : State :=
  { s with cis := { s.cis with lines := if c = blankLine s n then nerase s.cis.lines n else nset s.cis.lines n c } }

/-- The lines that the governor admits without delay (R187): all of an exempt write, those above the floor, and none behind a delayed write. -/
def govRoom (s : State) : Nat :=
  if gated s then 0x10000000000 else if s.cis.queue = [] then (s.cis.level - govFloor s).toNat else 0

/-- A metered write, or what is left of it, joins the governor's queue; its lines count as delayed (R187). -/
def govQueue (s : State) (g : GWrite) : State :=
  let s1 := { s with cis := { s.cis with queue := s.cis.queue ++ [g] } }
  setF s1 F.WGV_DLY_DELAYED (bump 0xFFFFFFFF (getF s1 F.WGV_DLY_DELAYED) g.left)

/-- Line writes into a physical region: wear and credits (R183, R185). -/
def slotWear (s : State) (p k : Nat) : State := if k = 0 then s else takeCredits (wearBy s p k) k

/-- The move whose source is a physical region. -/
def moveFrom (s : State) (p : Nat) : Option Move := (s.cis.moves.find? (fun e => decide (e.2.src = p))).map (fun e => e.2)

/-- How many of `k` lines from line `i` of a region lie below the copy pointer of its move (R183). -/
def belowPointer (m : Move) (i k : Nat) : Nat := if m.copied then k else min k (m.next - i)

/-- Writes below the copy pointer of a move go to the new region too, metered (R183, R187). -/
def twinWear (s : State) (p i k : Nat) : State :=
  match moveFrom s p with
  | none => s
  | some m =>
    let n := belowPointer m i k
    let a := min n (govRoom s)
    let s1 := slotWear s m.dst a
    if a = n then s1 else govQueue s1 { prio := 6, kind := .twin m.dst, left := n - a }

/-- Line writes into a logical region from its line `i` on (R182, R183, R185). -/
def regionWear (s : State) (r i k : Nat) : State :=
  if k = 0 then s else twinWear (slotWear s (physical s r) k) (physical s r) i k

/-- Line writes from a Cistern line on, over up to three regions. -/
def lineWear (s : State) (n k : Nat) : State :=
  let a := min k (16384 - n % 16384)
  let b := min (k - a) 16384
  regionWear (regionWear (regionWear s (n / 16384) (n % 16384) a) (n / 16384 + 1) 0 b) (n / 16384 + 2) 0 (k - a - b)

/-- An admitted line write (R168, R185): content, wear and credit. -/
def cisWrite (s : State) (n : Nat) (c : CLine) : State := lineWear (cisSet s n c) n 1

/-- A write that a home orders carries the current GEN (R169). -/
def cisHomeWrite (s : State) (n : Nat) (data : Line) (poison : Bool) : State :=
  cisWrite s n { data := data, poison := poison, seq := genNow s }

/-- The Cistern line of an offset in the metadata partition (R171). -/
def metaLine (off : Nat) : Nat := 232 * 16384 + off / 64
def wearPlace (i : Nat) : Nat := metaLine (0x780000 + 0x8000 * i)
def confPlace (i : Nat) : Nat := metaLine (0x790000 + 0x8000 * i)
def snapPlace (i : Nat) : Nat := metaLine (0x400000 + 0x1C0000 * i)
def areaPlace (i : Nat) : Nat := metaLine (0x200000 * i)

/-- Which manifest area belongs to this run (R201). -/
def areaIx (s : State) : Nat := if s.mdata.area1.header ∧ s.mdata.area1.gen = genNow s then 1 else 0

def areaOf (s : State) (i : Nat) : Area := if i = 1 then s.mdata.area1 else s.mdata.area0

def setArea (s : State) (i : Nat) (a : Area) : State :=
  { s with mdata := if i = 1 then { s.mdata with area1 := a } else { s.mdata with area0 := a } }

/-- The lines that a record fills where the spec gives no number (log entry 16): at least one. -/
def openLines (s : State) (kind : Nat) : Nat := max 1 (Config.recordLines kind s.fresh)

/-- The later complete copy of a record that is written in turn (R171). -/
def Pair.latest {α : Type} (p : Pair α) (no : α → Nat) : Option α :=
  match p.one, p.two with
  | some a, some b => some (if no a < no b then b else a)
  | some a, none => some a
  | none, b => b

/-- The copy whose turn it is: one that is not complete, else the older. -/
def Pair.turn {α : Type} (p : Pair α) (no : α → Nat) : Nat :=
  match p.one, p.two with
  | some a, some b => if no a < no b then 0 else 1
  | some _, none => 1
  | none, _ => 0

/-- The copy whose turn it is takes a record: the latest complete one stands until then. -/
def Pair.put {α : Type} (p : Pair α) (no : α → Nat) (r : α) : Pair α := if p.turn no = 0 then { p with one := some r } else { p with two := some r }

/-- The latest records (R171). -/
def lastConf (s : State) : ConfRec := (s.mdata.confs.latest ConfRec.no).getD {}
def lastSnap (s : State) : Snap := (s.mdata.snaps.latest Snap.no).getD {}

/-- The wear record as it would be written now, with a region map (R184, R188). -/
def wearNow (s : State) (map : NMap Nat) : WearRec :=
  { no := ((s.mdata.wears.latest WearRec.no).map (fun r => r.no + 1)).getD 0, map := map, regs := s.cis.regions, level := s.cis.level,
    seq := s.ckpt.seq, tb := s.ckpt.tb, phase := s.ckpt.ph }

/-- The configuration record as it would be written now (R171, R172, R192, R218). -/
def confNow (s : State) : ConfRec :=
  let old := lastConf s
  { no := old.no + 1, split := effF s F.CST_SPLIT_PMEM, total := s.cis.total, drain := s.cis.drain,
    trained := (List.range 4).foldl (fun t c => match (chan s c).trained with
      | some w => nset t c w
      | none => t) old.trained }

/-- A complete wear record, or configuration record, stands (R171, R184). -/
def wearPut (s : State) (map : NMap Nat) : State := { s with mdata := { s.mdata with wears := s.mdata.wears.put WearRec.no (wearNow s map) } }
def confPut (s : State) : State := { s with mdata := { s.mdata with confs := s.mdata.confs.put ConfRec.no (confNow s) } }

/-- The gap of a region moves by one slot (R182): one line write. -/
def gapWrite (s : State) (p : Nat) : State :=
  let g := moveGap (regionOf s p)
  takeCredits { s with cis := { s.cis with regions := nset s.cis.regions p { g with wear := (g.wear + 1) % 2 ^ 48 } } } 1

/-- The record of a region move's new map was written (R183). -/
def mapRecorded (s : State) (d : Nat) : State :=
  match nget s.cis.moves d with
  | some m => { s with cis := { s.cis with moves := nset s.cis.moves d { m with recorded := true } } }
  | none => s

/-- The copy of a region move has ended: the record of the new map is written, metered (R183, R187). -/
def mapWrite (s : State) (d : Nat) : State :=
  let k := openLines s 0
  let at' := wearPlace (s.mdata.wears.turn WearRec.no)
  let s1 := freshen s
  let a := min k (govRoom s1)
  let s2 := lineWear s1 at' a
  if a = k then mapRecorded s2 d else govQueue s2 { prio := 3, kind := .mapRecord d, left := k - a, place := some (at' + a) }

/-- Lines of a region move are copied in order behind the copy pointer (R183). -/
def copyLines (s : State) (d k : Nat) : State :=
  match nget s.cis.moves d with
  | some m =>
    let s1 := slotWear s m.dst k
    { s1 with cis := { s1.cis with moves := nset s1.cis.moves d { m with next := m.next + k, copied := decide (16384 ≤ m.next + k) } } }
  | none => s

/-- The region of copy 1, A, or 2, B, of the settings store that is active, or its spare (R189). -/
def storeRegion (c : Nat) (x : JCopy) (spare : Bool) : Nat := 226 + 2 * c + (if spare then 1 - x.region else x.region)

/-- The records of a job, numbered on from the last (R189). -/
def numberRecs (seq : Nat) (vals : List JVal) : List JRec :=
  (vals.zipIdx).map (fun v => { val := v.1, seq := (seq + 1 + v.2) % 0x100000000 })

/-- A copy of the journal with a job's records (R189): in its active region, or, of a snapshot, in its spare one. -/
def JCopy.add (x : JCopy) (seq : Nat) (j : Job) : JCopy :=
  if j.snap then { x with spare := some (numberRecs seq j.vals, j.lines) }
  else { x with recs := x.recs ++ numberRecs seq j.vals, used := x.used + j.lines }

/-- The first job's records stand in a copy, whose confirmation is awaited. -/
def storeWritten (s : State) (c : Nat) : State :=
  match s.journal.jobs with
  | [] => s
  | j :: _ =>
    let y := { s.journal with waiting := true }
    { s with journal := if c = 1 then { y with copyA := y.copyA.add y.seq j } else { y with copyB := y.copyB.add y.seq j } }

/-- A run of a list of bytes replaced, with zeros where the list was shorter. -/
def patch (old : List Byte) (off : Nat) (bs : List Byte) : List Byte :=
  (old ++ List.replicate (off - old.length) 0).take off ++ bs ++ old.drop (off + bs.length)

/-- The image of a firmware slot (R341, R411). -/
def fwImage (s : State) (k : Nat) : List Byte := if (fwOf s k).shipped then Config.shippedImage else (fwOf s k).image

/-- What a metered write does once its last line is admitted (R182, R183, R187–R189, R341). -/
def writeDone (s : State) (g : GWrite) : State :=
  match g.kind with
  | .evb n l =>
    let mine := fun (e : Evb) => decide (e.line = l) && e.delayed
    match (slice s n).evb.find? mine with
    | some e =>
      let s1 := cisHomeWrite s (pmemLine l) e.data e.poison
      setSlice s1 n { slice s1 n with evb := updOne mine (fun q => { q with writing := true, delayed := false }) (slice s1 n).evb }
    | none => s
  | .clean n l =>
    let mine := fun (c : Cleaning) => decide (c.line = l) && !c.admitted
    match (slice s n).cleans.find? mine with
    | some c =>
      let s1 := cisHomeWrite (if c.pump then count s n 8 else s) (pmemLine l) c.data c.poison
      setSlice s1 n { slice s1 n with cleans := updOne mine (fun q => { q with admitted := true }) (slice s1 n).cleans }
    | none => s
  | .direct n l =>
    let mine := fun (m : Mshr) => decide (m.req.line = l) && decide (m.wait = .confirm) && !m.admitted
    match (slice s n).mshrs.find? mine with
    | some m => match m.stored with
      | some v =>
        let s1 := cisHomeWrite s (pmemLine l) v.1 v.2
        setSlice s1 n { slice s1 n with mshrs := updOne mine (fun q => { q with admitted := true }) (slice s1 n).mshrs }
      | none => s
    | none => s
  | .corrective n => push (cisWrite s n (cisGet s n)) (.fixed n)
  | .checkpoint => if s.ckpt.phase = 1 then { s with ckpt := { s.ckpt with record := true } } else s
  | .mapRecord d => mapRecorded s d
  | .conf => confPut s
  | .bootSlot n d => cisWrite s n { data := d, poison := false, seq := genNow s }
  | .gap p => gapWrite s p
  | .remap ix => match nget s.cis.remaps ix with
    | some r => takeCredits { s with cis := { s.cis with remaps := nset s.cis.remaps ix { r with pend := false } } } 1
    | none => s
  | .region d => mapWrite s d
  | .settings c => storeWritten s c
  | .lines => s
  | .twin _ => s
  | .fwHead k act good tried => setFw s k { fwOf s k with act := act, good := good, tried := tried }
  | .fwData k off bs => setFw s k { fwOf s k with image := patch (fwImage s k) off bs, shipped := false }

/-- Lines of a write are admitted: those of a record are charged where they lie; a write of one line charges itself when it is done. -/
def admitLines (s : State) (g : GWrite) (k : Nat) : State :=
  match g.kind, g.place with
  | .twin p, _ => slotWear s p k
  | .fwHead _ _ _ _, _ => takeCredits s k
  | .fwData _ _ _, _ => takeCredits s k
  | .region d, _ => copyLines s d k
  | _, some n => lineWear s n k
  | _, none => s

/-- What is left of a write after `k` lines of it. -/
def GWrite.rest (g : GWrite) (k : Nat) : GWrite := { g with left := g.left - k, place := g.place.map (fun n => n + k) }

/-- A metered write (R185, R187): what the governor has room for is admitted at once, and the rest of it waits. -/
def meter (s : State) (g : GWrite) : State :=
  let k := min g.left (govRoom s)
  let s1 := admitLines s g k
  if k = g.left then writeDone s1 g else govQueue s1 (g.rest k)

/-- A record of some lines is written into the area of this run, metered (R187, R201). -/
def areaWrite (s : State) (k : Nat) (f : Area → Area) : State :=
  meter (setArea s (areaIx s) (f (areaOf s (areaIx s)))) { prio := 3, kind := .lines, left := k, place := some (areaPlace (areaIx s)) }

/-- Chiso goes on with its first write to the settings store (R189): copy A first. -/
def journalTend (s : State) : State :=
  match s.journal.jobs with
  | [] => s
  | j :: _ =>
    if s.journal.stage ≠ 0 ∨ chisoRuns s = false then s
    else meter { s with journal := { s.journal with stage := 1 } }
      { prio := 3, kind := .settings 1, left := j.lines,
        place := some (storeRegion 1 s.journal.copyA j.snap * 16384 + (if j.snap then 0 else s.journal.copyA.used)) }

/-- Chiso writes records to the settings store (R189). -/
def journalNote (s : State) (vals : List JVal) : State :=
  journalTend { freshen s with journal := { s.journal with jobs := s.journal.jobs ++ [{ vals := vals, lines := openLines s 5 }] } }

/-- The partition lines: the Tier's first logical line and its size in lines (R170, R172, R180). -/
def tierBase (s : State) : Nat := getF s F.CST_STAT_PMEM_EFF * 65536
def tierSize (s : State) : Nat := (49 - getF s F.CST_STAT_PMEM_EFF) * 65536

/-- Whether the Tier is in use (R25, R180). -/
def tierOn (s : State) : Bool := decide (effF s F.CST_CTL_TIER_EN = 1) && decide (0 < tierSize s) && cisUp s

/-- Probe the Tier for a DRAM line: a hit gives the Cistern line and what it holds, and clears the valid bit (R180). -/
def tierProbe (s : State) (l : LineAddr) : Option (Nat × CLine) × State :=
  if tierOn s then
    let slot := l.toNat % tierSize s
    if nget s.cis.tier slot = some (l.toNat / tierSize s) then
      (some (tierBase s + slot, cisGet s (tierBase s + slot)), { s with cis := { s.cis with tier := nerase s.cis.tier slot } })
    else (none, s)
  else (none, s)

/-- The valid bit of a DRAM line's slot clears, whichever line it holds (R181). -/
def tierClear (s : State) (l : LineAddr) : State :=
  if 0 < tierSize s then { s with cis := { s.cis with tier := nerase s.cis.tier (l.toNat % tierSize s) } } else s

/-- Whether the governor admits a metered write without delay (R187). -/
def govOpen (s : State) : Bool := decide (0 < govRoom s)

/-- A clean DRAM victim is written to the Tier, or the fill is dropped (R181). -/
def tierFill (s : State) (l : LineAddr) (data : Line) : State :=
  if effF s F.CST_CTL_TIER_EN = 1 ∧ 0 < tierSize s then
    if quiet s ∨ ¬ cisUp s ∨ gated s ∨ ¬ govOpen s then flag s F.WGV_STAT_TIERDROP
    else
      let slot := l.toNat % tierSize s
      let s1 := cisWrite s (tierBase s + slot) { data := data, poison := false, seq := 0 }
      { s1 with cis := { s1.cis with tier := nset s1.cis.tier slot (l.toNat / tierSize s) } }
  else s

/-- The unit of a physical region's die (R305). -/
def dieUnit (p : Nat) : Nat := 0x38 + p % 2

/-- A location corrected again: its count in the 16-entry history, the oldest replaced first (R230). -/
def histBump (h : List (Nat × Nat)) (loc : Nat) : List (Nat × Nat) × Nat :=
  match h.find? (fun e => decide (e.1 = loc)) with
  | some e => (updOne (fun x => decide (x.1 = loc)) (fun x => (x.1, x.2 + 1)) h, e.2 + 1)
  | none => ((if h.length < 16 then h else h.drop 1) ++ [(loc, 1)], 1)

/-- The word CST_LOC gives for a physical slot (R240). -/
def locWord (p slot : Nat) : Nat := p + slot * 256

/-- A Cistern repair candidate: CST_LOC and record 0x0405 (R230). -/
def cisCandidate (s : State) (p slot : Nat) : State :=
  post (wr s R.CST_LOC (BitVec.ofNat 32 (locWord p slot))) 0x0405 (dieUnit p) (leBytes 4 (locWord p slot))

/-- A read of a Cistern line (R169, R208, R229): data, poison, whether it was corrected and whether uncorrectable.
Up to 6 error bits are corrected and a corrective write queued; an error in the ACHK bytes alone beyond that is an
address check failure, any other an uncorrectable read, and the slot is rewritten poisoned (log entry 15), unless it
was written since. -/
structure CRead where
  data   : Line
  poison : Bool
  corr   : Bool
  ue     : Bool

/-- Record the first uncorrectable line in CST_ERR_LINE (R190). -/
def cisUeLine (s : State) (n : Nat) : State :=
  if isF s F.CST_ERR_UE ∨ isF s F.CST_ERR_ACHK then s else setF s F.CST_ERR_LINE_LINE n

/-- Whether a line's SEQ lies from the first suspect generation to the current one (R208). -/
def seqFresh (s : State) (seq : Nat) : Bool :=
  decide ((seq + 2 ^ 24 - getF s F.PMP_RST_STAT_GS) % 2 ^ 24 ≤ (genNow s + 2 ^ 24 - getF s F.PMP_RST_STAT_GS) % 2 ^ 24)

/-- A corrective write, metered like any other (R169, R187). -/
def corrective (s : State) (n : Nat) : State := meter s { prio := 3, kind := .corrective n }

/-- A line of a suspect aperture reads poisoned (R208): its record (R233) has the origin of the classification that made it suspect (log entry
117). -/
def suspectRead (s : State) (p n : Nat) (hit : Bool) : State :=
  if hit then post s 0x0400 (dieUnit p) (leBytes 8 (cisAddr s n) ++ b1 7 ++ b1 (self s) ++ b1 0xFF) else s

/-- The controller decodes what a read of a Cistern line gave, `c`, with an error pattern (R169, R208, R229, R230). -/
def cisDecode (s : State) (n : Nat) (c : CLine) (e : BitVec 640) : CRead × State :=
  let p := physical s (n / 16384)
  let slot := slotOf (regionOf s p) (n % 16384)
  let k := popcount e
  let suspect := decide (getF s F.PMP_RST_STAT_SUSPECT = 1) && decide (n * 64 < pmemSize s) && !(seqFresh s c.seq)
  let hit := suspect && !c.poison
  if k = 0 then ({ data := c.data, poison := c.poison || suspect, corr := false, ue := false }, suspectRead s p n hit)
  else if k ≤ 6 then
    let h := histBump ((nget s.cis.locs (p % 2)).getD []) (locWord p slot)
    let s1 := { flag s F.CST_ERR_CE with cis := { s.cis with locs := nset s.cis.locs (p % 2) h.1 } }
    let s2 := if 4 ≤ k ∨ h.2 = 3 then cisCandidate s1 p slot else s1
    ({ data := c.data, poison := c.poison || suspect, corr := true, ue := false }, corrective (suspectRead s2 p n hit) n)
  else
    let achk := decide (bits e 32 608 = 0)
    let d := c.data ^^^ BitVec.ofNat 512 (bits e 128 512)
    let s1 := cisUeLine s n
    let s2 := if achk then flag s1 F.CST_ERR_ACHK else flag s1 F.CST_ERR_UE
    let same := decide (cisGet s n = c)
    let s3 := if same then cisSet s2 n { data := d, poison := true, seq := genNow s } else s2
    let a := cisAddr s3 n
    let s4 := post s3 0x0400 (dieUnit p) (leBytes 8 a ++ b1 (if achk then 5 else 4) ++ b1 (self s) ++ b1 0xFF)
    let s5 := cisCandidate s4 p slot
    ({ data := d, poison := true, corr := false, ue := true }, if same then corrective s5 n else s5)

/-- A read of a Cistern line as it stands. -/
def cisRead (s : State) (n : Nat) (e : BitVec 640) : CRead × State := cisDecode s n (cisGet s n) e

end Sys2Proof.Machine
end

