-- ==== Sys2Proof/Machine/Dram.lean ====
section
/-! DEFINITION. The memory channels: reads with the chip-failure code, marks, writes (R217–R226, R237). -/

namespace Sys2Proof.Machine

/-- Whether a channel serves: on, clocked and READY (R218, R272). -/
def chanServes (s : State) (c : Nat) : Bool := chanUp s c && decide (getF s (F.MCH_STAT_STATE c) = 2)

/-- The channel of a DRAM line of this device. -/
def chanOf (s : State) (l : LineAddr) : Nat := (cellOf s (laOf s (l.toNat * 64))).ch

/-- The index of a rank and subchannel in MCH_MARK (R238). -/
def markIx (c : Cell) : Nat := 4 * c.sub + c.rank

/-- The marked device of a rank and subchannel, if any (R224). -/
def markedDev (s : State) (c : Cell) : Option Nat :=
  if isF s (F.MCH_MARK_VALID c.ch (markIx c)) then some (getF s (F.MCH_MARK_DEV c.ch (markIx c))) else none

/-- The index of a device's counters. -/
def devIx (c : Cell) (d : Nat) : Nat := 10 * markIx c + d

/-- A device is marked: the mark, its flag and its record; Chiso records it in the settings store, or does so once it runs (R224, R287). -/
def markDevice (s : State) (c : Cell) (d : Nat) (hw : Bool) : State :=
  let s1 := setF (setF (setF s (F.MCH_MARK_DEV c.ch (markIx c)) d) (F.MCH_MARK_VALID c.ch (markIx c)) 1)
    (F.MCH_MARK_HW c.ch (markIx c)) (b2n hw)
  let s2 := journalNote { s1 with journal := { s1.journal with marks := nset s1.journal.marks (8 * c.ch + markIx c) d } } [.mark (8 * c.ch + markIx c) (some d)]
  post (flag s2 (F.MCH_ERR_MARKED c.ch)) 0x0402 (0x30 + c.ch) (b1 c.sub ++ b1 c.rank ++ b1 d ++ b1 (b2n hw))

/-- A corrected read (R224, R237): counters, the record of every 1,024th, and the automatic mark. -/
def corrected (s : State) (c : Cell) (d words : Nat) : State :=
  let x := chan s c.ch
  let lk := bump 0xFF ((nget x.leaky (devIx c d)).getD 0) 1
  let x' := { x with leaky := nset x.leaky (devIx c d) lk,
                     total := nset x.total (devIx c d) (bump 0xFFFFFF ((nget x.total (devIx c d)).getD 0) 1),
                     corr := x.corr + 1 }
  let s1 := setChan s c.ch x'
  let s2 := setF (flag s1 (F.MCH_ERR_CE c.ch)) (F.MCH_CE_CNT_COUNT c.ch) (bump 0xFFFFFFFF (getF s1 (F.MCH_CE_CNT_COUNT c.ch)) 1)
  let s3 := if x'.corr % 1024 = 0 then post s2 0x0404 (0x30 + c.ch) (b1 c.ch ++ leBytes 4 x'.corr) else s2
  if isF s3 (F.MCH_MARK_CFG_AUTO c.ch) ∧ markedDev s3 c = none ∧
      (rangedF s3 (F.MCH_MARK_CFG_THR c.ch) ≤ lk ∨ 4 ≤ words) then markDevice s3 c d true
  else s3

/-- An uncorrectable read (R226, R237): the count, the first one's place, the record of the poisoned line. -/
def uncorrectable (s : State) (c : Cell) (l : LineAddr) (kind : Nat) : State :=
  let s0 := setF s (F.MCH_UE_CNT_COUNT c.ch) (bump 0xFFFFFFFF (getF s (F.MCH_UE_CNT_COUNT c.ch)) 1)
  let s1 := if isF s0 (F.MCH_ERR_UE c.ch) then flag s0 (F.MCH_ERR_OVF c.ch)
    else
      let a := setF (setF (setF s0 (F.MCH_UE_INFO_SUB c.ch) c.sub) (F.MCH_UE_INFO_RANK c.ch) c.rank) (F.MCH_UE_INFO_KIND c.ch) kind
      let b := wr (wr a (R.MCH_UE_ADDR_LO c.ch) (BitVec.ofNat 32 (l.toNat * 64))) (R.MCH_UE_ADDR_HI c.ch)
        (BitVec.ofNat 32 (l.toNat >>> 26))
      flag b (F.MCH_ERR_UE c.ch)
  postPoison s1 (0x30 + c.ch) l 1 (self s) 0xFF

/-- What a DRAM read gives (R226). -/
structure DRead where
  data   : Line
  poison : Bool
  corr   : Bool := false
  ue     : Bool := false
  write  : Bool := false

/-- A DRAM write of a line (R181, R220, R221, R226): the line encoded and stored, and the Tier's slot cleared. -/
def dramWrite (s : State) (l : LineAddr) (data : Line) (poison : Bool) : State :=
  tierClear { s with dram := nset s.dram (laOf s (l.toNat * 64) / 64) { data := data, poison := poison, chk := lineCheck data poison } } l

/-- The stored line; a line nothing has written holds a free value (R19; log entry 12). -/
def dramGet (s : State) (l : LineAddr) : DLine :=
  let k := laOf s (l.toNat * 64) / 64
  (nget s.dram k).getD { data := Config.dramUndefined k s.fresh, poison := false, chk := lineCheck (Config.dramUndefined k s.fresh) false }

/-- A read the home issues to DRAM, decoded and followed up (R222–R226). The write-back of a corrected or uncorrectable
line is made here, with the Tier's slot cleared, and confirmed before the MSHR closes. The decoder works on the error alone: the syndromes of a
stored line as it is read are those of the error and the poison pattern, since the encoder makes both zero (R220, R221). -/
def dramRead (s : State) (l : LineAddr) (e : BitVec 640) : DRead × State :=
  let c := cellOf s (laOf s (l.toNat * 64))
  let d := dramGet s l
  let s0 := freshen s
  let r := rsDecode d.poison e (markedDev s c)
  let data := d.data ^^^ lineErr r.err
  if r.kind ≠ 0 then
    let s1 := uncorrectable s0 c l r.kind
    ({ data := data, poison := true, ue := true, write := true },
      dramWrite s1 l data true)
  else
    match r.device with
    | some k =>
      let s1 := corrected s0 c k r.words
      ({ data := data, poison := r.poison, corr := true, write := true },
        dramWrite s1 l data r.poison)
    | none => ({ data := data, poison := r.poison }, s0)

end Sys2Proof.Machine
end

