-- ==== Sys2Proof/Machine/Slice.lean ====
section
/-! DEFINITION. What a slice holds and how it places lines: age orders, tag and directory entries, allotments, remap
entries, the eviction buffer, the directory, reservations, upsets of its storage (R68–R90, R98–R99, R111, R112, R133,
R173–R177, R227, R228, R230, R231). -/

namespace Sys2Proof.Machine

/-- The bit of the age matrix for ways i < j (R74). -/
def ageBit (i j : Nat) : Nat := i * (31 - i) / 2 + (j - i - 1)

/-- Way `a` is more recent than way `b` (R74). -/
def newer (m : BitVec 120) (a b : Nat) : Bool := if a < b then bit m (ageBit a b) else !(bit m (ageBit b a))

/-- Make a way the newest of its set (R75). -/
def touchAge (m : BitVec 120) (w : Nat) : BitVec 120 :=
  (List.range 16).foldl (fun m j => if j < w then clrBit m (ageBit j w) else if w < j then setBit m (ageBit w j) else m) m

/-- Make a way the oldest of its set (R75). -/
def oldestAge (m : BitVec 120) (w : Nat) : BitVec 120 :=
  (List.range 16).foldl (fun m j => if j < w then setBit m (ageBit j w) else if w < j then clrBit m (ageBit w j) else m) m

/-- The oldest way of a candidate set (R76). -/
def oldestOf (m : BitVec 120) (c : List Nat) : Option Nat :=
  c.find? (fun v => c.all (fun j => decide (j = v) || newer m j v))

/-- A family of age matrices with one set; a zero matrix is not listed. -/
def putAge (a : NMap (BitVec 120)) (set : Nat) (m : BitVec 120) : NMap (BitVec 120) :=
  if m = 0 then nerase a set else nset a set m

/-- Touch the way with a key, set × 16 + way. -/
def touchWay (x : Slice) (k : Nat) : Slice :=
  { x with ages := putAge x.ages (k / 16) (touchAge ((nget x.ages (k / 16)).getD 0) (k % 16)) }

/-- Make the way with a key oldest. -/
def sinkWay (x : Slice) (k : Nat) : Slice :=
  { x with ages := putAge x.ages (k / 16) (oldestAge ((nget x.ages (k / 16)).getD 0) (k % 16)) }

def touchDir (x : Slice) (k : Nat) : Slice :=
  { x with dages := putAge x.dages (k / 16) (touchAge ((nget x.dages (k / 16)).getD 0) (k % 16)) }

/-- The keys of the ways of a set. -/
def keysOf (set : Nat) : List Nat := (List.range 16).map (fun w => set * 16 + w)

/-- The way that holds a line, fill-pending ways apart. -/
def findWay (x : Slice) (l : LineAddr) : Option Nat :=
  (keysOf (setOf l)).find? (fun k => match nget x.ways k with
    | some v => decide (v.line = l) && !v.pend
    | none => false)

/-- The directory way that holds a line's entry. -/
def findDir (x : Slice) (l : LineAddr) : Option Nat :=
  (keysOf (dsetOf l)).find? (fun k => match nget x.dir k with
    | some d => decide (d.line = l)
    | none => false)

/-- The directory entry of a line: DI where none stands. -/
def dirOf (x : Slice) (l : LineAddr) : Dir :=
  match findDir x l with
  | some k => (nget x.dir k).getD { line := l, dst := 0 }
  | none => { line := l, dst := 0 }

/-- A way made invalid holds nothing (R69) and is the oldest (R75). -/
def dropWay (x : Slice) (k : Nat) : Slice := sinkWay { x with ways := nerase x.ways k } k

def setWay (x : Slice) (k : Nat) (w : Way) : Slice := { x with ways := nset x.ways k w }

/-- The 40 data bits of a tag entry (R69). -/
def tagData (w : Way) : Nat :=
  ((w.line.toNat >>> 19) <<< 8) + (w.line.toNat >>> 1) % 256
  + (if w.pend then 3 else if w.dirty then 2 else 1) <<< 29
  + b2n w.p <<< 31 + b2n w.lock <<< 32 + (w.allot % 8) <<< 33 + b2n w.poison <<< 36 + b2n w.boot <<< 37

/-- A tag entry as it is stored, with its check bits and the upsets of the way (R69, R412). -/
def tagWord (x : Slice) (k : Nat) : BitVec 47 :=
  let v := match nget x.ways k with
    | some w => tagData w + secdedCheck 40 6 (tagData w) <<< 40
    | none => 0
  x.upsets.foldl (fun v f => match f with
    | .tag s w b => if s.toNat * 16 + w.toNat = k then v ^^^ b else v
    | _ => v) (BitVec.ofNat 47 v)

/-- PDIRTY: dirty persistent ways and eviction-buffer entries (R173). -/
def pdirty (x : Slice) : Nat :=
  (x.ways.filter (fun e => e.2.p && e.2.dirty)).length + (x.evb.filter (fun e => e.p)).length

/-- LOCKED of SLC_OCC (R95). -/
def lockedWays (x : Slice) : Nat := (x.ways.filter (fun e => e.2.lock)).length

/-- OWN[a] (R176). -/
def ownOf (x : Slice) (a : Agent) : Nat :=
  (x.dir.filter (fun e => decide (e.2.dst = 3 ∨ e.2.dst = 4) && isPmem e.2.line && decide (e.2.hld = some a))).length

/-- ΣOWN (R176). -/
def ownAll (x : Slice) : Nat :=
  (x.dir.filter (fun e => decide (e.2.dst = 3 ∨ e.2.dst = 4) && isPmem e.2.line && e.2.hld.isSome)).length

/-- A slice's share of PDQ, its share of OWNQ, and its pool (R173, R176). -/
def pdqShare (s : State) : Nat := effF s F.PMP_PDQ_LINES * 32
def ownShare (s : State) : Nat := effF s F.PMP_OWNQ_LINES * 8
def ownPool (s : State) : Nat := effF s F.PMP_OWNQ_LINES * 48

/-- A bucket marked for evacuation in the effective mask of a slice (R283). -/
def marked (s : State) (n : Nat) (l : LineAddr) : Bool :=
  (effF s (F.SLC_EVAC_BKT n (bucket l / 32))).testBit (bucket l % 32)

/-- Whether the slice caches a line: ENABLED, and its bucket not marked (R94, R163, R283). -/
def caches (s : State) (n : Nat) (l : LineAddr) : Bool := decide (slcState s n = 2) && !(marked s n l)

/-- A register of the allotment set as a request of an epoch sees it (R302). -/
def allotWord (s : State) (n epoch off : Nat) : Word :=
  match (slice s n).oldSet with
  | some (e, m) => if e = epoch then (nget m off).getD (effWord s off) else effWord s off
  | none => effWord s off

/-- The allocating source of a requester (R87). -/
def sourceOf (r : HReq) : Nat :=
  match r.link, r.who with
  | some l, _ => 6 + l
  | none, .agent a => a.port
  | none, .host => 9
  | none, .dma _ => 9
  | none, .prime => 11
  | none, _ => 10

/-- The source a request allocates for: a stash that names a port of this device takes that port's (R87). -/
def allocSource (s : State) (r : HReq) : Nat :=
  if r.op = .stashWr ∧ bits r.arg 0 3 < 6 ∧ bits r.arg 3 2 = self s then bits r.arg 0 3 else sourceOf r

/-- The allotment of a source (R87). -/
def allotOf (s : State) (n epoch src : Nat) : Nat :=
  if src < 8 then bits (allotWord s n epoch (R.SLC_ASRC0 n)) (4 * src) 3
  else bits (allotWord s n epoch (R.SLC_ASRC1 n)) (4 * (src - 8)) 3

/-- Whether a way is out of service: a remap entry names it, or an uncorrectable tag took it (R228, R231). -/
def outOfService (s : State) (n k : Nat) : Bool :=
  (List.range 8).any (fun i =>
    let w := raw s (R.SLC_RMAP n i)
    (bit w 31 || bit w 30) && decide (bits w 0 11 = k / 16) && decide (bits w 12 4 = k % 16))
  || (slice s n).gone.contains k

/-- Whether an allotment's mask names a way, for a request (R87). -/
def inMask (s : State) (n : Nat) (r : HReq) (w : Nat) : Bool :=
  bit (allotWord s n r.epoch (R.SLC_AMASK n (allotOf s n r.epoch (allocSource s r)))) w

/-- Whether a way may hold locked lines (R90). -/
def lockable (s : State) (n : Nat) (r : HReq) (w : Nat) : Bool :=
  bit (allotWord s n r.epoch (R.SLC_LOCKW n)) w

/-- What the search for a way gives (R76, R80): a way; no way at all; or a wait for a fill or an eviction-buffer entry. -/
inductive Room where
  | way (k : Nat)
  | none
  | wait
deriving DecidableEq, Repr

/-- The way chosen for an allocation among the ways `ok` names (R76). -/
def chooseWay (s : State) (n : Nat) (l : LineAddr) (ok : Nat → Bool) : Room :=
  let x := slice s n
  let mask := (keysOf (setOf l)).filter (fun k => ok (k % 16))
  let c := mask.filter (fun k => !(outOfService s n k) && (match nget x.ways k with
    | some v => !v.lock && !v.pend
    | none => true))
  match c.find? (fun k => (nget x.ways k).isNone) with
  | some k => .way k
  | none =>
    match oldestOf ((nget x.ages (setOf l)).getD 0) (c.map (· % 16)) with
    | some w =>
      let k := setOf l * 16 + w
      match nget x.ways k with
      | some v => if v.dirty ∧ 16 ≤ x.evb.length then .wait else .way k
      | none => .way k
    | none => if mask.any (fun k => match nget x.ways k with
        | some v => v.pend
        | none => false) then .wait else .none

/-- An entry of the eviction buffer for a line, in WAIT or WRITING. -/
def evbOf (x : Slice) (l : LineAddr) : Option Evb := x.evb.find? (fun e => decide (e.line = l))

/-- A dirty line joins the eviction buffer in WAIT (R80). -/
def pushEvb (x : Slice) (w : Way) : Slice :=
  { x with evb := x.evb ++ [{ line := w.line, data := w.data, p := w.p, poison := w.poison }] }

/-- A dirty line leaves the surface (R80, R389): into the eviction buffer, or, from WARN, discarded where it is no persistent one (R198). -/
def pushOut (s : State) (n : Nat) (w : Way) : State :=
  if !w.p && gated s then s else count (setSlice s n (pushEvb (slice s n) w)) n 7

/-- The word SLC_SBE_LOC gives for a location (R239). -/
def sbeWord (set way chunk : Nat) (tag : Bool) : Nat := set + way <<< 11 + chunk <<< 15 + b2n tag <<< 17

/-- A repair candidate of a slice: SLC_SBE_LOC and record 0x0405 (R230). -/
def slcCandidate (s : State) (n loc : Nat) : State :=
  post (wr s (R.SLC_SBE_LOC n) (BitVec.ofNat 32 loc)) 0x0405 n (leBytes 4 loc)

/-- A corrected single-bit error: SBE, and a candidate at the third read (R227, R228, R230). -/
def slcCorrected (s : State) (n loc : Nat) : State :=
  let s1 := flag s (F.SLC_ERR_SBE n)
  let x := slice s1 n
  let h := histBump x.hist loc
  let s2 := setSlice s1 n { x with hist := h.1 }
  if h.2 = 3 then slcCandidate s2 n loc else s2

/-- The errors of stored words, by place: a word is read as it stands, with all that befell its bits together (R412). -/
def sumErrors (fs : List (Nat × Nat)) : NMap Nat := fs.foldl (fun m f => nset m f.1 (Nat.xor ((nget m f.1).getD 0) f.2)) []

/-- The chunk of a way that an upset befell. -/
def chunkOf (k : Nat) : Flip → Option (Nat × Nat)
  | .chunk st w i b => if st.toNat * 16 + w.toNat = k then some (i.toNat, b.toNat) else none
  | _ => none

/-- A way's data are written whole: no error of what its chunks held stays. -/
def fresh (x : Slice) (k : Nat) : Slice := { x with upsets := x.upsets.filter (fun f => (chunkOf k f).isNone) }

/-- A way takes a line with its data. -/
def newWay (x : Slice) (k : Nat) (w : Way) : Slice := setWay (fresh x k) k w

/-- Bits of a line's chunk that a mask of stored bits flips. -/
def chunkMask (i : Nat) (b : Nat) : Line := BitVec.ofNat 512 ((b % 2 ^ 128) <<< (128 * i))

/-- A chunk of a way that is read (R227, R412): corrected; or, beyond correction, the way dropped when it is not dirty, else poisoned. -/
def readChunk (s : State) (n k : Nat) (e : Nat × Nat) : State :=
  let x := slice s n
  let at' := sbeWord (k / 16) (k % 16) e.1 false
  match nget x.ways k, (secdedDecode 128 8 e.2).1 with
  | none, _ => s
  | some _, .clean => s
  | some _, .corrected => slcCorrected s n at'
  | some v, .uncorrectable =>
    if v.dirty then
      let s1 := setSlice s n (setWay x k { v with poison := true, data := v.data ^^^ chunkMask e.1 e.2 })
      slcCandidate (postPoison (flag s1 (F.SLC_ERR_UE n)) n v.line 2 (self s) 0xFF) n at'
    else slcCandidate (setSlice s n (dropWay x k)) n at'

/-- A read of a way's data (R227): by a request that hits, an eviction, a cleaning or a move. A way that is filling holds none. -/
def readChunks (s : State) (n k : Nat) : State :=
  let x := slice s n
  match nget x.ways k with
  | some v => if v.pend then s else (sumErrors (x.upsets.filterMap (chunkOf k))).foldl (fun s e => readChunk s n k e) (setSlice s n (fresh x k))
  | none => s

/-- The line of the way with a key is read, where it is resident. -/
def readResident (s : State) (n : Nat) (l : LineAddr) : State :=
  match findWay (slice s n) l with
  | some k => readChunks s n k
  | none => s

/-- The victim of a way leaves it: to the eviction buffer if dirty, else dropped, which offers a clean DRAM line to the
Tier (R80, R181). Its data are read (R227). -/
def evictWay (s0 : State) (n k : Nat) : State :=
  let s := readChunks s0 n k
  let x := slice s n
  match nget x.ways k with
  | none => s
  | some v =>
    let s1 := setSlice s n { x with ways := nerase x.ways k }
    if v.dirty then pushOut s1 n v else if v.p || v.boot || v.poison then s1 else tierFill s1 v.line v.data

/-- A walk takes the line of a way out of the surface (R163, R283): dirty, to the eviction buffer, else dropped; the way is oldest. -/
def walkWay (s0 : State) (n k : Nat) : State :=
  let s := readChunks s0 n k
  match nget (slice s n).ways k with
  | none => s
  | some v => let s1 := setSlice s n (dropWay (slice s n) k)
              if v.dirty then pushOut s1 n v else s1

/-- Reserve a way for a line: its victim leaves, and its ST reads 3 (R77). -/
def reserveWay (s : State) (n k : Nat) (l : LineAddr) : State :=
  let s1 := evictWay s n k
  setSlice s1 n (setWay (slice s1 n) k { line := l, pend := true })

/-- Change a directory entry: freed when it is DI and stable, else stored and touched (R98). -/
def putDir (x : Slice) (k : Nat) (d : Dir) : Slice :=
  if d.dst = 0 ∧ d.trs = 0 then { x with dir := nerase x.dir k } else touchDir { x with dir := nset x.dir k d } k

/-- The bit of SHR for an agent (R98): a port of the home device, or the link to a peer. -/
def shrBit (s : State) (a : Agent) : Nat := if a.dev = self s then a.port else 6 + linkTo s a.dev

/-- Whether an agent's Cap declared RECALL (R20, R104, R113): of a peer's agent, the flag its latest request carried. -/
def hasRecall (s : State) (a : Agent) : Bool :=
  if a.dev = self s then isF s (F.APT_STAT_AG_RECALL a.port) else ((vl s (linkTo s a.dev)).recallers).contains a.port

/-- A bit of SHR. -/
def hasBit (d : Dir) (b : Nat) : Bool := bit d.shr b

/-- The agents of this device in SHR. -/
def localSharers (s : State) (d : Dir) : List Agent :=
  (setBits 6 d.shr.toNat).map (fun p => { dev := self s, port := p })

/-- The links whose peer bit SHR holds. -/
def peerSharers (d : Dir) : List Nat := (List.range 3).filter (fun l => bit d.shr (6 + l))

/-- The entry without a holder: HLD cleared, its own bit cleared, and a peer's bit only in DX (R114). A remote H of a DO entry that answers a
RecallDirty with I leaves its peer's bit set: R114 lists that among the events that leave it and says too that a completed round clears it; the
bit that stays is the one that other sharers may need (DESIGN CHOICE, log entry 107). -/
def removeHolder (s : State) (d : Dir) (h : Agent) : Dir :=
  let shr := if h.dev = self s ∨ d.dst = 3 then clrBit d.shr (shrBit s h) else d.shr
  { d with hld := none, shr := shr, dst := if shr = 0 then 0 else 1 }

/-- An entry of the directory in which an agent is recorded as a holder (R123): for a remote agent, HLD alone. -/
def recorded (s : State) (d : Dir) (a : Agent) : Bool :=
  decide (d.dst ≠ 0) && (decide (d.hld = some a) || (decide (a.dev = self s) && hasBit d (shrBit s a)))

/-- Reservations of a granule cleared for every requester but one (R112). -/
def clearRsv (x : Slice) (l : LineAddr) (except : Option Who) : Slice :=
  { x with rsv := x.rsv.filter (fun e => decide (e.2 ≠ granule l) || decide (some e.1 = except)) }

/-- RsvLd sets the requester's entry (R111), and a requester's entry goes. -/
def dropRsv (x : Slice) (w : Who) : Slice := { x with rsv := x.rsv.filter (fun e => decide (e.1 ≠ w)) }
def setRsv (x : Slice) (w : Who) (l : LineAddr) : Slice := { dropRsv x w with rsv := (dropRsv x w).rsv ++ [(w, granule l)] }

/-- A write or a voided cleaning read of a resident line: cleanings in flight note it (R175). -/
def noteWritten (x : Slice) (l : LineAddr) : Slice :=
  { x with cleans := x.cleans.map (fun c => if c.line = l then { c with written := true } else c) }

/-- The backing store's stored value of a line of this device, as it stands. -/
def backing (s : State) (l : LineAddr) : Line × Bool :=
  match attrOf s l with
  | .pmem => let c := cisGet s (pmemLine l); (c.data, c.poison)
  | .boot => let c := cisGet s (bootLine s.start.bootSlot l); (c.data, c.poison)
  | _ => let d := dramGet s l; (d.data, d.poison)

/-- Poison a line (R133): its way set poisoned and dirty, or a poisoned copy in the eviction buffer. The record names the
origin. False where no eviction-buffer entry is free. -/
def poisonLine (s : State) (n : Nat) (l : LineAddr) (origin dev pt : Nat) : State × Bool :=
  let x := slice s n
  match findWay x l with
  | some k =>
    match nget x.ways k with
    | some v =>
      (postPoison (setSlice s n (noteWritten (setWay x k { v with poison := true, dirty := true, p := v.p || isPmem l }) l))
        n l origin dev pt, true)
    | none => (s, true)
  | none =>
    match evbOf x l with
    | some e =>
      if ¬ e.writing then
        (postPoison (setSlice s n { x with evb := updOne (fun y => decide (y.line = l)) (fun y => { y with poison := true, dead := origin = 6 }) x.evb })
          n l origin dev pt, true)
      else if 16 ≤ x.evb.length then (s, false)
      else
        (postPoison (setSlice s n { x with evb := x.evb ++ [{ line := l, data := e.data, p := e.p, poison := true, dead := origin = 6 }] })
          n l origin dev pt, true)
    | none =>
      if 16 ≤ x.evb.length then (s, false)
      else
        (postPoison (setSlice s n { x with evb := x.evb ++ [{ line := l, data := (backing s l).1, p := isPmem l, poison := true, dead := origin = 6 }] })
          n l origin dev pt, true)

/-- The PMEM lines of this device that a slice homes and that map to a set, by an index function (R228). -/
def pmemOfSet (s : State) (n : Nat) (index : LineAddr → Nat) (set : Nat) : List LineAddr :=
  ((List.range (pmemSize s / 64)).map (fun i => BitVec.ofNat 40 (0x3F0000000000 / 64 + self s * 0x400000 + i))).filter
    (fun l => decide (index l = set) && decide (homeOf s l = n))

/-- Poison a line at once (R228, R133). Where the eviction buffer is full, the backing store takes the poison, and the governor meters the Cistern's
line write (log entry 111). -/
def poisonNow (s : State) (n : Nat) (l : LineAddr) (origin dev pt : Nat) : State :=
  let r := poisonLine s n l origin dev pt
  let v := (backing s l).1
  if r.2 then r.1
  else postPoison (if isPmem l then meter (cisSet s (pmemLine l) { data := v, poison := true, seq := genNow s })
      { prio := 1, kind := .lines, place := some (pmemLine l) }
    else dramWrite s l v true) n l origin dev pt

/-- Take a surface way out of service without a writeback: a free remap entry names it, or the slice's own list (R228). -/
def retireWay (s : State) (n k : Nat) : State :=
  let x := slice s n
  let s1 := setSlice s n (dropWay x k)
  match (List.range 8).find? (fun i => decide ((bits (raw s (R.SLC_RMAP n i)) 30 2) = 0)) with
  | some i => wr s1 (R.SLC_RMAP n i) (BitVec.ofNat 32 (k / 16 + (k % 16) <<< 12 + 0x80000000))
  | none => setSlice s1 n { slice s1 n with gone := (slice s1 n).gone ++ [k] }

/-- An uncorrectable tag or directory entry (R228). -/
def lostEntry (s : State) (n k : Nat) (isDir : Bool) : State :=
  let s1 := flag s (F.SLC_ERR_TAGE n)
  let s2 := if isDir then
      let x := slice s1 n
      setSlice s1 n { x with dir := nerase x.dir k, lost := x.lost ++ [k] }
    else retireWay s1 n k
  let ls := (pmemOfSet s2 n (if isDir then dsetOf else setOf) (k / 16)).filter (fun l => (findWay (slice s2 n) l).isNone)
  let s3 := ls.foldl (fun s l => poisonNow s n l 3 (self s) 0xFF) s2
  let s4 := slcCandidate s3 n (sbeWord (k / 16 % 2048) (k % 16) 0 true)
  post s4 0x0401 n (leBytes 2 (k / 16) ++ b1 (b2n isDir) ++ leBytes 4 ls.length)

/-- The tag entry, or the directory entry, of a set that an upset befell. -/
def tagAt (set : Nat) : Flip → Option (Nat × Nat)
  | .tag st w b => if st.toNat = set then some (st.toNat * 16 + w.toNat, b.toNat) else none
  | _ => none
def dirAt (set : Nat) : Flip → Option (Nat × Nat)
  | .dir st w b => if st.toNat = set then some (st.toNat * 16 + w.toNat, b.toNat) else none
  | _ => none

/-- A tag or directory entry that is read with an error (R228, R412). -/
def readEntry (s : State) (n : Nat) (isDir : Bool) (e : Nat × Nat) : State :=
  match (secdedDecode (if isDir then 49 else 40) 6 e.2).1 with
  | .clean => s
  | .corrected => slcCorrected s n (sbeWord (e.1 / 16 % 2048) (e.1 % 16) 0 true)
  | .uncorrectable => lostEntry s n e.1 isDir

/-- A request reads the tag entries and the directory entries of its line's sets (R71, R228). -/
def readTags (s : State) (n : Nat) (l : LineAddr) : State :=
  let x := slice s n
  let rest := x.upsets.filter (fun f => (tagAt (setOf l) f).isNone && (dirAt (dsetOf l) f).isNone)
  let s0 := setSlice s n { x with upsets := rest }
  let s1 := (sumErrors (x.upsets.filterMap (tagAt (setOf l)))).foldl (fun s e => readEntry s n false e) s0
  (sumErrors (x.upsets.filterMap (dirAt (dsetOf l)))).foldl (fun s e => readEntry s n true e) s1

/-- What the search for a directory way gives (R104, R129). -/
inductive DirRoom where
  | way (k : Nat)
  | victim (k : Nat)
  | none
deriving DecidableEq, Repr

/-- The directory way for a new entry: an invalid way, the lowest; else the oldest stable one (R104). -/
def chooseDir (x : Slice) (l : LineAddr) : DirRoom :=
  let ks := (keysOf (dsetOf l)).filter (fun k => !(x.lost.contains k))
  match ks.find? (fun k => (nget x.dir k).isNone) with
  | some k => .way k
  | none =>
    let c := ks.filter (fun k => match nget x.dir k with
      | some d => decide (d.trs = 0)
      | none => false)
    match oldestOf ((nget x.dages (dsetOf l)).getD 0) (c.map (· % 16)) with
    | some w => .victim (dsetOf l * 16 + w)
    | none => .none

/-- Whether an allotment set passes R89: 0, or the lowest cause. `w` gives the written words of the set. -/
def allotCause (n : Nat) (w : Nat → Word) : Nat :=
  let src := fun k => if k < 8 then bits (w (R.SLC_ASRC0 n)) (4 * k) 3 else bits (w (R.SLC_ASRC1 n)) (4 * (k - 8)) 3
  let used := fun a => (List.range 12).any (fun k => decide (src k = a))
  let ways := fun a => bits (w (R.SLC_AMASK n a)) 0 16
  let fence := fun a => bit (w (R.SLC_AMASK n a)) 16
  let live := (List.range 8).filter used
  let lockw := bits (w (R.SLC_LOCKW n)) 0 16
  if live.any (fun a => decide (ways a = 0)) then 1
  else if live.any (fun a => fence a && live.any (fun b => decide (a ≠ b) && decide (ways a &&& ways b ≠ 0))) then 2
  else if 12 < ((List.range 16).filter lockw.testBit).length then 3
  else if live.any (fun a => decide (ways a ||| lockw = lockw)) then 4
  else if (List.range 6).any (fun p => bit (w (R.SLC_CRIT n)) p && !(fence (src p))) then 5
  else 0

/-- The offsets of the registers of a slice's allotment set (R89). -/
def allotRegs (n : Nat) : List Nat :=
  (List.range 8).map (fun a => R.SLC_AMASK n a) ++ [R.SLC_ASRC0 n, R.SLC_ASRC1 n, R.SLC_CRIT n, R.SLC_LOCKW n]

end Sys2Proof.Machine
end

