-- ==== Sys2Proof/Machine/Home.lean ====
section
/-! DEFINITION. The home of a line: hazards and holds, the rounds to agents, and what each request does once its round
has ended (R73, R77–R81, R84, R85, R90, R93, R94, R98–R137, R154–R156, R162–R164, R173–R178, R211, R226, R283, R302). -/

namespace Sys2Proof.Machine

/-- The requester as an agent. -/
def agentOf : Who → Option Agent
  | .agent a => some a
  | _ => none

/-- SRC of R39 for a request. -/
def srcOf (r : HReq) : Nat :=
  match r.link with
  | some l => 6 + l
  | none => match r.who with
    | .agent a => a.port
    | .host => 9
    | .dma _ => 9
    | .dict => 10
    | .crypto => 10
    | .csr m _ => m
    | .mop _ => 11
    | .pump => 12
    | .prime => 13

/-- The completion of a request: to its requester, or to the buffer entry or inbound piece that sent it (R85). -/
def finish (s : State) (r : HReq) (opc cls : Nat) (arg : Nat) (data : Line) (poison : Bool) : State :=
  match r.entry with
  | some _ => push s (.taken r 0)
  | none => push s (.reply r { opc := opc, cls := cls, tx := r.tx, line := r.line, arg := BitVec.ofNat 12 arg,
                               data := data, poison := poison })

/-- Cmp, with STATE and SUCCESS (R57). -/
def cmp (s : State) (r : HReq) (arg : Nat) : State := finish s r 0x2C 2 arg 0 false

/-- CmpErr with a cause; causes 1 to 6, and every cause of a MOP line or of a buffered write, are recorded as failed
accesses (R38, R39, R161, R206). -/
def failReq (s : State) (r : HReq) (cause : Nat) : State :=
  let mopLine : Bool := match r.who with
    | .mop _ => true
    | _ => false
  let s1 := if cause ≤ 6 ∨ mopLine = true ∨ r.entry.isSome then failAccess s (r.line.toNat * 64) cause (srcOf r) else s
  match r.entry with
  | some _ => push s1 (.taken r cause)
  | none => push s1 (.reply r { opc := 0x2D, cls := 2, tx := r.tx, line := r.line, arg := BitVec.ofNat 12 cause })

/-- A request ends in error at its home; a CondSt has its requester's reservation cleared as it completes (R111). -/
def failHome (s : State) (n : Nat) (r : HReq) (cause : Nat) : State :=
  failReq (if r.op = .condSt then setSlice s n (dropRsv (slice s n) r.who) else s) r cause

/-- The route word of R368. -/
def routeWord (s : State) (rdev rport : Nat) (rcl rst : Bool) (l : LineAddr) (tport tdev : Nat) : BitVec 64 :=
  BitVec.ofNat 64 (rdev % 4 + (rport % 8) <<< 2 + b2n rcl <<< 5 + b2n rst <<< 6 + (getF s F.FED_STAT_EPOCH) <<< 8
    + (bucket l) <<< 16 + (tport % 8) <<< 24 + (tdev % 4) <<< 27)

/-- The route word of a forward (R115, R368): it names the requester whose line the forward is about. The recall of a victim serves no requester of
its line, so it names none, and a peer skips no port for one (log entry 108). -/
def fwdRoute (s : State) (r : HReq) (l : LineAddr) (tport tdev : Nat) : BitVec 64 :=
  match agentOf r.who with
  | some a => if l = r.line then routeWord s a.dev a.port r.rcl r.stash l tport tdev else routeWord s (self s) 7 false false l tport tdev
  | none => routeWord s (self s) 7 false false l tport tdev

/-- Send one forward of a round (R113, R115, R120). -/
def sendFwd (s : State) (n : Nat) (r : HReq) (l : LineAddr) (t : Target × Nat) (arg : Nat) : State :=
  match t.1 with
  | .agent a => push (count s n 6) (.fwd a { opc := t.2, cls := 1, line := l, arg := BitVec.ofNat 12 arg, route := fwdRoute s r l a.port a.dev } n)
  | .peer k => push (count s n 6) (.peerFwd k { opc := t.2, cls := 1, line := l, arg := BitVec.ofNat 12 arg, route := fwdRoute s r l 7 (farEnd s k) })

/-- The code TRS holds for an MSHR (R119). -/
def trsCode (m : Mshr) : Nat := if m.plus then m.trs + 8 else m.trs

/-- Set TRS of a line's entry, where it has one. -/
def pin (x : Slice) (l : LineAddr) (t : Nat) : Slice :=
  match findDir x l with
  | some k => match nget x.dir k with
    | some d => { x with dir := nset x.dir k { d with trs := t } }
    | none => x
  | none => x

/-- What the table of R133 makes of an entry for one dead agent; a line that it owns is for a scrub to poison. -/
def deadEntry (s : State) (d : Dir) (a : Agent) : Dir :=
  if d.hld = some a then (if d.dst = 2 then removeHolder s d a else d)
  else if a.dev = self s ∧ hasBit d (shrBit s a) then
    let shr := clrBit d.shr (shrBit s a)
    { d with shr := shr, dst := if shr = 0 then 0 else d.dst }
  else d

/-- An entry without the bit of a peer (R134): none of that peer's agents remains, but for an owner that is for a scrub to poison. -/
def withoutPeer (s : State) (d : Dir) (l : Nat) : Dir :=
  if bit d.shr (6 + l) then
    let d1 := { d with shr := clrBit d.shr (6 + l) }
    match d.hld with
    | some h => if h.dev = farEnd s l ∧ d.dst = 2 then { d1 with hld := none, dst := if d1.shr = 0 then 0 else 1 }
        else if h.dev = farEnd s l then d else d1
    | none => { d1 with dst := if d1.shr = 0 then 0 else d.dst }
  else d

/-- An entry about to be stable, as R133 and R134 leave it: no dead agent, and no peer whose link is out of service. -/
def cleared (s : State) (x : Slice) (d : Dir) : Dir :=
  ((peerSharers d).filter (fun l => !(isF s (F.FED_LSTAT_UP l)))).foldl (withoutPeer s) (x.dead.foldl (deadEntry s) d)

/-- Whether a dead agent owns a line (R133). -/
def deadOwned (x : Slice) (d : Dir) : Bool :=
  decide (d.dst = 3 ∨ d.dst = 4) && (match d.hld with
    | some h => x.dead.contains h
    | none => false)

/-- The line of a dead owner goes through the pipeline to be poisoned, at step 3 of R72 (R133). -/
def sendScrub (s : State) (n : Nat) (l : LineAddr) : State :=
  push s (.reenter n { who := .pump, op := .scrub, line := l, epoch := (slice s n).epoch })

/-- Make a line's entry stable; freed when it is DI (R98, R133). -/
def unpin (s : State) (n : Nat) (l : LineAddr) : State :=
  let x := slice s n
  match findDir x l with
  | some k => match nget x.dir k with
    | some old =>
      let d := cleared s x old
      let s1 := setSlice s n { x with dir := if d.dst = 0 then nerase x.dir k else nset x.dir k { d with trs := 0 } }
      if deadOwned x d then sendScrub s1 n l else s1
    | none => s
  | none => s

/-- Change a line's entry to what a request makes of it, and touch it (R98); a new entry takes an invalid way. -/
def setDir (s : State) (n : Nat) (d : Dir) : State :=
  let x := slice s n
  match findDir x d.line with
  | some k => match nget x.dir k with
    | some old => setSlice s n (putDir x k { d with trs := old.trs })
    | none => s
  | none =>
    if d.dst = 0 then s
    else match chooseDir x d.line with
      | .way k => setSlice s n (putDir x k d)
      | _ => s

/-- An MSHR stays open: it is listed, and its code stands in the line's entry and in a victim's (R119). -/
def park (s : State) (n : Nat) (m : Mshr) : State :=
  let x := slice s n
  let x1 := { x with mshrs := x.mshrs ++ [m] }
  let x2 := match m.victim with
    | some v => pin x1 v (trsCode m)
    | none => x1
  setSlice s n (pin x2 m.req.line (if m.victim.isSome then 7 else trsCode m))

/-- Close an MSHR: the entry is stable, the secondaries re-enter in order, and a writeback still in the slot is taken as
it comes (R78, R120). -/
def close (s : State) (n : Nat) (m : Mshr) : State :=
  let s1 := unpin s n m.req.line
  let s2 := match m.slot with
    | some w => push s1 (.wbData n { src := w.src, link := w.link, tx := w.tx, opc := 0x32, line := m.req.line,
                                     arg := BitVec.ofNat 12 (2 * w.st), data := w.data, poison := w.poison })
    | none => s1
  let s3 := m.secs.foldl (fun s r => push s (.reenter n r)) s2
  push s3 (.tend n)

/-- A request takes its place in the order of its line (R78, R100): before the first request of the line that arrived later. -/
def putSeq (r : HReq) : List HReq → List HReq
  | [] => [r]
  | q :: t => if q.line = r.line ∧ r.seq < q.seq then r :: q :: t else q :: putSeq r t

/-- Whether requests hold an earlier one of a request's line. -/
def earlier (l : List HReq) (r : HReq) : Bool := l.any (fun q => decide (q.line = r.line) && decide (q.seq < r.seq))

/-- A request turned back at H4 keeps its place in its line's order, in one of the entries kept for it (R79, R128, R129). -/
def turnBack (s : State) (n : Nat) (r : HReq) : State :=
  let x := slice s n
  count (setSlice s n { x with cq := putSeq { r with turned := true } x.cq }) n 5

/-- A request waits at H0 or H1 (R72, R94, R174). -/
def hold (s : State) (n : Nat) (r : HReq) : State :=
  let x := slice s n
  setSlice s n { x with held := putSeq r x.held }

/-- A request goes from H1 to the conflict queue, of which 20 entries are for these; else it waits (R73, R128). -/
def queue (s : State) (n : Nat) (r : HReq) : State :=
  let x := slice s n
  if (x.cq.filter (fun q => !q.turned)).length < 20 then count (setSlice s n { x with cq := putSeq r x.cq }) n 5 else hold s n r

/-- The home copy of a line: the surface, else the eviction buffer, else what the MSHR fetched (R81, R101). -/
def homeCopy (s : State) (n : Nat) (m : Mshr) : Option (Line × Bool) :=
  let x := slice s n
  match findWay x m.req.line with
  | some k => (nget x.ways k).map (fun v => (v.data, v.poison))
  | none =>
    match (x.evb.filter (fun e => decide (e.line = m.req.line))).getLast? with
    | some e => some (e.data, e.poison)
    | none => m.home

/-- What became of a write to a line: made; waiting in the MSHR; or impossible. -/
inductive Put where
  | done (s : State)
  | wait (s : State)
  | fail

/-- Whether the backing store of a line serves (R25, R218). -/
def storeUp (s : State) (l : LineAddr) : Bool :=
  match attrOf s l with
  | .dram => chanServes s (chanOf s l)
  | _ => cisUp s

/-- A write of a line through its MSHR to the backing store (R85, R94, R102): the MSHR stays open until it is confirmed. TRS reads FL meanwhile, as
it does while the MSHR waits for a way, an eviction-buffer entry or a directory way: R119 has no code of its own for these (log entry 110). -/
def putStore (s : State) (n : Nat) (m : Mshr) (v : Line) (psn : Bool) : Put :=
  let l := m.req.line
  let m1 := { m with wait := .confirm, trs := 7, stored := some (v, psn) }
  if m.confirmed then .done s
  else if m.admitted then .wait (park s n { m with wait := .confirm })
  else if storeUp s l = false then .fail
  else if attrOf s l = .pmem then .wait (meter (park s n m1) { prio := 2, kind := .direct n l })
  else .wait (park (dramWrite s l v psn) n { m1 with admitted := true })

/-- The ways that a preload-lock may take (R90). -/
def lockRoom (s : State) (n : Nat) (r : HReq) (w : Nat) : Bool := lockable s n r w && inMask s n r w

/-- Write a line at its home (R81, R85, R94, R101, R102, R164): into its way; into an eviction-buffer entry in WAIT; into
a way reserved without a fetch, which is touched; or, where the slice does not cache or no way can be had, through the MSHR to the backing
store. `old` gives the bytes the mask leaves, and `dirty` whether the line is newer than the store. The pump never allocates (R87): the dirty data
that its requests bring go to the eviction buffer where the line is not resident (log entry 105). -/
def putLine (s : State) (n : Nat) (m : Mshr) (old : Line × Bool) (mask : BitVec 64) (data : Line) (poison dirty : Bool) : Put :=
  let x := slice s n
  let l := m.req.line
  let v := merge old.1 data mask
  let psn := if full mask then poison else old.2 || poison
  let p := decide (attrOf s l = .pmem)
  let w : Way := { line := l, data := v, poison := psn, dirty := dirty, p := p, boot := decide (attrOf s l = .boot),
                   allot := allotOf s n m.req.epoch (allocSource s m.req) }
  let waiting := fun (e : Evb) => decide (e.line = l) && !e.writing
  match findWay x l with
  | some k => match nget x.ways k with
    | some y => .done (setSlice s n (noteWritten (setWay x k { y with data := v, poison := psn, dirty := y.dirty || dirty, p := p }) l))
    | none => .done s
  | none =>
    if x.evb.any waiting then
      .done (if dirty then setSlice s n { x with evb := updOne waiting (fun e => { e with data := v, poison := psn }) x.evb } else s)
    else if m.req.who = .pump then
      if dirty = false then .done s
      else if 16 ≤ x.evb.length then .wait (park s n { m with wait := .room, trs := 7 })
      else .done (pushOut s n w)
    else if m.confirmed ∨ m.admitted ∨ caches s n l = false then (if dirty then putStore s n m v psn else .done s)
    else match chooseWay s n l (inMask s n m.req) with
      | .way k =>
        let s1 := evictWay s n k
        let s2 := if p then s1 else tierClear s1 l
        .done (setSlice s2 n (touchWay (noteWritten (newWay (slice s2 n) k w) l) k))
      | .none => match (if dirty then putStore s n m v psn else .done s) with
        | .done s' => .done (flag s' (F.SLC_ERR_NOALLOC n))
        | .wait s' => .wait (flag s' (F.SLC_ERR_NOALLOC n))
        | .fail => .fail
      | .wait => .wait (park s n { m with wait := .room, trs := 7 })

/-- H's dirty data of a round, where they have to be written, are written before anything else that the request does (R101, R102, R121). -/
def land (s : State) (n : Nat) (m : Mshr) (needs : Bool) : Put × Mshr :=
  match m.got with
  | some g =>
    if needs && !m.early then
      (putLine s n m (g.data, g.poison) (BitVec.allOnes 64) g.data g.poison true,
        { m with early := true, confirmed := false, admitted := false, stored := none, home := some (g.data, g.poison) })
    else (.done s, m)
  | none => (.done s, m)

/-- Whether H's answer is dirty data. -/
def dirtyGot (m : Mshr) : Bool := m.got.any (fun g => g.dirty && !g.none)

/-- Whether a request writes at the home (R101's write column). -/
def isWrite (op : HOp) : Bool :=
  match op with
  | .write => true
  | .stashWr => true
  | .condSt => true
  | .atomHome => true
  | .atomMem => true
  | .maint 6 => true
  | _ => false

/-- Whether the write covers the whole line (R101). -/
def wholeWrite (r : HReq) : Bool :=
  match r.op with
  | .write => full r.mask
  | .stashWr => true
  | .maint 6 => true
  | _ => false

/-- Whether a request takes ownership (R177). -/
def takesOwn (op : HOp) : Bool := decide (op = .rdOwn ∨ op = .upgrade ∨ op = .itoM)

/-- Whether a request reads for its requester (R101). -/
def isRead (op : HOp) : Bool := decide (op = .rdShared ∨ op = .rdOwn ∨ op = .rdOnce ∨ op = .rsvLd)

/-- Whether a hit by a request touches the way (R75): any access of an agent, a peer, the host or the network, and a stash or ZeroLine of any
source. A preload-lock touches the way that it locks; maintenance of another kind leaves the order. -/
def touches (r : HReq) : Bool :=
  let outside : Bool := match r.who with
    | .agent _ => true
    | .host => true
    | .dma _ => true
    | .dict => true
    | _ => false
  (outside && (isRead r.op || isWrite r.op || takesOwn r.op)) || decide (r.op = .maint 6 ∨ r.op = .stashWr)

/-- A hit touches the way (R75). -/
def hitTouch (s : State) (n : Nat) (r : HReq) : State :=
  match findWay (slice s n) r.line with
  | some k => if touches r then setSlice s n (touchWay (slice s n) k) else s
  | none => s

/-- Whether a request reads the line's data at its home. -/
def readsData (r : HReq) : Bool :=
  isRead r.op || decide (r.op = .maint 4 ∨ r.op = .atomHome) || (decide (r.op = .write) && !(full r.mask))
    || (decide (r.op = .condSt) && !(full (runMask (argOff r.arg) (argLen r.arg))))

/-- The resident line is read for a request, unless H's answer brings the data (R227). -/
def readFor (s : State) (n : Nat) (m : Mshr) : State :=
  if readsData m.req && m.got.all (fun g => g.none) then readResident s n m.req.line else s

/-- A dirty resident line is read, to go to its backing store (R227). -/
def readDirty (s : State) (n : Nat) (l : LineAddr) : State :=
  match findWay (slice s n) l with
  | some k => if (nget (slice s n).ways k).any (fun w => w.dirty) then readChunks s n k else s
  | none => s

/-- Fetch the home copy (R77, R80, R180): the store must serve; a way is reserved where the slice caches and `place`
asks for one, for a preload-lock one that it may lock (R90); the Tier is probed beside a DRAM read. -/
def issueFill (s : State) (n : Nat) (m : Mshr) (place : Bool) : State :=
  let l := m.req.line
  let wants := place && caches s n l && !m.noRoom
  if storeUp s l = false ∨ (gated s ∧ attrOf s l = .dram) then close (failHome s n m.req 8) n m
  else
    match (if wants then chooseWay s n l (if m.req.op = .maint 4 then lockRoom s n m.req else inMask s n m.req) else Room.none) with
    | .wait => park s n { m with wait := .room, trs := 7 }
    | room =>
      let s1 := match room with
        | .way k => reserveWay s n k l
        | _ => if wants then flag s (F.SLC_ERR_NOALLOC n) else s
      let m1 := match room with
        | .way k => { m with way := some k }
        | _ => { m with noRoom := true }
      let t := if attrOf s l = .dram ∧ m.req.op ≠ .sweep then tierProbe s1 l else (none, s1)
      park (if t.1.isSome then count t.2 n 11 else t.2) n { m1 with wait := .fill, trs := 7, tier := t.1 }

/-- Whether a requester may be granted E, M or O (R101). -/
def mayOwn (s : State) (r : HReq) : Bool :=
  match attrOf s r.line with
  | .dram => true
  | .pmem => r.rcl
  | _ => false

/-- Ownership requests of an agent, or of all, that hold an MSHR (R176, R177). -/
def owning (x : Slice) (a : Option Agent) : Nat :=
  (x.mshrs.filter (fun m => isPmem m.req.line && takesOwn m.req.op
    && (match a with
      | some b => decide (agentOf m.req.who = some b)
      | none => true))).length

/-- Whether dirty persistent lines and owned lines, with what requests past H1 can still add, reach the bound of R179 (R177; log entry 113). -/
def atBound (s : State) (n : Nat) : Bool :=
  let x := slice s n
  let coming := (x.mshrs.filter (fun m => isPmem m.req.line && (takesOwn m.req.op || isWrite m.req.op))).length
  decide (pdqShare s + ownPool s ≤ pdirty x + ownAll x + coming)

/-- Whether the quotas stop a RdShared from being granted E (R177, R179). -/
def quotaFull (s : State) (n : Nat) (a : Agent) : Bool :=
  let x := slice s n
  decide (ownShare s ≤ ownOf x a + owning x (some a)) || decide (ownPool s ≤ ownAll x + owning x none) || atBound s n

/-- Whether an agent is in the dead mask of a slice (R130). -/
def isDead (x : Slice) (w : Who) : Bool :=
  match agentOf w with
  | some a => x.dead.contains a
  | none => false

/-- An entry with one holder in E or M (R99). -/
def dxOf (s : State) (l : LineAddr) (a : Agent) : Dir :=
  { line := l, dst := 3, shr := BitVec.ofNat 9 (1 <<< shrBit s a), hld := some a }

/-- An agent added to SHR. -/
def addSharer (s : State) (d : Dir) (a : Agent) : Dir := { d with shr := setBit d.shr (shrBit s a) }

/-- The entry with a designee in F. -/
def dfOf (s : State) (d : Dir) (a : Agent) : Dir := { addSharer s d a with dst := 2, hld := some a }

/-- A grant of E or M: the entry, and the reservations of others cleared (R101, R112). -/
def grantOwn (s : State) (n : Nat) (r : HReq) (a : Agent) : State :=
  let s1 := setDir s n (dxOf s r.line a)
  setSlice s1 n (clearRsv (slice s1 n) r.line (some r.who))

/-- A data response (R56), and the reservation that an RsvLd sets with it (R111), unless its agent is dead (R136). -/
def datTo (s : State) (n : Nat) (r : HReq) (opc st : Nat) (v : Line × Bool) : State :=
  let s1 := finish s r opc 3 st v.1 v.2
  if r.op = .rsvLd ∧ isDead (slice s1 n) r.who = false then setSlice s1 n (setRsv (slice s1 n) r.who r.line) else s1

/-- Whether H's answer leaves data that the home writes for a read (R102): dirty answers naming S, F or I, but for a
RdOwn or Upgrade of Normal-DRAM, whose requester takes the data; all of them where the requester is dead (R132). -/
def readWrites (s : State) (op : HOp) (l : LineAddr) (g : Got) (dead : Bool) : Bool :=
  g.dirty && !g.none && (dead || (match op with
    | .rdOwn => decide (attrOf s l = .pmem)
    | .upgrade => decide (attrOf s l = .pmem)
    | _ => decide (g.st ≠ 5)))

/-- The entry a read leaves after H's answer (R102), and the state granted. -/
def resolveRead (s : State) (op : HOp) (d : Dir) (a : Option Agent) (g : Got) : Dir × Nat :=
  match d.hld with
  | none => (d, 0)
  | some h =>
    let gone := removeHolder s d h
    let kept := { d with hld := none, dst := 1 }
    match op, a with
    | .rdShared, some a =>
      if g.dirty = false ∧ g.st = 0 then (dfOf s gone a, 2)
      else if g.dirty = false ∧ g.st = 1 then (dfOf s kept a, 2)
      else if g.dirty = false then (addSharer s { d with dst := 2 } a, 1)
      else if g.st = 5 then (addSharer s { d with dst := 4 } a, 1)
      else if g.st = 2 then (addSharer s { d with dst := 2 } a, 1)
      else if g.st = 1 then (dfOf s kept a, 2)
      else (dfOf s gone a, 2)
    | _, _ =>
      if g.st = 0 then (gone, 0)
      else if g.st = 1 then (kept, 0)
      else if g.st = 5 then ({ d with dst := 4 }, 0)
      else ({ d with dst := 2 }, 0)

/-- The requests that wait for a line's cleaning or eviction join it (R81, R154). -/
def waitEvb (s : State) (n : Nat) (r : HReq) : State :=
  let x := slice s n
  let last := (x.evb.filter (fun e => decide (e.line = r.line))).length
  let mark := fun (acc : List Evb × Nat) (e : Evb) =>
    if e.line = r.line then
      (acc.1 ++ [if acc.2 + 1 = last then { e with after := e.after ++ [r] } else e], acc.2 + 1)
    else (acc.1 ++ [e], acc.2)
  setSlice s n { x with evb := (x.evb.foldl mark ([], 0)).1 }

/-- Clean a resident line in place (R154, R175): the write starts through the governor, or to DRAM at once. -/
def startClean (s : State) (n : Nat) (prio : Nat) (c : Cleaning) : State :=
  let add := fun (s : State) (c : Cleaning) => setSlice s n { slice s n with cleans := (slice s n).cleans ++ [c] }
  if c.p then meter (add s c) { prio := prio, kind := .clean n c.line }
  else add (dramWrite s c.line c.data c.poison) { c with admitted := true }

/-- The clean and persist operations on what the home holds (R81, R154, R227): a dirty way is cleaned, an eviction-buffer entry
is waited for, and otherwise the request is complete. -/
def cleanHome (s0 : State) (n : Nat) (r : HReq) : State :=
  let mine := fun (c : Cleaning) => decide (c.line = r.line) && !c.written
  if (slice s0 n).cleans.any mine then
    setSlice s0 n { slice s0 n with cleans := updOne mine (fun c => { c with after := c.after ++ [r] }) (slice s0 n).cleans }
  else
    let s := readDirty s0 n r.line
    let x := slice s n
    match (findWay x r.line).bind (fun k => nget x.ways k) with
    | some w =>
      if w.dirty ∧ storeUp s r.line = false then failReq s r 8
      else if w.dirty then
        startClean s n (if r.who = .pump then 4 else 2) { line := r.line, data := w.data, poison := w.poison, p := w.p, pump := decide (r.who = .pump), after := [r] }
      else cmp s r 0
    | none => if (evbOf x r.line).isSome then waitEvb s n r else cmp s r 0

/-- Preload-lock once its read round has ended (R90): it has read the line as an RdOnce does (R102), and locks it in place, by a move, or
by a fetch into a way that it may lock. -/
def lockLine (s : State) (n : Nat) (m : Mshr) : State :=
  let r := m.req
  match land s n m (m.got.any (fun g => readWrites s .rdOnce r.line g false)) with
  | (.wait s1, _) => s1
  | (.fail, _) => close (failReq s r 8) n m
  | (.done s0, m1) =>
    let s1 := match m.got with
      | some g => setDir s0 n (resolveRead s0 .rdOnce (dirOf (slice s0 n) r.line) none g).1
      | none => s0
    let x := slice s1 n
    let locked := fun (k : Nat) => (nget x.ways k).any (fun v => v.lock)
    let own := (keysOf (setOf r.line)).filter locked
    let free := (keysOf (setOf r.line)).any (fun k => lockRoom s1 n r (k % 16) && !(outOfService s1 n k) && !(locked k))
    let none' := close (failReq (flag s1 (F.SLC_ERR_LOCK_FULL n)) r 8) n m1
    let lockIn := fun (s : State) (k : Nat) (w : Way) =>
      close (cmp (setSlice s n (touchWay (newWay (slice s n) k { w with lock := true }) k)) r 0) n m1
    let mark := allotOf s1 n r.epoch (allocSource s1 r)
    if caches s1 n r.line = false ∨ 12 ≤ own.length ∨ free = false then none'
    else match (findWay x r.line).bind (fun k => (nget x.ways k).map (fun w => (k, w))) with
      | some (k, w) =>
        if lockRoom s1 n r (k % 16) then close (cmp (setSlice s1 n (touchWay (setWay x k { w with lock := true }) k)) r 0) n m1
        else match chooseWay s1 n r.line (lockRoom s1 n r) with
          | .way j =>
            let s2 := readChunks (evictWay s1 n j) n k
            match nget (slice s2 n).ways k with
            | some v => lockIn (setSlice s2 n (dropWay (slice s2 n) k)) j { v with allot := mark }
            | none => issueFill s2 n m1 true
          | .wait => park s1 n { m1 with wait := .room, trs := 7 }
          | .none => none'
      | none =>
        match homeCopy s1 n m1 with
        | none => issueFill s1 n m1 true
        | some v => match chooseWay s1 n r.line (lockRoom s1 n r) with
          | .way j =>
            let s2 := evictWay s1 n j
            lockIn (if isPmem r.line then s2 else tierClear s2 r.line) j
              { line := r.line, p := decide (attrOf s1 r.line = .pmem), boot := decide (attrOf s1 r.line = .boot), allot := mark, data := v.1, poison := v.2 }
          | .wait => park s1 n { m1 with wait := .room, trs := 7 }
          | .none => none'

/-- The bytes a write carries: its mask, data and poison. -/
def writeOf (r : HReq) : BitVec 64 × Line × Bool :=
  match r.op with
  | .maint _ => (BitVec.allOnes 64, 0, false)
  | .stashWr => (BitVec.allOnes 64, r.data, r.poison)
  | .condSt => (runMask (argOff r.arg) (argLen r.arg), r.data, r.poison)
  | _ => (r.mask, r.data, r.poison)

/-- Whether a CondSt's reservation stands (R111). -/
def rsvStands (x : Slice) (r : HReq) : Bool := x.rsv.any (fun e => decide (e.1 = r.who) && decide (e.2 = granule r.line))

/-- The target port of a stash, where R63, R106 and R132 allow an offer. A peer applies R63 for its own port. -/
def stashTarget (s : State) (n : Nat) (r : HReq) : Option Agent :=
  let a : Agent := { dev := bits r.arg 3 2, port := bits r.arg 0 3 }
  if a.port > 5 ∨ marked s n r.line ∨ (slice s n).dead.contains a ∨ present s a.dev = false then none
  else if a.dev = self s then
    if isF s (F.APT_STAT_AG_STASH a.port) ∧ effF s (F.APT_CTL_STASH_EN a.port) = 1 ∧ isF s (F.APT_STAT_UP a.port)
        ∧ ¬ isF s (F.APT_STAT_DEAD a.port) then some a else none
  else if isF s (F.FED_LSTAT_UP (linkTo s a.dev)) then some a else none

/-- The state a stash offer names (R106): M of a DRAM line that the MSHR alone holds; E where R101 and the quotas allow; else S. -/
def offerState (s : State) (n : Nat) (m : Mshr) (a : Agent) : Nat :=
  let l := m.req.line
  if m.keeps then 4
  else if mayOwn s { m.req with rcl := hasRecall s a } ∧ ¬ (attrOf s l = .pmem ∧ quotaFull s n a) then 3
  else 1

/-- The round that opens for a victim entry (R104, R129): Recall to holders that support it; to one that does not, Inval,
or FwdOwn when it is H of a DX or DO entry. -/
def recallTargets (s : State) (d : Dir) : List (Target × Nat) :=
  let rcl := fun (a : Agent) => hasRecall s a
  let h := match d.hld with
    | some a => [(Target.agent a, if rcl a then 0x23 else if d.dst = 2 then 0x22 else 0x21)]
    | none => []
  let loc := ((localSharers s d).filter (fun a => decide (d.hld ≠ some a))).map (fun a => (Target.agent a, if rcl a then 0x23 else 0x22))
  let peers := if d.dst = 3 then [] else (peerSharers d).map (fun l => (Target.peer l, 0x23))
  h ++ loc ++ peers

/-- Whether a round leaves the requester's own recorded copy alone: R101 sends Inval to the others then, and to all holders where
this is false. H is sent its forward even where it is the requester, but for an Upgrade. -/
def sparesOwn (op : HOp) (d : Dir) : Bool :=
  match op with
  | .rdOwn => true
  | .upgrade => true
  | .itoM => decide (d.dst = 3 ∨ d.dst = 4)
  | _ => false

/-- The round a request needs before it is served (R101, R105, R154): its TRS code and forwards; none where it needs
none. `res` says that the home holds the line itself. -/
def roundOf (s : State) (n : Nat) (r : HReq) (d : Dir) (res : Bool) : Option (Nat × List (Target × Nat)) :=
  let a := agentOf r.who
  let h := if r.op = .upgrade ∧ d.hld = a then none else d.hld
  let loc := ((localSharers s d).filter (fun b => (decide (some b ≠ a) || !(sparesOwn r.op d)) && decide (d.hld ≠ some b))).map
    (fun b => (Target.agent b, 0x22))
  let prs := if d.dst = 3 then [] else (peerSharers d).map (fun l => (Target.peer l, 0x22))
  let hold := fun (op : Nat) => match h with
    | some b => [(Target.agent b, op)]
    | none => []
  let mk := fun (t : Nat) (l : List (Target × Nat)) => if l = [] then none else some (t, l)
  let own := decide (d.dst = 3 ∨ d.dst = 4) && h.isSome
  let taking := (if own then mk 2 (hold 0x21 ++ loc ++ prs) else mk 3 (hold 0x22 ++ loc ++ prs))
  let dropping := mk 3 (hold 0x22 ++ loc ++ prs)
  let recalling :=
    if own then
      match h with
      | some b =>
        if hasRecall s b then mk 4 (hold 0x23 ++ loc ++ prs) else mk 2 (hold 0x21 ++ loc ++ prs)
      | none => none
    else dropping
  match r.op with
  | .rdShared => if own ∨ (d.dst = 2 ∧ res = false ∧ h.isSome) then mk 1 (hold 0x20) else none
  | .rdOnce => if own then mk 1 (hold 0x20) else none
  | .rsvLd => if own then mk 1 (hold 0x20) else none
  | .rdOwn => if d.dst = 2 ∧ res = false ∧ h.isSome then mk 2 (hold 0x21 ++ loc ++ prs) else taking
  | .upgrade => taking
  | .itoM => if attrOf s r.line = .pmem then taking else dropping
  | .write => if wholeWrite r then dropping else taking
  | .stashWr => dropping
  | .condSt => if rsvStands (slice s n) r then taking else none
  | .atomHome => taking
  | .atomMem => taking
  | .recallDirty => if own then mk 5 (hold 0x24) else none
  | .maint 1 => if attrOf s r.line = .dram then dropping else recalling
  | .maint 2 => recalling
  | .evacuate => recalling
  | .leave dev =>
    if dev = self s then recalling
    else
      let mine := match h with
        | some b => decide (b.dev = dev)
        | none => false
      let bit' := if d.dst ≠ 3 ∧ bit d.shr (6 + linkTo s dev) then [(Target.peer (linkTo s dev), 0x22)] else []
      match mine, h with
      | true, some b =>
        if own then (if hasRecall s b then mk 4 (hold 0x23 ++ bit') else mk 2 (hold 0x21 ++ bit')) else mk 3 (hold 0x22 ++ bit')
      | _, _ => mk 3 bit'
  | .maint 3 => if own ∧ attrOf s r.line = .pmem then mk 5 (hold 0x24) else none
  | .maint 4 => if own then mk 1 (hold 0x20) else none
  | .maint 6 => dropping
  | .scrub => if d.dst = 4 then mk 3 (loc ++ prs) else none
  | _ => none

/-- The opcode that a round sends to a holder; 0 where it sends none. -/
def hopOf (ts : List (Target × Nat)) (h : Option Agent) : Nat :=
  ((ts.find? (fun f => decide (some f.1 = h.map Target.agent))).map (fun f => f.2)).getD 0

/-- The round that evicts a victim's entry starts (R104, R129): the line's MSHR holds the victim's address. -/
def recallVictim (s : State) (n : Nat) (m : Mshr) (k : Nat) : State :=
  match nget (slice s n).dir k with
  | some v =>
    let ts := recallTargets s v
    let s1 := ts.foldl (fun s t => sendFwd s n m.req v.line t 0) s
    park s1 n { m with trs := 4, victim := some v.line, h := v.hld, hop := hopOf ts v.hld, awaits := ts.map (·.1), got := none, wait := .none }
  | none => close s n m

/-- A StashOffer goes out, its directory way reserved (R106). -/
def sendOffer (s : State) (n : Nat) (m : Mshr) (a : Agent) : State :=
  let st := offerState s n m a
  let s1 := sendFwd s n m.req m.req.line (.agent a, 0x25) st
  park s1 n { m with trs := 6, plus := false, h := some a, awaits := [.agent a], got := none, offered := true, offer := st, wait := .none }

/-- A stashed line that no agent pulls (R106): one that the MSHR alone holds is written to DRAM, any other stays where it is. -/
def keepStash (s : State) (n : Nat) (m : Mshr) : State :=
  if m.keeps then
    match putStore s n { m with admitted := false, confirmed := false, offered := true } m.req.data m.req.poison with
    | .done s1 => close s1 n m
    | .wait s1 => s1
    | .fail => close s n m
  else close s n m

/-- The end of a StashWr whose line is at its home (R106): the offer, once a directory way is had, or nothing. -/
def offerStash (s : State) (n : Nat) (m : Mshr) : State :=
  match stashTarget s n m.req with
  | none => keepStash s n m
  | some a =>
    let x := slice s n
    if (findDir x m.req.line).isSome then sendOffer s n m a
    else match chooseDir x m.req.line with
      | .way k => sendOffer (setSlice s n (touchDir { x with dir := nset x.dir k { line := m.req.line, dst := 0, trs := 6 } } k)) n m a
      | .victim k => recallVictim s n m k
      | .none => park s n { m with wait := .dirWay, trs := 7 }

/-- The answer to a stash offer (R106): a pull is granted, in the state offered, under the offer's TXID; a decline leaves the line where it is. -/
def resolveOffer (s : State) (n : Nat) (m : Mshr) (a : HAns) : State :=
  if a.dead = false ∧ bit a.arg 0 = true ∧ (slice s n).dead.contains a.src = false then
    let s1 := if m.keeps then s else readResident s n m.req.line
    let x := slice s1 n
    let v := match (findWay x m.req.line).bind (fun k => nget x.ways k) with
      | some w => (w.data, w.poison)
      | none => (m.req.data, m.req.poison)
    let s2 := setDir s1 n (if m.offer = 1 then addSharer s { line := m.req.line, dst := 1 } a.src else dxOf s m.req.line a.src)
    close (push s2 (.send a.src { opc := if m.offer = 4 then 0x31 else 0x30, cls := 3, tx := a.tx, line := m.req.line,
                                  arg := BitVec.ofNat 12 m.offer, data := v.1, poison := v.2 })) n m
  else keepStash s n m

/-- The line that a partial write or an atomic works on: the home copy, else the clean data that H gave (R101, R102). -/
def writeBase (s : State) (n : Nat) (m : Mshr) : Option (Line × Bool) :=
  match homeCopy s n m with
  | some v => some v
  | none => m.got.bind (fun g => if g.none then none else some (g.data, g.poison))

/-- A write has changed a line: every reservation of its granule but the writer's own goes (R112). -/
def wrote (s : State) (n : Nat) (r : HReq) : State := setSlice s n (clearRsv (slice s n) r.line (some r.who))

/-- The atomic unit of the home works on the line (R108, R109): the old value in any case; no operation on a poisoned line. -/
def atomAt (s : State) (n : Nat) (m : Mshr) (b : Line × Bool) : State :=
  let run := atomRun m.req.arg m.req.data b.1
  let done := fun (s : State) => close (finish s m.req 0x30 3 0 run.1 b.2) n m
  match (if b.2 then none else run.2) with
  | none => done s
  | some v => match putLine s n m b (BitVec.allOnes 64) v b.2 true with
    | .wait s1 => s1
    | .fail => close (failReq s m.req 8) n m
    | .done s1 => done (wrote s1 n m.req)

/-- An AtomHome, once no agent holds the line (R108): H's clean data, or a fetch, bring it into the surface where the slice caches. -/
def performAtom (s : State) (n : Nat) (m : Mshr) : State :=
  match homeCopy s n m, writeBase s n m with
  | none, none => issueFill s n m true
  | none, some b => match putLine s n m b (BitVec.allOnes 64) b.1 b.2 false with
    | .done s1 => atomAt s1 n m b
    | .wait s1 => s1
    | .fail => close (failReq s m.req 8) n m
  | some b, _ => atomAt s n m b

/-- An AtomMem, once no agent holds the line (R81, R108, R181, R198): merged into an eviction-buffer entry in WAIT; else the home's own copy is
cleaned and made invalid, and the channel works on the line. -/
def performMem (s : State) (n : Nat) (m : Mshr) : State :=
  let r := m.req
  let x := slice s n
  let waiting := fun (e : Evb) => decide (e.line = r.line) && !e.writing
  match x.evb.find? waiting with
  | some e =>
    let b := match m.got with
      | some g => if g.dirty && !g.none then (g.data, g.poison) else (e.data, e.poison)
      | none => (e.data, e.poison)
    let run := atomRun r.arg r.data b.1
    let v := if b.2 then b.1 else run.2.getD b.1
    let s1 := setSlice s n { x with evb := updOne waiting (fun e => { e with data := v, poison := b.2 }) x.evb }
    close (finish (if b.2 = false ∧ run.2.isSome then wrote s1 n r else s1) r 0x30 3 0 run.1 b.2) n m
  | none =>
    if gated s ∨ storeUp s r.line = false then close (failReq s r 8) n m
    else
      let s0 := readDirty s n r.line
      let s1 := match m.got, (findWay (slice s0 n) r.line).bind (fun k => nget (slice s0 n).ways k) with
        | some g, w => if g.dirty && !g.none then dramWrite s0 r.line g.data g.poison
            else if w.any (fun w => w.dirty) then dramWrite s0 r.line ((w.map (fun w => w.data)).getD 0) (w.any (fun w => w.poison)) else s0
        | none, some w => if w.dirty then dramWrite s0 r.line w.data w.poison else s0
        | none, none => s0
      let s2 := match findWay (slice s1 n) r.line with
        | some k => setSlice s1 n (dropWay (slice s1 n) k)
        | none => s1
      park (tierClear s2 r.line) n { m with wait := .atomic, trs := 8, got := none }

/-- A CondSt, once its round has ended (R111). A write under way goes on, whatever befalls the reservation since. -/
def performCond (s : State) (n : Nat) (m : Mshr) : State :=
  let r := m.req
  let w := writeOf r
  if rsvStands (slice s n) r || m.admitted || m.confirmed || m.stored.isSome then
    match writeBase s n m, full w.1 with
    | none, false => issueFill s n m true
    | b, _ => match putLine s n m (b.getD (0, false)) w.1 w.2.1 w.2.2 true with
      | .wait s1 => s1
      | .fail => close (failHome s n r 8) n m
      | .done s1 => close (cmp (setSlice s1 n (clearRsv (slice s1 n) r.line none)) r 8) n m
  else close (cmp (setSlice s n (dropRsv (slice s n) r.who)) r 0) n m

/-- A StashWr, once its round has ended (R106): the line is written, or held in the MSHR where the slice does not cache a DRAM line; Cmp; then the
offer. -/
def performStash (s : State) (n : Nat) (m : Mshr) : State :=
  let r := m.req
  if m.offered then close s n m
  else if m.answered then offerStash s n m
  else if caches s n r.line = false ∧ attrOf s r.line = .dram ∧ (homeCopy s n { m with home := none }).isNone then
    offerStash (cmp (wrote s n r) r 0) n { m with answered := true, keeps := true }
  else match putLine s n m (0, false) (BitVec.allOnes 64) r.data r.poison true with
    | .wait s1 => s1
    | .fail => close (failReq s r 8) n m
    | .done s1 => offerStash (cmp (wrote s1 n r) r 0) n { m with answered := true }

/-- A WrPtl, WrLine or ZeroLine, once its round has ended (R93, R101). -/
def performPut (s : State) (n : Nat) (m : Mshr) : State :=
  let r := m.req
  let w := writeOf r
  match writeBase s n m, wholeWrite r with
  | none, false => issueFill s n m true
  | b, _ => match putLine s n m (b.getD (0, false)) w.1 w.2.1 w.2.2 true with
    | .wait s1 => s1
    | .fail => close (failReq s r 8) n m
    | .done s1 => close (cmp (wrote s1 n r) r 0) n m

/-- The writes of R101's write column, once the round has ended: H's dirty data first, then the write itself (R101, R121). -/
def performWrite (s : State) (n : Nat) (m : Mshr) : State :=
  if m.req.op = .atomMem then performMem s n m
  else match land s n m (dirtyGot m) with
    | (.wait s1, _) => s1
    | (.fail, _) => close (failHome s n m.req 8) n m
    | (.done s1, m1) => match m.req.op with
      | .atomHome => performAtom s1 n m1
      | .condSt => performCond s1 n m1
      | .stashWr => performStash s1 n m1
      | _ => performPut s1 n m1

/-- A read whose round brought H's answer (R102, R132). -/
def readGot (s0 : State) (n : Nat) (m0 : Mshr) (g : Got) : State :=
  let r := m0.req
  let dead := isDead (slice s0 n) r.who
  let op := if dead ∧ r.op ≠ .rsvLd then HOp.rdOnce else r.op
  let a := if dead then none else agentOf r.who
  match land s0 n m0 (readWrites s0 op r.line g dead) with
  | (.wait s1, _) => s1
  | (.fail, _) => close (failReq s0 r 8) n m0
  | (.done s, m) =>
    match (if g.none then homeCopy s n m else some (g.data, g.poison)) with
    | none => issueFill s n m true
    | some v =>
      let cleanIn := op = .rdShared ∧ g.dirty = false ∧ g.none = false ∧ g.st ≤ 1 ∧ (homeCopy s n m).isNone = true
      match (if cleanIn then putLine s n m v (BitVec.allOnes 64) v.1 v.2 false else .done s) with
      | .wait s1 => s1
      | .fail => close (failReq s r 8) n m
      | .done s1 =>
        let passed := g.dirty && !g.none && decide (attrOf s1 r.line = .dram)
        match op, a with
        | .rdOwn, some a => close (datTo (grantOwn s1 n r a) n r (if passed then 0x31 else 0x30) (if passed then 4 else 3) v) n m
        | .upgrade, some a =>
          if passed then close (datTo (grantOwn s1 n r a) n r 0x31 4 v) n m else close (cmp (grantOwn s1 n r a) r 4) n m
        | _, _ =>
          let e := resolveRead s1 op (dirOf (slice s1 n) r.line) a g
          close (datTo (setDir s1 n e.1) n r 0x30 e.2 v) n m

/-- A read that the home copy serves (R101, R177, R179). -/
def readHome (s : State) (n : Nat) (m : Mshr) (v : Line × Bool) : State :=
  let r := m.req
  let d := dirOf (slice s n) r.line
  match (if isDead (slice s n) r.who then none else agentOf r.who), r.op with
  | some a, .rdOwn => close (datTo (grantOwn s n r a) n r 0x30 3 v) n m
  | some a, .rdShared =>
    if d.dst = 0 ∨ d.dst = 3 then
      if mayOwn s r ∧ ¬ (attrOf s r.line = .pmem ∧ quotaFull s n a) then close (datTo (setDir s n (dxOf s r.line a)) n r 0x30 3 v) n m
      else close (datTo (setDir s n (dfOf s { line := r.line, dst := 0 } a)) n r 0x30 2 v) n m
    else if d.dst = 1 then close (datTo (setDir s n (dfOf s d a)) n r 0x30 2 v) n m
    else close (datTo (setDir s n (addSharer s d a)) n r 0x30 1 v) n m
  | _, _ => close (datTo s n r 0x30 0 v) n m

/-- The reads of R101, once the round has ended (R101, R102, R111, R132). -/
def performRead (s : State) (n : Nat) (m : Mshr) : State :=
  match m.got with
  | some g => readGot s n m g
  | none =>
    match m.req.op, (if isDead (slice s n) m.req.who then none else agentOf m.req.who) with
    | .upgrade, some a => close (cmp (grantOwn s n m.req a) m.req 4) n m
    | _, _ =>
      match homeCopy s n m with
      | none => issueFill s n m true
      | some v => readHome s n m v

/-- ItoM, once the round has ended (R101, R132). -/
def performItoM (s : State) (n : Nat) (m : Mshr) : State :=
  let r := m.req
  match land s n m (dirtyGot m) with
  | (.wait s1, _) => s1
  | (.fail, _) => close (failReq s r 8) n m
  | (.done s1, m1) =>
    match agentOf r.who with
    | some a => if isDead (slice s1 n) r.who then close (cmp s1 r 4) n m1 else close (cmp (grantOwn s1 n r a) r 4) n m1
    | none => close (cmp s1 r 4) n m1

/-- The entry that an answer to RecallDirty leaves (R105). -/
def recalled (s : State) (m : Mshr) (d : Dir) : Dir :=
  match m.got, d.hld with
  | some g, some h =>
    if g.none ∧ g.poison then { line := m.req.line, dst := 0 }
    else if g.st = 0 then removeHolder s d h
    else if g.st = 1 then { d with dst := 1, hld := none }
    else { d with dst := 2 }
  | _, _ => d

/-- A line leaves its home (R81, R154, R155, R283): a dirty way goes to the eviction buffer, whose entry the request waits for; the dirty way of an
invalidate of Normal-DRAM is discarded. -/
def dropLine (s0 : State) (n : Nat) (m : Mshr) (discard : Bool) : State :=
  let r := m.req
  let s := if discard then s0 else readDirty s0 n r.line
  let x := slice s n
  let rest := fun (s : State) => close (if (evbOf (slice s n) r.line).isSome then waitEvb s n r else cmp s r 0) n m
  match findWay x r.line with
  | none => rest s
  | some k =>
    match nget x.ways k with
    | some v =>
      if v.dirty ∧ ¬ discard then
        if 16 ≤ x.evb.length then park s n { m with wait := .room, trs := 7 }
        else rest (pushOut (setSlice s n (dropWay x k)) n v)
      else rest (setSlice s n (dropWay x k))
    | none => rest s

/-- The maintenance operations and the pump's own requests, once the round has ended (R105, R154, R175, R178, R283). -/
def performMaint (s : State) (n : Nat) (m : Mshr) : State :=
  let r := m.req
  match land s n m (dirtyGot m) with
  | (.wait s1, _) => s1
  | (.fail, _) => close (failReq s r 8) n m
  | (.done s1, m1) =>
    let d := dirOf (slice s1 n) r.line
    match r.op with
    | .recallDirty => close (cmp (setDir s1 n (recalled s1 m d)) r 0) n m1
    | .leave _ => close (cmp s1 r 0) n m1
    | .maint 3 => close (cleanHome (setDir s1 n (recalled s1 m d)) n r) n m1
    | _ => dropLine s1 n m1 (decide (r.op = .maint 1) && decide (attrOf s1 r.line = .dram))

/-- A voluntary writeback of the holder (R101): its data written, its entry as STATE names, and Cmp. Data that can be written nowhere, because the
slice does not cache and the backing store is out of service, are dropped, and the entry stays (log entry 109). -/
def performWb (s : State) (n : Nat) (m : Mshr) : State :=
  let r := m.req
  match putLine s n m (r.data, r.poison) (BitVec.allOnes 64) r.data r.poison true with
  | .wait s1 => s1
  | .fail => close (cmp s r 0) n m
  | .done s1 =>
    let d := dirOf (slice s1 n) r.line
    match agentOf r.who with
    | some a =>
      let st := r.arg.toNat
      let e := if st = 0 then removeHolder s1 d a
        else if st = 2 then { d with dst := 2 }
        else { d with dst := 1, hld := none }
      close (cmp (setDir s1 n e) r 0) n m
    | none => close (cmp s1 r 0) n m

/-- The line of a dead owner is poisoned and its entry freed (R133). -/
def performScrub (s : State) (n : Nat) (m : Mshr) : State :=
  let d := dirOf (slice s n) m.req.line
  match d.hld with
  | some h =>
    if deadOwned (slice s n) d then
      let p := poisonLine s n m.req.line 6 h.dev h.port
      if p.2 then
        let s1 := setDir p.1 n { line := m.req.line, dst := 0 }
        close (if h.dev = self s then setPort s1 h.port { port s1 h.port with poisoned := (port s1 h.port).poisoned + 1 } else s1) n m
      else park s n { m with wait := .room, trs := 7 }
    else close s n m
  | none => close s n m

/-- Priming's fill of a line (R76, R211): into the surface and touched. It answers 1 for a line primed, 0 for one skipped, and 2 where it
would displace a valid line. -/
def performPrime (s : State) (n : Nat) (m : Mshr) : State :=
  let r := m.req
  match findWay (slice s n) r.line with
  | some k =>
    let x := slice s n
    if m.home.isNone then close (cmp s r 0) n m
    else if (nget x.ways k).any (fun w => w.poison) then close (cmp (setSlice s n (dropWay x k)) r 0) n m
    else close (cmp s r 1) n m
  | none =>
    if (homeCopy s n m).isSome ∨ caches s n r.line = false ∨ storeUp s r.line = false then close (cmp s r 0) n m
    else match chooseWay s n r.line (inMask s n r) with
      | .way k => if (nget (slice s n).ways k).isSome then close (cmp s r 2) n m else issueFill s n m true
      | .wait => park s n { m with wait := .room, trs := 7 }
      | .none => close (cmp (flag s (F.SLC_ERR_NOALLOC n)) r 0) n m

/-- What a request does once no round is left to wait for. -/
def perform (s : State) (n : Nat) (m : Mshr) : State :=
  match m.req.op with
  | .rdShared => performRead s n m
  | .rdOwn => performRead s n m
  | .rdOnce => performRead s n m
  | .rsvLd => performRead s n m
  | .upgrade => performRead s n m
  | .itoM => performItoM s n m
  | .write => performWrite s n m
  | .stashWr => performWrite s n m
  | .condSt => performWrite s n m
  | .atomHome => performWrite s n m
  | .atomMem => performWrite s n m
  | .maint 4 => lockLine s n m
  | .maint 6 => performWrite s n m
  | .maint _ => performMaint s n m
  | .recallDirty => performMaint s n m
  | .evacuate => performMaint s n m
  | .leave _ => performMaint s n m
  | .wb => performWb s n m
  | .scrub => performScrub s n m
  | .primeFill => performPrime s n m
  | .sweep => issueFill s n m false
  | .evict => close s n m

/-- Whether a request would grant a state other than I to its agent (R129). -/
def grants (x : Slice) (r : HReq) : Bool :=
  !(isDead x r.who) && (match r.op with
    | .rdShared => true
    | .rdOwn => true
    | .itoM => true
    | _ => false)

/-- A round opens: its forwards leave in one decision, and the MSHR counts their answers (R120). -/
def startRound (s : State) (n : Nat) (m : Mshr) (d : Dir) (t : Nat) (ts : List (Target × Nat)) : State :=
  let s1 := ts.foldl (fun s f => sendFwd s n m.req m.req.line f 0) s
  let h := if t = 3 ∧ d.dst ≠ 3 ∧ d.dst ≠ 4 then none else if hopOf ts d.hld = 0 then none else d.hld
  park s1 n { m with trs := t, plus := false, h := h, hop := hopOf ts h, awaits := ts.map (·.1), got := none, wait := .none }

/-- Serve a request whose line's entry, where it needs one, is there: its round, or its work (R101, R120). The resident line is read where the
request reads it; one that cannot be corrected and is clean is gone, and the request is served as a miss (R227). -/
def serveRound (s : State) (n : Nat) (m : Mshr) : State :=
  let r := m.req
  let d := dirOf (slice s n) r.line
  match roundOf s n r d (homeCopy s n m).isSome with
  | some (t, ts) => startRound s n m d t ts
  | none =>
    let s1 := readFor s n m
    match roundOf s1 n r d (homeCopy s1 n m).isSome with
    | some (t, ts) => startRound s1 n m d t ts
    | none => perform s1 n m

/-- Serve a request from the stable state of its line: the touch of a hit, the directory way it needs, its round, its work (R75, R100, R120,
R129). A request that finds every directory way pinned is turned back. -/
def advance (s : State) (n : Nat) (m : Mshr) : State :=
  let r := m.req
  let s1 := hitTouch s n r
  let x := slice s1 n
  if grants x r ∧ (findDir x r.line).isNone then
    match chooseDir x r.line with
    | .way k => serveRound (setSlice s1 n (touchDir { x with dir := nset x.dir k { line := r.line, dst := 0, trs := 7 } } k)) n m
    | .victim k => recallVictim s1 n m k
    | .none => turnBack s n r
  else serveRound s1 n m

/-- An Evict at its home (R101, R123). -/
def serveEvict (s : State) (n : Nat) (r : HReq) : State :=
  let d := dirOf (slice s n) r.line
  match agentOf r.who with
  | none => cmp s r 0
  | some a =>
    if recorded s d a = false then cmp s r 0
    else if d.hld = some a then
      if d.dst = 4 then push s (.breach (match r.link with
        | some l => vlS l
        | none => apS a.port) 4 r.hdr)
      else cmp (setDir s n (removeHolder s d a)) r 0
    else if a.dev = self s then
      let shr := clrBit d.shr (shrBit s a)
      cmp (setDir s n { d with shr := shr, dst := if shr = 0 then 0 else d.dst }) r 0
    else cmp s r 0

/-- The request as its line's entry and the dead mask make of it (R101, R124, R132). -/
def normal (s : State) (n : Nat) (r : HReq) : HReq :=
  let d := dirOf (slice s n) r.line
  match r.op, agentOf r.who with
  | .upgrade, some a =>
    let plain := d.dst ≠ 0 ∧ d.dst ≠ 3 ∧ (if a.dev = self s then hasBit d (shrBit s a) = true else d.hld = some a)
    if plain then r else { r with op := .rdOwn }
  | _, _ => r

/-- Requests that need the backing store of their line in service (R25, R218): accesses, but not writebacks, Evicts, and what the device does for
itself. A boot line that is resident is served without the Cistern. -/
def needsStore (s : State) (r : HReq) : Bool :=
  decide (attrOf s r.line ≠ .boot) && decide (r.who ≠ .pump ∧ r.who ≠ .prime) && decide (r.op ≠ .wb ∧ r.op ≠ .evict)

/-- Requests that end in cause 8 from WARN on (R198): those that can make a PMEM line dirty, but for ingress and PCIe queue entries. A grant of E
can, since E is written without a message (log entry 39). -/
def warned (s : State) (n : Nat) (r : HReq) : Bool :=
  gated s && isPmem r.line
    && (takesOwn r.op || isWrite r.op || (decide (r.op = .rdShared) && decide ((dirOf (slice s n) r.line).dst = 0) && mayOwn s r))
    && r.entry.isNone && !(r.link.isSome && decide (r.op = .write ∨ r.op = .stashWr))

/-- A request that needs an MSHR and finds all 64 open is turned back (R79). -/
def serveMshr (s : State) (n : Nat) (r : HReq) : State :=
  let t := advance s n { req := r }
  if 64 < (slice t n).mshrs.length then turnBack s n r else t

/-- Serve a request that has passed H1 (R25, R71, R81, R101, R154, R198). -/
def serve (s0 : State) (n : Nat) (r0 : HReq) : State :=
  let s1 := readTags s0 n r0.line
  let s := count s1 n (if (findWay (slice s1 n) r0.line).isSome then 2 else 3)
  let r := normal s n r0
  if takesOwn r.op ∧ mayOwn s r = false then failReq s r 4
  else if warned s n r then failHome s n r 8
  else if needsStore s r ∧ storeUp s r.line = false then failHome s n r 8
  else match r.op with
  | .evict => serveEvict s n r
  | .maint 0 => cleanHome s n r
  | .maint 5 =>
    match findWay (slice s n) r.line with
    | some k => match nget (slice s n).ways k with
      | some w => cmp (setSlice s n (setWay (slice s n) k { w with lock := false })) r 0
      | none => cmp s r 0
    | none => cmp s r 0
  | .maint 3 => if attrOf s r.line = .pmem then serveMshr s n r
    else if (evbOf (slice s n) r.line).isSome then waitEvb s n r else cmp s r 0
  | .wb => advance s n { req := r }
  | _ => serveMshr s n r

/-- Whether a slice holds a request at H1 (R81, R94, R174, R177, R179, R207, R283, R302). -/
def mustHold (s : State) (n : Nat) (r : HReq) : Bool :=
  let x := slice s n
  let pm := !(gated s) && isPmem r.line
  decide (slcState s n = 0)
    || decide (r.epoch = (x.epoch + 1) % 256 ∧ r.epoch ≠ x.epoch)
    || (isPmem r.line && !s.start.classified)
    || (isWrite r.op && x.evb.any (fun e => decide (e.line = r.line) && e.writing))
    || (pm && isWrite r.op && (decide (pdqShare s ≤ pdirty x) || atBound s n))
    || (pm && takesOwn r.op && (match agentOf r.who with
      | some a => decide (ownShare s ≤ ownOf x a + owning x (some a)) || decide (ownPool s ≤ ownAll x + owning x none) || atBound s n
      | none => false))
    || (marked s n r.line && (takesOwn r.op || decide (r.op = .rdShared)))

/-- The pump's own cleaning and RecallDirty requests, and the drain, are never held and wait behind no held request (R174). -/
def pumpOwn (r : HReq) : Bool :=
  decide (r.who = .pump) && decide (r.op = .recallDirty ∨ r.op = .scrub ∨ r.op = .maint 0 ∨ r.op = .maint 3)

/-- H0 and H1: no request while 12 entries of the conflict queue are not free; then attach, queue, hold, or the pipeline (R72, R73, R78, R100,
R122, R128, R129). -/
def h1 (s : State) (n : Nat) (r : HReq) : State :=
  let x := slice s n
  if 20 < x.cq.length then hold s n r
  else if earlier x.cq r then queue s n r
  else if ¬ pumpOwn r ∧ earlier x.held r then hold s n r
  else match x.mshrs.find? (fun m => decide (m.req.line = r.line)) with
    | some m =>
      if m.secs.length < 8 then
        count (setSlice s n { x with mshrs := updOne (fun q => decide (q.req.line = r.line)) (fun q => { q with secs := q.secs ++ [r] }) x.mshrs }) n 4
      else queue s n r
    | none =>
      if x.mshrs.any (fun m => decide (m.victim = some r.line)) then queue s n r
      else if (if pumpOwn r then decide (slcState s n = 0) else mustHold s n r) then hold s n r
      else serve s n r

/-- Why a request that arrived is held, as an event of R389: the PDQ share, ownership, an epoch to come. -/
def holdEvent (s : State) (n : Nat) (r : HReq) : Option Nat :=
  let x := slice s n
  if r.epoch = (x.epoch + 1) % 256 ∧ r.epoch ≠ x.epoch then some 14
  else if isPmem r.line ∧ isWrite r.op ∧ pdqShare s ≤ pdirty x then some 9
  else if isPmem r.line ∧ takesOwn r.op then some 10
  else none

/-- A request arrives at a slice (R38, R71, R100, R389): it takes its place in the order of arrival at H1. -/
def homeArrive (s : State) (n : Nat) (r : HReq) : State :=
  if sliceUp s n = false then failReq s r 5
  else
    let x := slice s n
    let s0 := setSlice s n { x with arrivals := x.arrivals + 1 }
    let s1 := h1 (count s0 n 1) n { r with seq := x.arrivals }
    if x.held.length < (slice s1 n).held.length then
      (match holdEvent s n r with
        | some e => count s1 n e
        | none => s1)
    else s1

/-- A round's data written at the victim's place before its entry is freed (R104): into the surface, under the allotment of the request that needs
the entry (log entry 105), the eviction buffer, or not at all where the line is clean and resident. None where it must wait. -/
def putVictim (s : State) (n : Nat) (m : Mshr) (l : LineAddr) (g : Got) : Option State :=
  let x := slice s n
  let w : Way := { line := l, data := g.data, poison := g.poison, dirty := g.dirty, p := isPmem l, boot := decide (attrOf s l = .boot),
                   allot := allotOf s n m.req.epoch (allocSource s m.req) }
  let waiting := fun (e : Evb) => decide (e.line = l) && !e.writing
  let out := fun (s : State) => if g.dirty = false then some s else if 16 ≤ x.evb.length then none else some (pushOut s n w)
  if g.none then some s
  else match (findWay x l).bind (fun k => (nget x.ways k).map (fun v => (k, v))) with
  | some (k, v) =>
    some (if g.dirty then setSlice s n (noteWritten (setWay x k { v with data := g.data, poison := g.poison, dirty := true, p := isPmem l }) l) else s)
  | none =>
    if x.evb.any waiting then
      some (if g.dirty then setSlice s n { x with evb := updOne waiting (fun e => { e with data := g.data, poison := g.poison }) x.evb } else s)
    else if caches s n l = false then out s
    else match chooseWay s n l (inMask s n m.req) with
      | .way k =>
        let s1 := evictWay s n k
        let s2 := if isPmem l then s1 else tierClear s1 l
        some (setSlice s2 n (touchWay (noteWritten (newWay (slice s2 n) k w) l) k))
      | .none => (out s).map (fun t => flag t (F.SLC_ERR_NOALLOC n))
      | .wait => none

/-- The Cmp of a writeback that a round has used (R121). -/
def slotCmp (s : State) (l : LineAddr) (w : WbSlot) : State :=
  cmp s { who := .agent w.src, link := w.link, tx := w.tx, op := .wb, line := l } 0

/-- A round has ended: a victim's entry becomes the new line's and the request goes on; or the entry loses what the round took and the
request is resolved (R104, R120, R121, R129). `m` is not listed. -/
def endRound (s : State) (n : Nat) (m : Mshr) : State :=
  let got := match m.plus, m.slot with
    | true, some w => some { dirty := true, st := if m.trs = 1 ∨ m.trs = 5 then w.st else 0, data := w.data, poison := w.poison : Got }
    | _, _ => m.got
  let s1 := match m.plus, m.slot with
    | true, some w => slotCmp s ((m.victim).getD m.req.line) w
    | _, _ => s
  let m1 := { m with got := got, slot := if m.plus then none else m.slot, plus := false, awaits := [] }
  match m.victim with
  | some v =>
    match (match got with
      | some g => putVictim s1 n m v g
      | none => some s1) with
    | none => park s1 n { m1 with wait := .room }
    | some s2 =>
      let x := slice s2 n
      let x1 := match findDir x v with
        | some k => touchDir { x with dir := nset x.dir k { line := m.req.line, dst := 0, trs := 7 } } k
        | none => x
      let m2 := { m1 with victim := none, trs := 0, h := none, got := none, wait := .none }
      let s3 := push (setSlice s2 n x1) (.tend n)
      if m.answered then offerStash s3 n m2 else serveRound s3 n m2
  | none =>
    let x := slice s1 n
    let d := dirOf x m.req.line
    let a := agentOf m.req.who
    let spared := sparesOwn m.req.op d
    let keep := match a with
      | some b => if spared ∧ b.dev = self s ∧ hasBit d (shrBit s b) ∧ (m.req.op = .upgrade ∨ d.hld ≠ a) then BitVec.ofNat 9 (1 <<< shrBit s b) else 0
      | none => 0
    let d' := if m.trs = 2 ∨ m.trs = 3 ∨ m.trs = 4 then
        (match m.req.op with
        | .leave dev =>
          let shr := if dev = self s then 0 else clrBit d.shr (6 + linkTo s dev)
          let gone : Bool := match d.hld with
            | some h => decide (dev = self s) || decide (h.dev = dev)
            | none => false
          { d with shr := shr, hld := if gone then none else d.hld, dst := if d.hld.isSome && !gone then d.dst else if shr = 0 then 0 else 1 }
        | _ => if m.req.op = .scrub then { d with shr := match d.hld with
            | some h => BitVec.ofNat 9 (1 <<< shrBit s h)
            | none => 0 }
        else
          let mine : Bool := decide (m.req.op = .upgrade) && decide (d.hld = a) && d.hld.isSome
          { d with shr := keep, hld := if mine then d.hld else none, dst := if mine then d.dst else if keep = 0 then 0 else 1 })
      else d
    let x1 := match findDir x m.req.line with
      | some k => { x with dir := nset x.dir k { d' with trs := 7 } }
      | none => x
    let m2 := { m1 with trs := 7, h := none }
    perform (readFor (setSlice s1 n x1) n m2) n m2

/-- Whether an answer can occur for a forward in its round (R102, R103, R122). -/
def canOccur (m : Mshr) (d : Dir) (a : HAns) : Bool :=
  let isH := decide (m.h = some a.src)
  let st := bits a.arg 0 3
  let owner := decide (d.dst = 3 ∨ d.dst = 4)
  let taken := decide (m.trs = 2 ∨ (m.trs = 4 ∧ m.hop = 0x21)) && decide (st = 0)
  match a.opc with
  | 0x28 => if isH ∧ (m.trs = 1 ∨ m.trs = 2) then decide (d.dst ≠ 4) else true
  | 0x29 => decide (m.trs = 5) && isH
  | 0x2A => decide (m.trs = 5) && isH
  | 0x2B => isH && owner && decide (m.trs ≠ 6)
  | 0x30 => isH && decide (d.dst ≠ 4) && (if m.trs = 1 then decide (st ≤ 2) else taken)
  | 0x31 => isH && owner && (if m.trs = 1 then decide (st ≤ 2 ∨ st = 5) else taken)
  | 0x32 => isH && owner && (if m.trs = 5 then decide (bits a.arg 1 3 ≤ 2) else decide (m.trs = 4 ∧ m.hop = 0x23 ∧ bits a.arg 1 3 = 0))
  | _ => false

/-- What a dead answer of the owner does (R122, R133): the line is poisoned, and the answer counts as dirty. -/
def deadOwner (s : State) (n : Nat) (l : LineAddr) (h : Agent) : State :=
  let s1 := poisonNow s n l 6 h.dev h.port
  if h.dev = self s then setPort s1 h.port { port s1 h.port with poisoned := (port s1 h.port).poisoned + 1 } else s1

/-- An answer reaches its home (R120–R122, R131). -/
def takeAnswer (s : State) (n : Nat) (a : HAns) : State :=
  let x := slice s n
  let t : Target := if a.src.port = 7 then .peer (linkTo s a.src.dev) else .agent a.src
  let mine := fun (m : Mshr) => decide (m.victim.getD m.req.line = a.line) && m.awaits.contains t
  match x.mshrs.find? mine with
  | none => if a.dead then s else push s (.breach (match a.link with
      | some l => vlS l
      | none => apS a.src.port) 4 a.hdr)
  | some m =>
    let d := dirOf x a.line
    let s0 := setSlice s n { x with mshrs := dropOne mine x.mshrs }
    let ok := a.dead || canOccur m d a
    let s1 := if ok then s0 else push s0 (.breach (match a.link with
      | some l => vlS l
      | none => apS a.src.port) 4 a.hdr)
    let dead := a.dead || !ok
    let isH := decide (m.h = some a.src)
    let owner := decide (d.dst = 3 ∨ d.dst = 4)
    if m.trs = 6 then resolveOffer s1 n { m with awaits := [], h := none } { a with dead := dead }
    else
      let left := m.awaits.erase t
      let poisons := dead && isH && owner && decide (m.trs ≠ 3)
      let s2 := if poisons then deadOwner s1 n a.line a.src else s1
      let got := if poisons then some { dirty := true, st := 0, data := 0, poison := true, none := true : Got }
        else if isH = false then m.got
        else if dead ∨ a.opc = 0x28 then
          (if m.trs = 1 ∨ m.trs = 2 ∨ m.trs = 5 then some { dirty := false, st := 0, data := 0, poison := false, none := true : Got } else m.got)
        else if a.opc = 0x29 then some { dirty := false, st := 1, data := 0, poison := false, none := true }
        else if a.opc = 0x2A then some { dirty := false, st := 2, data := 0, poison := false, none := true }
        else if a.opc = 0x30 then some { dirty := false, st := bits a.arg 0 3, data := a.data, poison := a.poison }
        else if a.opc = 0x31 then some { dirty := true, st := bits a.arg 0 3, data := a.data, poison := a.poison }
        else if a.opc = 0x32 then some { dirty := true, st := bits a.arg 1 3, data := a.data, poison := a.poison }
        else m.got
      let plus := m.plus || (!dead && decide (a.opc = 0x2B))
      let m1 := { m with awaits := left, got := got, plus := plus }
      if left = [] ∧ (plus = false ∨ m1.slot.isSome) then endRound s2 n m1 else park s2 n m1

/-- A voluntary writeback reaches its home (R101, R120, R122): into the slot of an MSHR with a round, where it ends a +WB round;
else written as R101 states. In SO, FL and AM it cannot occur. -/
def takeWb (s : State) (n : Nat) (a : HAns) : State :=
  let x := slice s n
  let breach := push s (.breach (match a.link with
    | some l => vlS l
    | none => apS a.src.port) 4 a.hdr)
  let d := dirOf x a.line
  let owner := d.hld = some a.src ∧ (d.dst = 3 ∨ d.dst = 4)
  let mine := fun (m : Mshr) => decide (m.victim.getD m.req.line = a.line)
  if ¬ owner ∨ bits a.arg 1 3 > 2 then breach
  else match x.mshrs.find? mine with
  | some m =>
    if m.trs = 0 ∨ 6 ≤ m.trs then breach
    else
      let m1 := { m with slot := some { src := a.src, link := a.link, tx := a.tx, st := bits a.arg 1 3, data := a.data, poison := a.poison } }
      let s0 := setSlice s n { x with mshrs := dropOne mine x.mshrs }
      if m.plus ∧ m.awaits = [] then endRound s0 n m1 else park s0 n m1
  | none =>
    serve s n { who := .agent a.src, link := a.link, tx := a.tx, op := .wb, line := a.line, data := a.data, poison := a.poison,
                arg := BitVec.ofNat 12 (bits a.arg 1 3) }

/-- A writeback that a home awaits from an agent of a lost peer does not come (R131, R134): its line is poisoned, as for a dead answer of its
owner. -/
def lostWb (s : State) (n d : Nat) : State :=
  let lost := fun (m : Mshr) => m.plus && m.slot.isNone && m.h.any (fun h => decide (h.dev = d))
  let x := slice s n
  (x.mshrs.filter lost).foldl (fun s m =>
    match m.h with
    | none => s
    | some h =>
      let y := slice s n
      let s1 := deadOwner (setSlice s n { y with mshrs := y.mshrs.filter (fun q => decide (q.req.line ≠ m.req.line)) }) n (m.victim.getD m.req.line) h
      let m1 := { m with plus := false, got := some { dirty := true, st := 0, data := 0, poison := true, none := true } }
      if m1.awaits = [] then endRound s1 n m1 else park s1 n m1) s

/-- MSHRs that waited for a way, an eviction-buffer entry or a directory way try again (R76, R80, R106). -/
def retryRoom (s : State) (n : Nat) : State :=
  let x := slice s n
  let ready := x.mshrs.filter (fun m => decide (m.wait = .room ∨ m.wait = .dirWay))
  let s0 := setSlice s n { x with mshrs := x.mshrs.filter (fun m => !(decide (m.wait = .room ∨ m.wait = .dirWay))) }
  ready.foldl (fun s m =>
    let m1 := { m with wait := .none }
    if m.wait = .dirWay then offerStash s n m1
    else if m.victim.isSome then endRound s n m1
    else perform s n m1) s0

/-- Held requests are tried again in their order (R174). -/
def retryHeld (s : State) (n : Nat) : State :=
  let x := slice s n
  x.held.foldl (fun s r => h1 s n r) (setSlice s n { x with held := [] })

/-- A cleaning of a way by the pump (R175, R227). -/
def pumpClean (s0 : State) (n : Nat) (k : Nat) : State :=
  let s := readChunks s0 n k
  match nget (slice s n).ways k with
  | some w => startClean s n (if pdqShare s ≤ pdirty (slice s n) then 1 else 2)
      { line := w.line, data := w.data, poison := w.poison, p := true }
  | none => s

/-- The next dirty persistent way from the cursor on, round the sets, that no cleaning has (R175). -/
def nextDirty (x : Slice) : Option Nat :=
  let ok := fun (e : Nat × Way) => e.2.p && e.2.dirty && !(x.cleans.any (fun c => decide (c.line = e.2.line)))
  match x.ways.find? (fun e => ok e && decide (x.cursor * 16 ≤ e.1)) with
  | some e => some e.1
  | none => (x.ways.find? ok).map (·.1)

/-- The level at which cleaning stops (R175). -/
def cleanStop (s : State) : Nat :=
  if effF s F.PMP_CLEAN_START ≤ effF s F.PMP_CLEAN_STOP then effF s F.PMP_CLEAN_START - 1 else effF s F.PMP_CLEAN_STOP

/-- One step of the cleaning engine of a slice (R175): started at the start level, stopped at the stop level. -/
def cleanStep (s : State) (n : Nat) : State :=
  let x := slice s n
  let lvl := pdirty x
  let on := if pdqShare s * effF s F.PMP_CLEAN_START ≤ lvl * 100 then true
    else if lvl * 100 ≤ pdqShare s * cleanStop s then false else x.cleaning
  let s1 := if on = x.cleaning then s else setSlice s n { x with cleaning := on }
  if on ∧ ¬ quiet s ∧ ¬ gated s ∧ (x.cleans.filter (·.pump)).length < 8 then
    match nextDirty (slice s1 n) with
    | some k => pumpClean (setSlice s1 n { slice s1 n with cursor := k / 16 }) n k
    | none => s1
  else s1

/-- The cleaning engine fills its eight places (R175). -/
def cleanSteps (s : State) (n : Nat) : State := (List.range 8).foldl (fun s _ => cleanStep s n) s

/-- A request of the slice's own walks for a line is already on its way to the pipeline. -/
def queuedHome (s : State) (n : Nat) (op : HOp) (l : LineAddr) : Bool :=
  s.fabric.any (fun f => match f with
    | .home k r => decide (k = n) && decide (r.op = op) && decide (r.line = l)
    | _ => false)

/-- The agent whose ownership a slice trims next, if any, and whether the pool asks for it (R178). -/
def trimWho (s : State) (n : Nat) : Option (Agent × Bool) :=
  let x := slice s n
  let all := (x.dir.filterMap (fun e => if (e.2.dst = 3 ∨ e.2.dst = 4) ∧ isPmem e.2.line then e.2.hld else none)).eraseDups
  let pct := effF s F.PMP_OWNQ_TRIM
  match all.find? (fun a => decide (ownShare s * pct ≤ ownOf x a * 100)) with
  | some a => some (a, false)
  | none =>
    if ownPool s * pct ≤ ownAll x * 100 then
      (all.find? (fun a => all.all (fun b => decide (ownOf x b ≤ ownOf x a)))).map (fun a => (a, true))
    else none

/-- TRIM_STOP as the boundary clamps it (R191). -/
def trimStop (s : State) : Nat := min (effF s F.PMP_OWNQ_TRIM_STOP) (effF s F.PMP_OWNQ_TRIM - 1)

/-- How far a count is above the stop of its trim (R178). -/
def trimLeft (s : State) (x : Slice) (t : Agent × Bool) : Nat :=
  if t.2 then (ownAll x * 100 - ownPool s * trimStop s + 99) / 100 else (ownOf x t.1 * 100 - ownShare s * trimStop s + 99) / 100

/-- The ownership trim of a slice (R178): RecallDirty for entries of the agent until the count reaches the stop. -/
def trimStep (s : State) (n : Nat) : State :=
  let x := slice s n
  let who := match x.trimming with
    | some t => if trimLeft s x t = 0 then trimWho s n else if t.2 then (match trimWho s n with
        | some u => some (u.1, true)
        | none => some t) else some t
    | none => trimWho s n
  match who with
  | none => if x.trimming.isSome then setSlice s n { x with trimming := none } else s
  | some t =>
    let mine := fun (d : Dir) => decide (d.dst = 3 ∨ d.dst = 4) && isPmem d.line && decide (d.hld = some t.1)
    let busy := (x.dir.filter (fun e => mine e.2 && (queuedHome s n .recallDirty e.2.line
      || x.mshrs.any (fun m => decide (m.req.op = .recallDirty) && decide (m.req.line = e.2.line))))).length
    let es := x.dir.filter (fun e => mine e.2 && decide (e.2.trs = 0) && !(queuedHome s n .recallDirty e.2.line))
    (es.take (trimLeft s x t - busy)).foldl
      (fun s e => push s (.home n { who := .pump, op := .recallDirty, line := e.2.line, epoch := x.epoch }))
      (setSlice s n { x with trimming := some t })

/-- Whether a transaction of a line is open: its own, or a round that evicts its entry (R122, R163). -/
def inRound (x : Slice) (l : LineAddr) : Bool := x.mshrs.any (fun m => decide (m.req.line = l) || decide (m.victim = some l))

/-- The DRAINING walk goes on as far as it can (R163): it waits at a reserved way, at an open MSHR, at a full eviction
buffer, and in a quiet window. -/
def drainWalk (s : State) (n : Nat) : Nat → State
  | 0 => s
  | fuel + 1 =>
    let x := slice s n
    if slcState s n ≠ 3 ∨ quiet s ∨ gated s ∨ 2048 ≤ x.walk then s
    else match x.ways.find? (fun e => decide (x.walk * 16 ≤ e.1)) with
      | none => setSlice s n { x with walk := 2048 }
      | some e =>
        let s1 := setSlice s n { x with walk := e.1 / 16 }
        if e.2.pend ∨ inRound x e.2.line ∨ (e.2.dirty ∧ 16 ≤ x.evb.length) then s1 else drainWalk (walkWay s1 n e.1) n fuel

/-- Start DRAINING (R163). -/
def startDraining (s : State) (n : Nat) : State :=
  let s1 := setF s (F.SLC_STAT_STATE n) 3
  push (setSlice s1 n { slice s1 n with rsv := [], walk := 0 }) (.tend n)

/-- The evacuation walks go on (R283): ways of marked buckets are evicted while the eviction buffer has room, and up to
16 directory rounds are in flight. -/
def evacStep (s : State) (n : Nat) : State :=
  let x := slice s n
  if x.evacOn = false ∨ quiet s ∨ gated s then s
  else
    let ws := x.ways.filter (fun e => marked s n e.2.line && !e.2.pend && !(inRound x e.2.line))
    let s1 := ws.foldl (fun s e => if e.2.dirty ∧ 16 ≤ (slice s n).evb.length then s else walkWay s n e.1) s
    let busy := (x.mshrs.filter (fun m => decide (m.req.op = .evacuate))).length
      + (x.dir.filter (fun e => queuedHome s n .evacuate e.2.line)).length
    let es := x.dir.filter (fun e => marked s n e.2.line && decide (e.2.trs = 0) && !(queuedHome s n .evacuate e.2.line))
    (es.take (16 - busy)).foldl (fun s e => push s (.home n { who := .pump, op := .evacuate, line := e.2.line, epoch := x.epoch })) s1

/-- The allotment set of the epoch before is kept until no request of that epoch remains in the slice (R302). -/
def dropOldSet (s : State) (n : Nat) : State :=
  let x := slice s n
  match x.oldSet with
  | none => s
  | some (e, _) =>
    let old := fun (r : HReq) => decide (r.epoch = e)
    if x.mshrs.any (fun m => old m.req || m.secs.any old) || x.cq.any old || x.held.any old then s
    else setSlice s n { x with oldSet := none }

/-- What a slice does when something in it has ended: waiting work is tried again, and its engines go on. -/
def tend (s : State) (n : Nat) : State :=
  if sliceUp s n = false then s
  else
    let s1 := retryHeld (retryRoom (dropOldSet s n) n) n
    let s2 := drainWalk s1 n ((slice s1 n).ways.length + 2)
    trimStep (evacStep (cleanSteps s2 n) n) n

/-- What a backing-store read gives a home: data, poison, and 0 clean, 1 corrected, 2 uncorrectable. -/
abbrev Fetched := Line × Bool × Nat

/-- The fill of an MSHR has its data (R71, R77, R166): a sweep ends; else the line goes into its reserved way and the request
is served. `m` is not listed. -/
def fillWith (s : State) (n : Nat) (m : Mshr) (d : Fetched) : State :=
  let l := m.req.line
  if m.req.op = .sweep then close (cmp s m.req d.2.2) n m
  else
    let m1 := { m with wait := .none, home := some (d.1, d.2.1), way := none }
    match m.way with
    | some k =>
      let a := attrOf s l
      let w : Way := { line := l, p := decide (a = .pmem), boot := decide (a = .boot), poison := d.2.1, data := d.1,
                       allot := allotOf s n m.req.epoch (allocSource s m.req) }
      perform (push (setSlice s n (touchWay (newWay (slice s n) k w) k)) (.tend n)) n m1
    | none => perform s n { m1 with noRoom := true }

/-- The code a read's outcome has. -/
def readCode (corr ue : Bool) : Nat := if ue then 2 else if corr then 1 else 0

/-- What a sweep's read has found; the sweep ends once a corrective write is complete (R155, R166). -/
def sweepRead (s : State) (n : Nat) (m : Mshr) (code : Nat) : State :=
  if code = 0 then close (cmp s m.req 0) n m else park s n { m with wait := .fixed, trs := 7, code := code }

/-- A corrective write of a Cistern line is complete: the sweeps that wait for it end (R155). -/
def fixedDone (s : State) (line : Nat) : State :=
  let mine := fun (s : State) (m : Mshr) => decide (m.wait = .fixed) && decide (cisLine s m.req.line = line)
  s.slices.foldl (fun s e => ((slice s e.1).mshrs.filter (mine s)).foldl (fun s m =>
    let y := slice s e.1
    close (cmp (setSlice s e.1 { y with mshrs := y.mshrs.filter (fun q => decide (q.req.line ≠ m.req.line)) }) m.req m.code) e.1 m) s) s

/-- Data returns from the backing store (R71, R77, R180, R222–R229). `e` is the error pattern of the stored line as it is
read. A Tier copy that cannot be corrected, or whose address check fails, is no hit, and the DRAM data serve (R17, R180; log entry 112). -/
def fillReturn (s : State) (n : Nat) (l : LineAddr) (e : BitVec 640) : State :=
  let x := slice s n
  let mine := fun (m : Mshr) => decide (m.req.line = l) && decide (m.wait = .fill)
  match x.mshrs.find? mine with
  | none => s
  | some m =>
    if storeUp s l = false then s
    else
      let s0 := setSlice s n { x with mshrs := dropOne mine x.mshrs }
      match attrOf s l, m.tier with
      | .dram, some (t, c) =>
        let r := cisDecode s0 t c e
        if r.1.ue then
          let q := dramRead r.2 l 0
          fillWith q.2 n m (q.1.data, q.1.poison, 0)
        else fillWith r.2 n m (r.1.data, r.1.poison, readCode r.1.corr false)
      | .dram, none =>
        let r := dramRead s0 l e
        fillWith r.2 n m (r.1.data, r.1.poison, readCode r.1.corr r.1.ue)
      | _, _ =>
        let r := cisRead s0 (cisLine s0 l) e
        if m.req.op = .sweep then sweepRead r.2 n m (readCode r.1.corr r.1.ue)
        else fillWith r.2 n m (r.1.data, r.1.poison, readCode r.1.corr r.1.ue)

/-- The channel's read for an AtomMem has its data (R108, R109): no operation on a poisoned line. `m` is not listed. -/
def atomWith (s : State) (n : Nat) (m : Mshr) (data : Line) (poison : Bool) : State :=
  let run := atomRun m.req.arg m.req.data data
  let s1 := match (if poison then none else run.2) with
    | some v => wrote (dramWrite s m.req.line v false) n m.req
    | none => s
  close (finish s1 m.req 0x30 3 0 run.1 poison) n m

/-- The channel completes an AtomMem (R108, R109, R122). -/
def atomReturn (s : State) (n : Nat) (l : LineAddr) (e : BitVec 640) : State :=
  let x := slice s n
  let mine := fun (m : Mshr) => decide (m.req.line = l) && decide (m.wait = .atomic)
  match x.mshrs.find? mine with
  | none => s
  | some m =>
    if storeUp s l = false then s
    else
      let r := dramRead (setSlice s n { x with mshrs := dropOne mine x.mshrs }) l e
      atomWith r.2 n m r.1.data r.1.poison

/-- The requests that waited for a line's write complete (R81, R154, R155). -/
def finishAll (s : State) (rs : List HReq) : State := rs.foldl (fun s r => cmp s r 0) s

/-- An eviction-buffer entry leaves WAIT when its backing store takes the write (R80, R187). From WARN an entry that is not persistent is
discarded (R198). -/
def evbIssue (s : State) (n : Nat) (l : LineAddr) : State :=
  let x := slice s n
  let mine := fun (e : Evb) => decide (e.line = l) && !e.writing
  let mark := fun (s : State) (f : Evb → Evb) => setSlice s n { slice s n with evb := updOne mine f (slice s n).evb }
  match x.evb.find? mine with
  | none => s
  | some e =>
    if !e.p && gated s then push (finishAll (setSlice s n { x with evb := dropOne mine x.evb }) e.after) (.tend n)
    else if x.evb.any (fun q => decide (q.line = l) && q.writing) ∨ storeUp s l = false ∨ e.delayed then s
    else if e.p then meter (mark s (fun q => { q with delayed := true })) { prio := 1, kind := .evb n l }
    else mark (dramWrite s l e.data e.poison) (fun q => { q with writing := true })

/-- The backing store confirms a write of the eviction buffer, or a line write through an MSHR (R80, R85, R94). -/
def evbConfirm (s : State) (n : Nat) (l : LineAddr) : State :=
  let x := slice s n
  let mine := fun (e : Evb) => decide (e.line = l) && e.writing
  match x.evb.find? mine with
  | some e => push (finishAll (setSlice s n { x with evb := dropOne mine x.evb }) e.after) (.tend n)
  | none =>
    let open' := fun (m : Mshr) => decide (m.req.line = l) && decide (m.wait = .confirm) && m.admitted
    match x.mshrs.find? open' with
    | some m =>
      let s0 := setSlice s n { x with mshrs := dropOne open' x.mshrs }
      let m1 := { m with wait := .none, confirmed := true }
      if m.offered then close s0 n m1
      else perform s0 n m1
    | none => s

/-- A cleaning is confirmed (R154, R175): the way is clean unless a write reached it. -/
def cleanConfirm (s : State) (n : Nat) (l : LineAddr) : State :=
  let x := slice s n
  let mine := fun (c : Cleaning) => decide (c.line = l) && c.admitted
  match x.cleans.find? mine with
  | none => s
  | some c =>
    let x1 := { x with cleans := dropOne mine x.cleans }
    let x2 := match findWay x1 l with
      | some k => match nget x1.ways k with
        | some w => if c.written then x1 else setWay x1 k { w with dirty := false }
        | none => x1
      | none => x1
    push (finishAll (setSlice s n x2) c.after) (.tend n)

/-- Whether a queued request can leave the conflict queue (R128): no MSHR for its line, none earlier of its line queued, and, where it needs them, an
MSHR and a directory way. -/
def canLeave (s : State) (n : Nat) (r : HReq) : Bool :=
  let x := slice s n
  !(inRound x r.line) && !(earlier x.cq r) && decide ((slice (serve s n r) n).cq.length ≤ x.cq.length)

/-- A request leaves the conflict queue, the oldest of those able to, and enters H0 again (R128). -/
def leaveQueue (s : State) (n : Nat) : State :=
  let x := slice s n
  let able := x.cq.filter (canLeave s n)
  match able.find? (fun r => able.all (fun q => decide (r.seq ≤ q.seq))) with
  | none => s
  | some r => h1 (setSlice s n { x with cq := dropOne (fun q => decide (q = r)) x.cq }) n { r with turned := false }

/-- The dead mask of a slice takes an agent, and its scan starts (R130, R133); its reservations go (R112). -/
def deadNotice (s : State) (n : Nat) (a : Agent) : State :=
  let x := slice s n
  if x.dead.contains a then s
  else setSlice s n { x with dead := x.dead ++ [a], scans := x.scans ++ [a], rsv := x.rsv.filter (fun e => decide (e.1 ≠ .agent a)) }

/-- A slice's scan for a dead agent ends (R133): its bit and its designation are cleared, and each line it owned goes
through the pipeline to be poisoned. -/
def deadScan (s : State) (n : Nat) (a : Agent) : State :=
  let x := slice s n
  if x.scans.contains a = false then s
  else
    let s1 := x.dir.foldl (fun s e =>
      if e.2.trs ≠ 0 then s
      else if deadOwned x e.2 ∧ e.2.hld = some a then sendScrub s n e.2.line
      else if deadEntry s e.2 a = e.2 then s
      else setSlice s n (putDir (slice s n) e.1 (deadEntry s e.2 a))) s
    let y := slice s1 n
    push (setSlice s1 n { y with scans := y.scans.filter (fun b => decide (b ≠ a)) }) (.tend n)

end Sys2Proof.Machine
end

