-- ==== Sys2Proof/Machine/Link.lean ====
section
/-! DEFINITION. The link layer of the agent ports and of the Vrelcia links (R41–R53, R61, R65, R368), what leaves
through a link, and how a request finds its home device (R13, R29, R34, R38, R113, R368). -/

namespace Sys2Proof.Machine

/-- The registers of one side of a serial link. -/
structure SideRegs where
  ltssm  : Fld
  width  : Fld
  rev    : Fld
  up     : Fld
  crc    : Fld
  replay : Fld
  recov  : Fld
  keep   : Fld
  proto  : Fld
  cntCrc : Fld
  cntReplay : Fld
  en     : Fld
  half   : Fld
  unit   : Nat

def sideRegs : Side → SideRegs
  | .ap p => ⟨F.APT_STAT_LTSSM p, F.APT_STAT_WIDTH p, F.APT_STAT_REV p, F.APT_STAT_UP p, F.APT_ERR_CRC p, F.APT_ERR_REPLAY_LIM p,
      F.APT_ERR_RECOV_FAIL p, F.APT_ERR_KEEP_TO p, F.APT_ERR_PROTO p, F.APT_CNT_CRC_COUNT p, F.APT_CNT_REPLAY_COUNT p,
      F.APT_CTL_EN p, F.APT_CTL_MAXW8 p, 0x20 + p⟩
  | .vl l => ⟨F.FED_LSTAT_LTSSM l, F.FED_LSTAT_WIDTH l, F.FED_LSTAT_REV l, F.FED_LSTAT_UP l, F.FED_LERR_CRC l, F.FED_LERR_REPLAY_LIM l,
      F.FED_LERR_RECOV_FAIL l, F.FED_LERR_KEEP_TO l, F.FED_LERR_PROTO l, F.FED_CNT_CRC_COUNT l, F.FED_CNT_REPLAY_COUNT l,
      F.FED_LCTL_EN l, F.FED_LCTL_MAXW4 l, 0x28 + l⟩

/-- The link state of a side. -/
def lnkOf (s : State) : Side → Lnk
  | .ap p => (port s p).lnk
  | .vl l => (vl s l).lnk

def setLnk (s : State) (side : Side) (k : Lnk) : State :=
  match side with
  | .ap p => setPort s p { port s p with lnk := k }
  | .vl l => setVl s l { vl s l with lnk := k }

/-- The training state of a side (R42). -/
def ltssm (s : State) (side : Side) : Nat := getF s (sideRegs side).ltssm

/-- The fields of a header slot (R45). -/
def fType (f : Flit) : Nat := bits f.hdr 0 2
def fSeq (f : Flit) : Nat := bits f.hdr 2 8
def fAck (f : Flit) : Nat := bits f.hdr 10 8
def fCrcls (f : Flit) : Nat := bits f.hdr 18 2
def fCrcnt (f : Flit) : Nat := bits f.hdr 20 4
def fOpc (f : Flit) : Nat := bits f.hdr 24 6
def fMark (f : Flit) : Nat := bits f.hdr 30 2
def fTx (f : Flit) : Nat := bits f.hdr 32 10
def fLine (f : Flit) : LineAddr := BitVec.ofNat 40 (bits f.hdr 42 40)
def fPoison (f : Flit) : Bool := bit f.hdr 82
def fArg (f : Flit) : BitVec 12 := BitVec.ofNat 12 (bits f.hdr 84 12)

/-- The data slot of a flit; that of an MSG flit is zero (R46). -/
def dataSlot (f : Flit) : Line := if fType f = 2 then f.data else 0

/-- The class of an opcode, 4 for one without a credit; none for a reserved opcode (R56). -/
def opClass (o : Nat) : Option Nat :=
  if o = 0 ∨ o = 0x10 then some 4
  else if o ≤ 0x0F then some 0
  else if 0x20 ≤ o ∧ o ≤ 0x25 then some 1
  else if 0x28 ≤ o ∧ o ≤ 0x2E then some 2
  else if 0x30 ≤ o ∧ o ≤ 0x32 then some 3
  else none

/-- Whether an opcode carries data (R56). -/
def opData (o : Nat) : Bool :=
  decide (6 ≤ o ∧ o ≤ 8) || decide (o = 0x0A ∨ o = 0x0B ∨ o = 0x0D) || decide (0x30 ≤ o ∧ o ≤ 0x32)

/-- Whether an opcode may come from an agent (R56). -/
def opFromAgent (o : Nat) : Bool :=
  decide (o ≤ 0x10) || decide (0x28 ≤ o ∧ o ≤ 0x2B) || decide (0x30 ≤ o ∧ o ≤ 0x32)

/-- One class of a set of credits. -/
def cr (t : Nat × Nat × Nat × Nat) (c : Nat) : Nat :=
  match c with
  | 0 => t.1
  | 1 => t.2.1
  | 2 => t.2.2.1
  | _ => t.2.2.2

def setCr (t : Nat × Nat × Nat × Nat) (c v : Nat) : Nat × Nat × Nat × Nat :=
  match c with
  | 0 => (v, t.2)
  | 1 => (t.1, v, t.2.2)
  | 2 => (t.1, t.2.1, v, t.2.2.2)
  | _ => (t.1, t.2.1, t.2.2.1, v)

/-- The last SEQ accepted, as ACK carries it: 0xFF before the first (R48). -/
def ackOf (k : Lnk) : Nat := (k.rxSeq + 255) % 256

/-- A credit of a class falls due to the far side (R53). -/
def giveBack (s : State) (side : Side) (c : Nat) : State :=
  let k := lnkOf s side
  setLnk s side { k with owed := setCr k.owed c (cr k.owed c + 1) }

/-- An ACK releases every flit of the replay buffer up to the one it names (R48). -/
def takeAck (k : Lnk) (ack : Nat) : Lnk :=
  if k.replay.any (fun f => decide (f.seq = ack)) then { k with replay := (k.replay.dropWhile (fun f => decide (f.seq ≠ ack))).drop 1 } else k

/-- Two messages go to the same agent about the same line (R117): 7 stands for every agent of a peer. -/
def sameWay (q m : Msg) : Bool :=
  decide (q.line = m.line) && (match q.dest, m.dest with
    | some a, some b => decide (a = b ∨ a = 7 ∨ b = 7)
    | _, _ => false)

/-- A message may leave: a credit of its class, room in the replay buffer, and none before it to its agent about its line (R48, R52, R53,
R117). -/
def mayLeave (k : Lnk) (before : List Msg) (m : Msg) : Bool :=
  (decide (m.cls = 4) || decide (0 < cr k.crd m.cls)) && decide (k.replay.length < 128) && !(before.any (fun q => sameWay q m))

/-- The first message that may leave, and the rest. -/
def pickMsg (k : Lnk) (before : List Msg) : List Msg → Option (Msg × List Msg)
  | [] => none
  | m :: r => if mayLeave k before m then some (m, before ++ r) else pickMsg k (before ++ [m]) r

/-- CHK of a flit (R47, R368): the CRC-32C of header bytes 0 to 11, of the route word on a Vrelcia link, and of the data slot. -/
def chkOf (side : Side) (head : Nat) (route : BitVec 64) (data : Line) : Nat :=
  (crc32c (leBytes 12 head ++ (match side with
    | .ap _ => []
    | .vl _ => leBytes 8 route.toNat) ++ leBytes 64 data.toNat)).toNat

/-- A flit of a header's bits 95:0, its route word and its data slot (R45, R47). -/
def mkFlit (side : Side) (head : Nat) (route : BitVec 64) (data : Line) : Flit :=
  { hdr := BitVec.ofNat 128 (head + chkOf side head route data <<< 96), route := route, data := data }

/-- Header bits 95:0 of a message's flit (R45, R46). -/
def msgHead (x : Sent) : Nat :=
  let m := x.msg
  (if opData m.opc then 2 else 1) + x.seq <<< 2 + x.ack <<< 10 + x.crcls <<< 18 + x.crcnt <<< 20 + m.opc <<< 24 + m.mark <<< 30 + m.tx <<< 32
    + m.line.toNat <<< 42 + b2n (m.poison && opData m.opc) <<< 82 + m.arg.toNat <<< 84

/-- The flit of a message (R45–R47, R368): MSGD with its data where the opcode carries data, else MSG with a data slot of zero. -/
def msgFlit (side : Side) (x : Sent) : Flit :=
  mkFlit side (msgHead x) (match side with
    | .ap _ => 0
    | .vl _ => x.msg.route) (if opData x.msg.opc then x.msg.data else 0)

/-- An IDLE flit (R45, R46). -/
def idleFlit (side : Side) (ack : Nat) : Flit := mkFlit side (ack <<< 10) 0 0

/-- An LCTL flit (R45, R46, R51, R369). -/
def lctlFlit (side : Side) (opc ack : Nat) (data : Line) : Flit := mkFlit side (3 + ack <<< 10 + opc <<< 24) 0 data

/-- What a message leaves with (R48, R53): the next number, the last number accepted, and the first credits due. -/
def sentOf (k : Lnk) (m : Msg) : Sent :=
  let c := ([0, 1, 2, 3].find? (fun c => decide (0 < cr k.owed c))).getD 0
  { seq := k.txSeq, msg := m, ack := ackOf k, crcls := c, crcnt := min 15 (cr k.owed c) }

/-- A flit enters the replay buffer as it leaves (R48, R53): the number, the credit it uses and those it gives back. -/
def numbered (k : Lnk) (x : Sent) : Lnk :=
  { k with txSeq := (k.txSeq + 1) % 256,
           replay := k.replay ++ [x],
           crd := (if x.msg.cls < 4 then setCr k.crd x.msg.cls (cr k.crd x.msg.cls - 1) else k.crd),
           owed := setCr k.owed x.crcls (cr k.owed x.crcls - x.crcnt),
           room := setCr k.room x.crcls (cr k.room x.crcls + x.crcnt) }

/-- The bin of a latency in ns (R390). -/
def histBin (s : State) (l : Nat) : Nat :=
  let base := getF s F.MSR_HCFG_BASE
  let w := rangedF s F.MSR_HCFG_BINW
  if l < base + w then 0 else min 15 ((l - base) / w)

/-- A request that ends in a data flit enters its latency, a free value, in the port's histogram (R390; log entry 13). -/
def histAdd (s : State) (h : NMap Nat) (t : Txn) (m : Msg) : NMap Nat :=
  if (t.opc = 1 ∨ t.opc = 2 ∨ t.opc = 3 ∨ t.opc = 0x0C) ∧ (m.opc = 0x30 ∨ m.opc = 0x31) then
    let b := histBin s (Config.latency s.fresh).toNat
    nset h b (bump 0xFFFFFFFF ((nget h b).getD 0) 1)
  else h

/-- The first symbol of a completing message frees the request's TXID; a RsvLd's data sets the port's record (R55, R111). -/
def transmitted (s : State) (side : Side) (m : Msg) : State :=
  match side with
  | .vl _ => s
  | .ap p =>
    if m.done = false then s
    else
      let x := port s p
      let mine := fun (t : Txn) => decide (t.tx = m.tx) && decide (t.place = 3)
      match x.txns.find? mine with
      | some t =>
        let s := freshen s
        let x1 := { x with txns := dropOne mine x.txns, histo := histAdd s x.histo t m }
        setPort s p (if t.opc = 0x0C ∧ m.opc = 0x30 then { x1 with resv := some (granule t.line) } else x1)
      | none => s

/-- What waits at a link's egress leaves while it may (R44, R48, R53, R117). -/
def egressRun (s : State) (side : Side) : Nat → State
  | 0 => s
  | fuel + 1 =>
    if ltssm s side ≠ 6 then s
    else
      let k := lnkOf s side
      match pickMsg k [] k.egress with
      | none => s
      | some (m, rest) =>
        let x := sentOf k m
        egressRun (transmitted (emit (setLnk s side (numbered { k with egress := rest } x)) (.flit side (msgFlit side x))) side m) side fuel

/-- Every flit of the replay buffer is resent unchanged and in order (R49); where one is resent for the eighth time without being
acknowledged, the link enters RECOVERY (R50), after which the count starts again (log entry 114). -/
def resendAll (s : State) (side : Side) : State :=
  let k := lnkOf s side
  let g := sideRegs side
  if k.replay = [] then s
  else
    let s1 := k.replay.foldl (fun s f => emit s (.flit side (msgFlit side f))) s
    let s2 := setF s1 g.cntReplay (bump 0xFFFFFFFF (getF s1 g.cntReplay) k.replay.length)
    if k.replay.all (fun f => decide (f.times < 7)) then setLnk s2 side { k with replay := k.replay.map (fun f => { f with times := f.times + 1 }) }
    else setF (flag (setLnk s2 side { k with replay := k.replay.map (fun f => { f with times := 0 }) }) g.replay) g.ltssm 7

/-- A request leaves for a peer's home over its link (R113, R368). -/
def remoteOpc (r : HReq) : Nat × Nat :=
  match r.op with
  | .rdShared => (0x01, 0) | .rdOwn => (0x02, 0) | .rdOnce => (0x03, r.arg.toNat) | .upgrade => (0x04, 0) | .itoM => (0x05, 0)
  | .write => if full r.mask then (0x07, 0) else
      (let o := ((List.range 64).find? (fun i => bit r.mask i)).getD 0; (0x06, o + (popcount r.mask - 1) * 64))
  | .stashWr => (0x08, r.arg.toNat) | .evict => (0x09, r.arg.toNat) | .atomHome => (0x0A, r.arg.toNat)
  | .atomMem => (0x0B, r.arg.toNat) | .rsvLd => (0x0C, 0) | .condSt => (0x0D, r.arg.toNat)
  | .maint k => (0x0F, k) | .sweep => (0x0F, 7) | .wb => (0x32, 2 * r.arg.toNat) | _ => (0, 0)

/-- The message of a request to a peer. -/
def remoteMsg (s : State) (r : HReq) (tx : Nat) (d : Nat) : Msg :=
  let o := remoteOpc r
  let a := match agentOf r.who with
    | some a => a
    | none => { dev := self s, port := 7 }
  { opc := o.1, cls := (if o.1 = 0x32 then 3 else 0), tx := tx, line := r.line, poison := r.poison, arg := BitVec.ofNat 12 o.2, mark := 0, data := r.data, route := routeWord s a.dev a.port r.rcl r.stash r.line 7 d }

/-- The next TXID from `from'` on that nothing outstanding uses; none while all 1,024 are in use (R55, R368). -/
def nextTx (used : Nat → Bool) (from' : Nat) : Option Nat :=
  ((List.range 1024).find? (fun i => !(used ((from' + i) % 1024)))).map (fun i => (from' + i) % 1024)

/-- A TXID that no request or forward outstanding on a link uses (R368). -/
def freeTx (x : Vl) : Option Nat :=
  nextTx (fun t => x.remotes.any (fun q => decide (q.tx = t)) || x.fwds.any (fun q => decide (q.tx = t))) x.txNext

/-- Send a request to a peer's home; it waits while 1,024 transactions are outstanding (R368). -/
def sendRemote (s : State) (d : Nat) (r : HReq) : State :=
  let l := linkTo s d
  let x := vl s l
  if ¬ isF s (F.FED_LSTAT_UP l) then failReq s r 2
  else match freeTx x with
    | none => setVl s l { x with waiting := x.waiting ++ [r] }
    | some t => egress (setVl s l { x with remotes := x.remotes ++ [{ tx := t, req := r }], txNext := (t + 1) % 1024 }) (vlS l) (remoteMsg s r t d)

/-- The contiguous runs of a byte mask, from byte `i` up. -/
def maskRuns (m : BitVec 64) : List (BitVec 64) :=
  let step := fun (acc : List (BitVec 64) × Bool) (i : Nat) =>
    if bit m i then
      (if acc.2 then (acc.1.dropLast ++ [setBit (acc.1.getLast?.getD 0) i], true) else (acc.1 ++ [setBit 0 i], true))
    else (acc.1, false)
  ((List.range 64).foldl step ([], false)).1

/-- A write with holes in its mask, which only the host's byte enables leave, crosses a link as one write for each run (R57, R84; log entry
22). -/
def sendRemoteParts (s : State) (d : Nat) (r : HReq) : State :=
  if r.op = .write ∧ ¬ full r.mask then (maskRuns r.mask).foldl (fun s m => sendRemote s d { r with mask := m, data := r.data &&& wideMask m }) s
  else sendRemote s d r

/-- The uses that Device memory allows (R29): RdOnce, and WrPtl of 4 or 8 bytes naturally aligned. -/
def deviceOk (r : HReq) : Bool :=
  match r.op with
  | .rdOnce => true
  | .write => (List.range 16).any (fun i => decide (r.mask = runMask (4 * i) 4)) || (List.range 8).any (fun i => decide (r.mask = runMask (8 * i) 8))
  | _ => false

/-- The lowest of causes 1 to 4 that ends a request where it is issued, 0 for none (R29, R38). -/
def issueCause (s : State) (r : HReq) : Nat :=
  match route s (r.line.toNat * 64) with
  | some (.device, d) => if present s d = false then 2 else if deviceOk r = false then 4 else 0
  | some _ => mapCause s r.line r.op
  | none => 1

/-- A requester sends a request to its home (R13, R29, R34, R38, R302): the lowest cause of R38 ends it; a register access
goes to its CSR root; a line of a peer crosses its link. -/
def issue (s : State) (r : HReq) : State :=
  if issueCause s r ≠ 0 then failReq s r (issueCause s r)
  else match route s (r.line.toNat * 64) with
  | some (.device, d) => if d = self s then push s (.device r) else sendRemote s d r
  | some (_, d) =>
    if d = self s then push s (.home (homeOf s r.line) { r with epoch := getF s F.CFG_EPOCH_EPOCH }) else sendRemoteParts s d r
  | none => failReq s r 1

/-- Whether a mode change has stopped the requests to a line (R301). -/
def stalled (s : State) (l : LineAddr) : Bool :=
  match s.mode with
  | none => false
  | some m => m.dir || m.slices.contains (homeOf s l)

/-- New requests are closed: from WARN to the seal, and from a leave on (R198, R379). -/
def reqClosed (s : State) : Bool := gated s || s.fed.leaving

end Sys2Proof.Machine
end

