-- ==== Sys2Proof/Machine/Peer.lean ====
section
/-! DEFINITION. Check values and acceptance of flits on both kinds of link, the notices to peers, dead agents at the
slices, and what crosses a Vrelcia link: requests, forwards, deliveries, answers and completions (R47–R49, R53, R113–R115,
R130–R134, R203, R206, R367–R371, R379, R380). -/

namespace Sys2Proof.Machine

/-- Whether CHK of a flit is the CRC-32C of its other bytes (R47, R368). -/
def goodCheck (side : Side) (f : Flit) : Bool := decide (chkOf side f.hdr.toNat f.route f.data = bits f.hdr 96 32)

/-- An LCTL flit leaves (R45, R369). -/
def lctl (s : State) (side : Side) (opc : Nat) (data : Line) : State :=
  emit s (.flit side (lctlFlit side opc (ackOf (lnkOf s side)) data))

/-- A flit with a bad check value (R49): discarded, counted, and one Nak sent. -/
def badCheck (s : State) (side : Side) : State :=
  let g := sideRegs side
  let k := lnkOf s side
  let s1 := setF (flag s g.crc) g.cntCrc (bump 0xFFFFFFFF (getF s g.cntCrc) 1)
  if k.nakked then s1 else lctl (setLnk s1 side { k with nakked := true }) side 1 0

/-- The link layer takes an MSG or MSGD flit with a good check value (R48, R49, R53) where its SEQ is the next expected: its ACK and its credits.
Any other is discarded. -/
def accept (s : State) (side : Side) (f : Flit) : State × Bool :=
  let k := takeAck (lnkOf s side) (fAck f)
  if fSeq f = k.rxSeq then
    (push (setLnk s side { k with rxSeq := (k.rxSeq + 1) % 256, nakked := false,
                                  crd := setCr k.crd (fCrcls f) (cr k.crd (fCrcls f) + fCrcnt f) }) (.egress side), true)
  else (s, false)

/-- What the link layer does with a flit that carries no message (R47–R49): `t` where its check value is good; after a Nak every flit is discarded
until the next expected SEQ arrives. -/
def checkedFlit (s : State) (side : Side) (f : Flit) (t : State) : State :=
  if goodCheck side f = false then badCheck s side
  else if ltssm s side = 6 ∧ (lnkOf s side).nakked then s
  else t

/-- A message of a class uses a credit the far side holds; false where it holds none (R53, R64). -/
def takeRoom (s : State) (side : Side) (c : Nat) : State × Bool :=
  let k := lnkOf s side
  if 4 ≤ c then (s, true)
  else if cr k.room c = 0 then (s, false)
  else (setLnk s side { k with room := setCr k.room c (cr k.room c - 1) }, true)

/-- A Notice to one peer and to every peer whose link is up (R371). -/
def notice (s : State) (l kind b c : Nat) : State :=
  if isF s (F.FED_LSTAT_UP l) then lctl s (vlS l) 9 (lineOf (b1 kind ++ b1 b ++ b1 c)) else s

def noticeAll (s : State) (kind b c : Nat) : State := (List.range 3).foldl (fun s l => notice s l kind b c) s

/-- The dead notice of an agent at every slice of this device (R130). -/
def agentDead (s : State) (a : Agent) : State :=
  (List.range 32).foldl (fun s n => if sliceUp s n then deadNotice s n a else s) s

/-- An agent leaves the dead mask of every slice that has scanned for it (R66, R130). -/
def agentBack (s : State) (a : Agent) : State :=
  { s with slices := s.slices.map (fun e =>
      (e.1, if e.2.scans.contains a then e.2 else { e.2 with dead := e.2.dead.filter (fun b => decide (b ≠ a)) })) }

/-- The dead answer to a forward of this device's homes (R131). -/
def deadFwd (s : State) (f : LFwd) : State := push s (.answer f.slice { src := f.dest, tx := f.tx, opc := 0x28, line := f.line, dead := true })

/-- Every forward outstanding to an agent of a peer, or waiting for a TXID, is answered as dead (R131). -/
def answerDead (s : State) (l : Nat) (a : Agent) : State :=
  let x := vl s l
  let mine := fun (f : LFwd) => decide (f.dest = a)
  (x.fwds.filter mine ++ (x.fwdWait.map (·.1)).filter mine).foldl deadFwd
    (setVl s l { x with fwds := x.fwds.filter (fun f => !(mine f)), fwdWait := x.fwdWait.filter (fun f => !(mine f.1)) })

/-- A device is recorded absent (R374, R380). -/
def recordAbsent (s : State) (d reason : Nat) : State :=
  let s1 := setF s F.FED_STAT_ABSENT (getF s F.FED_STAT_ABSENT ||| 1 <<< d)
  let s2 := setF s1 F.DIR_PRESENT_DEV (bits (clrBit (BitVec.ofNat 4 (getF s1 F.DIR_PRESENT_DEV)) d) 0 4)
  post { s2 with fed := { s2.fed with reasons := nset s2.fed.reasons d reason } } 0x0803 0x50 (b1 d ++ b1 reason)

/-- The SHR bit of a peer cleared in every stable entry of every slice (R134); a transient one loses it when it is resolved. -/
def clearPeer (s : State) (l : Nat) : State :=
  { s with slices := s.slices.map (fun e =>
      (e.1, { e.2 with dir := e.2.dir.filterMap (fun d =>
        if d.2.trs ≠ 0 then some d
        else
          let y := withoutPeer s d.2 l
          if y.dst = 0 then none else some (d.1, y)) })) }

/-- The peer at the far end of a link is lost to this device (R134, R379, R380): its agents are dead, and what they still owed a home does not
come. -/
def peerLost (s : State) (l : Nat) : State :=
  let d := farEnd s l
  let s1 := (List.range 6).foldl (fun s p => agentDead s { dev := d, port := p }) s
  let s2 := (List.range 32).foldl (fun s n => if sliceUp s n then lostWb s n d else s) (clearPeer s1 l)
  if present s d = false ∨ isF s F.FED_SSTAT_FED = false ∨ gated s ∨ (vl s l).walked then s2
  else setF (recordAbsent s2 d 5) F.FED_STAT_TAINT (getF s2 F.FED_STAT_TAINT ||| 1 <<< d)

/-- A Vrelcia link leaves service (R131, R134): its training state, dead answers for its forwards, the end of what this
device had outstanding at the peer, and the loss of the peer. -/
def linkDown (s : State) (l state : Nat) : State :=
  let side := vlS l
  let g := sideRegs side
  let x := vl s l
  let s1 := setF (setF (setF s g.ltssm state) g.width 0) g.up 0
  let s2 := setVl s1 l { x with lnk := {}, fwds := [], fwdWait := [], remotes := [], gathers := [], waiting := [], inq := [], identified := false, recallers := [] }
  let s3 := (x.fwds ++ x.fwdWait.map (·.1)).foldl deadFwd s2
  let s4 := peerLost s3 l
  (x.remotes.map (·.req) ++ x.waiting).foldl (fun s r => failReq s r 2) s4

/-- A breach by a peer is fatal to the link (R64, R368, R369). -/
def linkBreach (s : State) (l code : Nat) (hdr : BitVec 128) : State :=
  if ltssm s (vlS l) = 0 then s
  else post (linkDown (flag s (F.FED_LERR_PROTO l)) l 0) 0x0200 (0x28 + l) (b1 code ++ leBytes 12 hdr.toNat)

/-- The request a REQ opcode asks of a home (R56, R57, R84). -/
def reqOp (opc : Nat) (arg : BitVec 12) : HOp :=
  match opc with
  | 0x01 => .rdShared | 0x02 => .rdOwn | 0x03 => .rdOnce | 0x04 => .upgrade | 0x05 => .itoM
  | 0x06 => .write | 0x07 => .write | 0x08 => .stashWr | 0x09 => .evict | 0x0A => .atomHome | 0x0B => .atomMem
  | 0x0C => .rsvLd | 0x0D => .condSt
  | _ => if bits arg 0 4 = 7 then .sweep else .maint (bits arg 0 4)

/-- The byte mask of a write (R57). -/
def reqMask (opc : Nat) (arg : BitVec 12) : BitVec 64 :=
  if opc = 0x06 ∨ opc = 0x0D then runMask (argOff arg) (argLen arg) else BitVec.allOnes 64

/-- The fields of a route word (R368). -/
def rtDev (w : BitVec 64) : Nat := bits w 0 2
def rtPort (w : BitVec 64) : Nat := bits w 2 3
def rtRcl (w : BitVec 64) : Bool := bit w 5
def rtRst (w : BitVec 64) : Bool := bit w 6
def rtFep (w : BitVec 64) : Nat := bits w 8 8
def rtTPort (w : BitVec 64) : Nat := bits w 24 3

/-- The requester that a route word names: an agent, or a master of the peer that is no agent. -/
def rtWho (w : BitVec 64) : Who := if rtPort w = 7 then .host else .agent { dev := rtDev w, port := rtPort w }

/-- Whether a leave ends a request that arrives over a link (R379). The queues that R379 lets drain send writes: the leaving device serves them until the
peer's word that its queues are empty, and the peer ends those of the leaving device's agents that no queue sent (log entry 121). -/
def leaveEnds (s : State) (l : Nat) (r : HReq) : Bool :=
  let drains := decide (r.op = .write ∨ r.op = .stashWr)
  (s.fed.leaving && !(drains && !(s.fed.leftBy.contains (farEnd s l)))) || ((vl s l).leaving && decide (r.who ≠ .host) && !drains)

/-- A peer's request goes to its home here (R38, R113): its RECALL flag is noted; causes 1, 3 and 4 are this device's to
find; a leave ends it with cause 2, but for what drains from ingress buffers and
inbound queues (R379; log entry 121). -/
def linkServe (s : State) (l : Nat) (r : HReq) : State :=
  if leaveEnds s l r then failReq s r 2
  else match route s (r.line.toNat * 64) with
    | some (.device, d) =>
      if d ≠ self s then failReq s r 1
      else if deviceOk r = false then failReq s r 4
      else push s (.device r)
    | some (_, d) =>
      let c := mapCause s r.line r.op
      if d ≠ self s then failReq s r 1
      else if c ≠ 0 then failReq s r c
      else push s (.home (homeOf s r.line) { r with epoch := getF s F.CFG_EPOCH_EPOCH })
    | none => failReq s r 1

/-- A request arrives over a link (R113, R136, R301). An agent that sends again is dead no longer; its writes that drain from an ingress write
buffer say nothing of that (log entry 41). -/
def linkReq (s : State) (l : Nat) (f : Flit) : State :=
  let w := f.route
  let r : HReq := { who := rtWho w, link := some l, tx := fTx f, op := reqOp (fOpc f) (fArg f), line := fLine f, data := f.data,
                    mask := reqMask (fOpc f) (fArg f), poison := fPoison f, arg := fArg f, rcl := rtRcl w, stash := rtRst w, hdr := f.hdr }
  let s1 := match r.who with
    | .agent a =>
      let x := vl s l
      let rest := x.recallers.filter (fun p => decide (p ≠ a.port))
      let s0 := setVl s l { x with recallers := if r.rcl then rest ++ [a.port] else rest }
      if r.op = .write ∨ r.op = .stashWr then s0 else agentBack s0 a
    | _ => s
  if stalled s1 r.line then setVl s1 l { vl s1 l with inq := (vl s1 l).inq ++ [r] }
  else linkServe (giveBack s1 (vlS l) 0) l r

/-- The requests a mode change held at a link go on (R301). -/
def linkPump (s : State) (l : Nat) : State :=
  let x := vl s l
  let go := x.inq.filter (fun r => !(stalled s r.line))
  go.foldl (fun s r => linkServe (giveBack s (vlS l) 0) l r) (setVl s l { x with inq := x.inq.filter (fun r => stalled s r.line) })

/-- An answer goes back to the peer whose home sent the forward (R113, R115). -/
def answerBack (s : State) (k : Nat × BitVec 64 × Nat) (m : Msg) : State :=
  if isF s (F.FED_LSTAT_UP k.1) then
    egress s (vlS k.1) { m with tx := k.2.2, route := routeWord s (rtDev k.2.1) (rtPort k.2.1) (rtRcl k.2.1) (rtRst k.2.1) m.line (rtTPort k.2.1) (self s), done := false }
  else s

/-- A forward leaves for a port's agent under a free TXID, or waits for one (R55). -/
def portFwd (s : State) (p : Nat) (q : Fwd) (m : Msg) : State :=
  let x := port s p
  match nextTx (fun t => x.fwds.any (fun f => decide (f.tx = t))) x.fwdNext with
  | some t => egress (setPort s p { x with fwds := x.fwds ++ [{ q with tx := t }], fwdNext := (t + 1) % 1024 }) (apS p) { m with tx := t, dest := some p }
  | none => setPort s p { x with fwdWait := x.fwdWait ++ [(q, m)] }

/-- A forward of a port has been answered: one that waited for a TXID leaves (R55). -/
def retryFwd (s : State) (p : Nat) : State :=
  match (port s p).fwdWait with
  | [] => s
  | e :: rest => portFwd (setPort s p { port s p with fwdWait := rest }) p e.1 e.2

/-- A forward to a port of this device (R55, R131): to its agent; a dead answer to a home of this device where the agent cannot take it. A
peer's home gives the dead answer itself, from the notice of the agent's death; a port that has no agent yet declines its forwards. -/
def toPort (s : State) (p : Nat) (m : Msg) (slice' : Nat) (peer : Option (Nat × BitVec 64 × Nat)) (gather : Bool) : State :=
  if isF s (F.APT_STAT_UP p) ∧ ¬ isF s (F.APT_STAT_DEAD p) then
    portFwd s p { tx := 0, line := m.line, opc := m.opc, slice := slice', peer := peer, gather := gather } m
  else match peer with
    | none => push s (.answer slice' { src := { dev := self s, port := p }, tx := 0, opc := 0x28, line := m.line, dead := true })
    | some k => if isF s (F.APT_STAT_DEAD p) then s else answerBack s k { opc := 0x28, cls := 2, line := m.line }

/-- A forward leaves over a link under a free TXID, or waits for one (R368). -/
def linkOut (s : State) (l : Nat) (q : LFwd) (m : Msg) : State :=
  let x := vl s l
  match freeTx x with
  | some t => egress (setVl s l { x with fwds := x.fwds ++ [{ q with tx := t }], txNext := (t + 1) % 1024 }) (vlS l) { m with tx := t, dest := some q.dest.port }
  | none => setVl s l { x with fwdWait := x.fwdWait ++ [(q, m)] }

/-- A home's forward to a peer's agent, or to all of them (port 7): over the link, or a dead answer where the link is down or the peer absent
(R113, R115, R131). -/
def toPeer (s : State) (l n : Nat) (t : Agent) (m : Msg) : State :=
  let q : LFwd := { tx := 0, line := m.line, dest := t, slice := n }
  if isF s (F.FED_LSTAT_UP l) ∧ present s (farEnd s l) then linkOut s l q m else deadFwd s q

/-- A home's forward to an agent (R113, R131): to a port here, or over the link to a peer; a dead answer where the slice counts the agent
dead. -/
def deliverFwd (s : State) (t : Agent) (m : Msg) (n : Nat) : State :=
  if t.dev = self s then toPort s t.port m n none false
  else if (slice s n).dead.contains t then deadFwd s { tx := 0, line := m.line, dest := t, slice := n }
  else toPeer s (linkTo s t.dev) n t m

/-- A home's Inval or Recall to all of a peer's agents (R115). -/
def deliverPeer (s : State) (l : Nat) (m : Msg) : State := toPeer s l (homeOf s m.line) { dev := farEnd s l, port := 7 } m

/-- A delivery under R115 has every answer: one RspI to the peer's home. -/
def gatherDone (s : State) (l : Nat) (tx : Nat) (line : LineAddr) : State :=
  let x := vl s l
  let mine := fun (g : Gather) => decide (g.tx = tx) && decide (g.line = line)
  match x.gathers.find? mine with
  | some g => if g.left = [] then
      answerBack (setVl s l { x with gathers := dropOne mine x.gathers }) (l, g.route, tx) { opc := 0x28, cls := 2, line := line } else s
  | none => s

/-- One port has answered a delivery under R115. -/
def gatherOne (s : State) (l tx p : Nat) (line : LineAddr) : State :=
  let x := vl s l
  let mine := fun (g : Gather) => decide (g.tx = tx) && decide (g.line = line)
  gatherDone (setVl s l { x with gathers := updOne mine (fun g => { g with left := g.left.filter (fun q => decide (q ≠ p)) }) x.gathers }) l tx line

/-- Whether a port's agent is the H of a line, as R115's delivery finds it: H's own forward comes first over the link, and stands at the port until
it is answered; an H in WB_A that has answered it has a writeback of the line outstanding (R126). -/
def holderOf (x : Port) (l : LineAddr) : Bool :=
  x.fwds.any (fun q => decide (q.line = l)) || x.fwdWait.any (fun q => decide (q.1.line = l))
    || x.txns.any (fun t => decide (t.opc = 0x32) && decide (t.line = l))

/-- A forward from a peer's home arrives (R113, R115): to the port it names, or to each port that may hold the line. -/
def linkFwd (s : State) (l : Nat) (f : Flit) : State :=
  let s0 := giveBack s (vlS l) 1
  let w := f.route
  let m : Msg := { opc := fOpc f, cls := 1, line := fLine f, arg := fArg f }
  let key := (l, w, fTx f)
  if rtTPort w = 7 then
    let ps := (List.range 6).filter (fun p => isF s0 (F.APT_STAT_UP p) && !(isF s0 (F.APT_STAT_DEAD p))
      && !(decide (rtDev w = self s0) && decide (rtPort w = p))
      && !(holderOf (port s0 p) (fLine f)))
    let x := vl s0 l
    let s1 := setVl s0 l { x with gathers := x.gathers ++ [{ tx := fTx f, line := fLine f, route := w, left := ps }] }
    let s2 := ps.foldl (fun s p => toPort s p { m with opc := if m.opc = 0x23 ∧ ¬ isF s (F.APT_STAT_AG_RECALL p) then 0x22 else m.opc } 0 (some key) true) s1
    gatherDone s2 l (fTx f) (fLine f)
  else
    let p := rtTPort w
    if m.opc = 0x25 ∧ ¬ (isF s0 (F.APT_STAT_AG_STASH p) ∧ effF s0 (F.APT_CTL_STASH_EN p) = 1) then
      answerBack s0 key { opc := 0x28, cls := 2, line := m.line }
    else toPort s0 p m 0 (some key) false

/-- A TXID of a link is free again: a forward that waited for one leaves, else a request (R368). -/
def retryWaiting (s : State) (l : Nat) : State :=
  let x := vl s l
  match x.fwdWait, x.waiting with
  | e :: rest, _ => linkOut (setVl s l { x with fwdWait := rest }) l e.1 e.2
  | [], r :: rest => sendRemote (setVl s l { x with waiting := rest }) (farEnd s l) r
  | [], [] => s

/-- An answer from a peer's agent, or from a peer as a whole, reaches its home (R113, R115). -/
def linkAnswer (s : State) (l : Nat) (f : Flit) : State :=
  let x := vl s l
  let mine := fun (q : LFwd) => decide (q.tx = fTx f)
  match x.fwds.find? mine with
  | none => push s (.breach (vlS l) 3 f.hdr)
  | some q =>
    if q.line ≠ fLine f then push s (.breach (vlS l) 3 f.hdr)
    else push (retryWaiting (setVl s l { x with fwds := dropOne mine x.fwds }) l)
      (.answer q.slice { src := q.dest, link := some l, hdr := f.hdr, tx := q.tx, opc := fOpc f, line := fLine f, arg := fArg f, data := f.data, poison := fPoison f })

/-- A completion goes to its requester before anything that arrives later (R117). -/
def pushFirst (s : State) (f : Flow) : State := { s with fabric := f :: s.fabric }

/-- The completion of a request that this device sent to a peer (R38, R113, R206). A write that crossed in parts is taken
when its last part is. The peer records in its own DIR_ERR_INFO what its home finds; whether this device does too, R39 leaves open: the model
records here what ends a buffered write, which R206 asks for, and a line of a MOP operation, and nothing else (log entry 102). -/
def linkDone (s : State) (l : Nat) (f : Flit) (q : Remote) : State :=
  let x := vl s l
  let r := q.req
  let s1 := retryWaiting (setVl s l { x with remotes := dropOne (fun y => decide (y.tx = q.tx)) x.remotes }) l
  let cause := if fOpc f = 0x2D then bits (fArg f) 0 4 else 0
  let mopLine : Bool := match r.who with
    | .mop _ => true
    | _ => false
  let s2 := if cause ≠ 0 ∧ (r.entry.isSome ∨ mopLine = true) then failAccess s1 (r.line.toNat * 64) cause (srcOf r) else s1
  match r.entry with
  | some _ =>
    let more := ((vl s1 l).remotes.map (·.req) ++ (vl s1 l).waiting).any (fun y => decide (y.who = r.who) && decide (y.entry = r.entry))
    if cause ≠ 0 ∨ more = false then push s2 (.taken r cause) else s2
  | none => pushFirst s2 (.reply r { opc := fOpc f, cls := if fOpc f < 0x30 then 2 else 3, tx := r.tx, line := r.line, arg := fArg f, data := dataSlot f, poison := fPoison f })

/-- Data, Cmp or CmpErr from a peer's home: for a pulled stash offer of a port, or for a request of this device (R63, R113). -/
def linkComplete (s : State) (l : Nat) (f : Flit) : State :=
  let p := rtTPort f.route
  let mine := fun (q : Fwd) => q.pulled && decide (q.line = fLine f) && (match q.peer with
    | some k => decide (k.1 = l) && decide (k.2.2 = fTx f)
    | none => false)
  match (port s p).fwds.find? mine with
  | some q =>
    egress (retryFwd (setPort s p { port s p with fwds := dropOne mine (port s p).fwds }) p) (apS p)
      { opc := fOpc f, cls := 3, tx := q.tx, line := q.line, poison := fPoison f, arg := fArg f, data := dataSlot f, dest := some p }
  | none =>
    match (vl s l).remotes.find? (fun q => decide (q.tx = fTx f)) with
    | some q => linkDone s l f q
    | none => push s (.breach (vlS l) 3 f.hdr)

/-- A voluntary writeback of a peer's agent (R101, R113). -/
def linkWb (s : State) (l : Nat) (f : Flit) : State :=
  let a : HAns := { src := { dev := rtDev f.route, port := rtPort f.route }, link := some l, hdr := f.hdr, tx := fTx f, opc := 0x32, line := fLine f, arg := fArg f, data := f.data, poison := fPoison f }
  push s (.wbData (homeOf s (fLine f)) a)

/-- A message accepted on a link (R53, R64, R368). -/
def linkMsg (s : State) (l : Nat) (f : Flit) : State :=
  let side := vlS l
  let o := fOpc f
  match opClass o with
  | none => push s (.breach side 1 f.hdr)
  | some c =>
    if o = 0x0E ∨ o = 0x2E then push s (.breach side 1 f.hdr)
    else if opData o ≠ decide (fType f = 2) then push s (.breach side 5 f.hdr)
    else
      let t := takeRoom s side c
      if t.2 = false then push s (.breach side 2 f.hdr)
      else if rtFep f.route ≠ getF s F.FED_STAT_EPOCH then
        let s1 := setF t.1 (F.FED_CNT_STALE_COUNT l) (bump 0xFFFFFFFF (getF t.1 (F.FED_CNT_STALE_COUNT l)) 1)
        if c < 4 then giveBack s1 side c else s1
      else if c = 4 then t.1
      else if c = 0 then linkReq t.1 l f
      else if c = 1 then linkFwd t.1 l f
      else
        let s1 := giveBack t.1 side c
        if o = 0x2C ∨ o = 0x2D then linkComplete s1 l f
        else if o = 0x32 ∧ bit (fArg f) 0 = false then linkWb s1 l f
        else if c = 2 ∨ o = 0x32 ∨ (vl s1 l).fwds.any (fun q => decide (q.tx = fTx f) && decide (q.line = fLine f)) then linkAnswer s1 l f
        else linkComplete s1 l f

/-- A completion crosses the link to its requester's device (R113). -/
def linkReply (s : State) (l : Nat) (r : HReq) (m : Msg) : State :=
  if isF s (F.FED_LSTAT_UP l) then
    let a : Agent := match agentOf r.who with
      | some a => a
      | none => { dev := farEnd s l, port := 7 }
    egress s (vlS l) { m with tx := r.tx, route := routeWord s a.dev a.port r.rcl r.stash m.line a.port a.dev, dest := (agentOf r.who).map (fun a => a.port) }
  else s

/-- The data of a pulled stash offer goes to its agent (R63, R106). -/
def sendPulled (s : State) (t : Agent) (m : Msg) : State :=
  if t.dev = self s then
    let x := port s t.port
    if isF s (F.APT_STAT_UP t.port) then
      egress (retryFwd (setPort s t.port { x with fwds := dropOne (fun q => q.pulled && decide (q.tx = m.tx)) x.fwds }) t.port) (apS t.port)
        { m with dest := some t.port }
    else s
  else
    let l := linkTo s t.dev
    if isF s (F.FED_LSTAT_UP l) then egress s (vlS l) { m with route := routeWord s t.dev t.port false false m.line t.port t.dev, dest := some t.port } else s

/-- A peer's notice of a dead agent (R130, R133). -/
def peerDead (s : State) (l : Nat) (a : Agent) : State := answerDead (agentDead s a) l a

end Sys2Proof.Machine
end

