-- ==== Sys2Proof/Machine/Port.lean ====
section
/-! DEFINITION. The agent ports: what the protocol layer accepts and refuses, the REQ queue with its marks, barriers and
holds, the ingress write buffer, completions, and dead agents (R53–R66, R82–R86, R111, R130–R136, R138–R147, R198, R206). -/

namespace Sys2Proof.Machine

/-- Whether a run of an access lies within the line (R57). -/
def runOk (a : BitVec 12) : Bool := decide (argOff a + argLen a ≤ 64)

/-- Whether a line lies in Device memory (R28). -/
def isDevice (s : State) (l : LineAddr) : Bool :=
  match route s (l.toNat * 64) with
  | some (.device, _) => true
  | _ => false

/-- Whether ARG of a request is within R57. -/
def argOk (s : State) (opc : Nat) (l : LineAddr) (a : BitVec 12) : Bool :=
  match opc with
  | 0x03 => runOk a && (match route s (l.toNat * 64) with
    | some (.device, _) => decide ((argLen a = 4 ∨ argLen a = 8) ∧ argOff a % argLen a = 0)
    | some _ => decide (argOff a = 0 ∧ argLen a = 64)
    | none => true)
  | 0x06 => runOk a
  | 0x0D => runOk a
  | 0x08 => decide (bits a 0 3 ≠ 6) && decide (bits a 5 7 = 0)
  | 0x09 => decide (1 ≤ bits a 0 3 ∧ bits a 0 3 ≤ 3) && decide (bits a 3 9 = 0)
  | 0x0A => atomOk a
  | 0x0B => atomOk a
  | 0x0E => decide (1 ≤ bits a 0 2) && decide (bits a 2 10 = 0)
  | 0x0F => decide (bits a 0 4 ≤ 6) && decide (bits a 4 8 = 0)
  | _ => decide (a = 0)

/-- Whether a request may carry a mark (R56, R59). -/
def markOk (opc mark : Nat) : Bool :=
  match mark with
  | 0 => true
  | 1 => decide (opc = 0x01 ∨ opc = 0x02 ∨ opc = 0x03 ∨ opc = 0x0C ∨ opc = 0x0A ∨ opc = 0x0B)
  | 2 => decide (opc = 0x06 ∨ opc = 0x07 ∨ opc = 0x08 ∨ opc = 0x0D ∨ opc = 0x0A ∨ opc = 0x0B)
  | _ => decide (opc = 0x0A ∨ opc = 0x0B)

/-- Whether a request is formed as R57 to R60 state. -/
def requestOk (s : State) (f : Flit) : Bool :=
  let o := fOpc f
  argOk s o (fLine f) (fArg f) && markOk o (fMark f) && (!(fPoison f) || opData o)
    && (if o = 0x06 ∨ o = 0x0D then decide (f.data &&& ~~~(wideMask (reqMask o (fArg f))) = 0) else true)

/-- The first breach of a port is recorded, and each posts its event (R64, R67). VCODE is held until PROTO and MALFORMED are both 0; what it
reads from then on R67 does not say, and the model keeps the old code until the next breach (log entry 103). -/
def noteBreach (s : State) (p code : Nat) (hdr : BitVec 128) : State :=
  let s1 := if isF s (F.APT_ERR_PROTO p) ∨ isF s (F.APT_ERR_MALFORMED p) then s
    else
      let a := setF s (F.APT_ERR_VCODE p) code
      (List.range 4).foldl (fun s k => setF s (F.APT_ERR_HDR_HDR p k) (bits hdr (32 * k) 32)) a
  post s1 0x0200 (0x20 + p) (b1 code ++ leBytes 12 hdr.toNat)

/-- A port declares its agent dead (R65, R130): flags, the end of its queue, the dead answers and the dead notices.
`reason` is 1 to 6 in R65's order. -/
def declareDead (s : State) (p reason : Nat) : State :=
  if isF s (F.APT_STAT_DEAD p) then s
  else
    let me : Agent := { dev := self s, port := p }
    let x := port s p
    let s1 := setF (setF (setF s (F.APT_STAT_LTSSM p) 0) (F.APT_STAT_WIDTH p) 0) (F.APT_STAT_UP p) 0
    let s2 := flag (flag s1 (F.APT_STAT_DEAD p)) (F.APT_STAT_RECLAIM p)
    let queued := x.txns.filter (fun t => decide (t.place = 0 ∨ t.place = 2))
    let s3 := setPort s2 p { x with txns := x.txns.filter (fun t => decide (t.place = 1)), fwds := [], fwdWait := [],
                                    lnk := { x.lnk with egress := [] }, peersDone := [], poisoned := 0 }
    let s4 := queued.foldl (fun s t => post s 0x0201 (0x20 + p) (addrBytes t.line ++ b1 t.opc)) s3
    let s5 := (x.fwds ++ x.fwdWait.map (·.1)).foldl (fun s f => match f.peer with
      | none => push s (.answer f.slice { src := me, tx := f.tx, opc := 0x28, line := f.line, dead := true })
      | some k => if f.gather then gatherOne s k.1 k.2.2 p f.line else s) s4
    let s6 := noticeAll (agentDead s5 me) 2 me.dev p
    push (post s6 0x0202 (0x20 + p) (b1 reason)) (.port p)

/-- A fatal breach by an agent (R64, R65). -/
def portBreach (s : State) (p code : Nat) (hdr : BitVec 128) : State :=
  if isF s (F.APT_STAT_DEAD p) then s
  else declareDead (flag (noteBreach s p code hdr) (F.APT_ERR_PROTO p)) p 5

/-- L-class and S-class accesses (R138). -/
def lClass (o : Nat) : Bool := decide (o = 1 ∨ o = 2 ∨ o = 3 ∨ o = 4 ∨ o = 0x0A ∨ o = 0x0B ∨ o = 0x0C ∨ o = 0x0D ∨ o = 0x0F)
def sClass (o : Nat) : Bool :=
  decide (o = 2 ∨ o = 4 ∨ o = 5 ∨ o = 6 ∨ o = 7 ∨ o = 8 ∨ o = 0x0A ∨ o = 0x0B ∨ o = 0x0D ∨ o = 0x0F)

/-- A write that the ingress write buffer takes (R82). -/
def buffered (s : State) (t : Txn) : Bool := decide (t.opc = 6 ∨ t.opc = 7 ∨ t.opc = 8) && !(isDevice s t.line)

/-- An access that completes after it is performed (R138). Evict and WbData are not accesses. -/
def afterPerf (s : State) (t : Txn) : Bool := !(buffered s t) && decide (t.opc ≠ 0x0E ∧ t.opc ≠ 0x09 ∧ t.opc ≠ 0x32)

/-- A request whose completing message has not reached the egress (R143). -/
def incomplete (t : Txn) : Bool := decide (t.place ≠ 3)

/-- A fence that holds a later request (R145). -/
def fenceHolds (s : State) (u t : Txn) : Bool :=
  decide (u.opc = 0x0E) && incomplete u && (match bits u.arg 0 2 with
    | 1 => lClass t.opc
    | 2 => (sClass t.opc && !(buffered s t))
      || ((buffered s t || (decide (t.opc = 0x0E) && decide (bits t.arg 0 2 ≠ 1))) && decide (u.place = 0))
    | _ => true)

/-- Whether a request stays in the REQ queue, given those before it in port order (R53, R83, R86, R143–R145). -/
def portHolds (s : State) (x : Port) (before : List Txn) (t : Txn) : Bool :=
  let own := x.iwb.any (fun e => decide (e.line = t.line))
  if t.opc = 0x09 then own
  else
    before.any (fun u => decide (u.mark = 1 ∨ u.mark = 3) && incomplete u)
    || before.any (fun u => fenceHolds s u t)
    || (decide (2 ≤ t.mark) && before.any (fun u => afterPerf s u && incomplete u))
    || (decide (2 ≤ t.mark) && !(buffered s t)
        && (before.any (fun u => buffered s u && decide (u.place = 0)) || x.iwb.any (fun e => decide (e.ord < t.ord))))
    || ((buffered s t || (decide (t.opc = 0x0E) && decide (bits t.arg 0 2 ≠ 1))) && before.any (fun u => buffered s u && decide (u.place = 0)))
    || (!(buffered s t) && decide (t.opc ≠ 0x03 ∧ t.opc ≠ 0x0E) && own)

/-- Whether a fence has what its KIND waits for (R145). -/
def fenceDone (s : State) (x : Port) (before : List Txn) (t : Txn) : Bool :=
  let gone := x.iwb.all (fun e => decide (t.group ≤ e.group))
  match bits t.arg 0 2 with
  | 1 => before.all (fun u => !(lClass u.opc) || !(incomplete u))
  | 2 => before.all (fun u => !(sClass u.opc && afterPerf s u) || !(incomplete u)) && gone
  | _ => before.all (fun u => !(incomplete u) || decide (u.opc = 0x09 ∨ u.opc = 0x32)) && gone

/-- The request of an agent's transaction. -/
def txnReq (s : State) (p : Nat) (t : Txn) : HReq :=
  { who := .agent { dev := self s, port := p }, tx := t.tx, op := reqOp t.opc t.arg, line := t.line, data := t.data,
    mask := reqMask t.opc t.arg, poison := t.poison, arg := t.arg, acq := decide (t.mark = 1 ∨ t.mark = 3),
    rcl := isF s (F.APT_STAT_AG_RECALL p), stash := isF s (F.APT_STAT_AG_STASH p), hdr := t.hdr }

/-- Change one transaction of a port. -/
def setTxn (s : State) (p tx : Nat) (f : Txn → Txn) : State :=
  let x := port s p
  setPort s p { x with txns := updOne (fun t => decide (t.tx = tx)) f x.txns }

/-- The completing message of a transaction goes to the port's egress (R138, R143). -/
def completeTxn (s : State) (p : Nat) (t : Txn) (m : Msg) : State :=
  push (egress (setTxn s p t.tx (fun t => { t with place := 3 })) (apS p)
    { m with tx := t.tx, done := true, dest := if t.opc = 0x0E then none else some p }) (.port p)

/-- A write's POISON merged into an entry (R83). -/
def mergePoison (old : Bool) (mask : BitVec 64) (new : Bool) : Bool :=
  if full mask ∧ new = false then false else old || new

/-- Whether the home of a line is this device. -/
def homedHere (s : State) (l : LineAddr) : Bool :=
  match route s (l.toNat * 64) with
  | some (_, d) => decide (d = self s)
  | none => false

/-- Whether an entry takes a write of a group by merging (R83). An entry for a peer's home also keeps its mask one run of bytes, which is what one
message over the link can carry (R57), so that merged writes are performed at one instant (R141; log entry 22). -/
def mergeable (s : State) (t : Txn) (group : Nat) (e : Entry) : Bool :=
  decide (e.line = t.line) && decide (e.group = group) && !e.sent && e.stash.isNone && decide (t.opc ≠ 8)
    && (homedHere s t.line || decide ((maskRuns (e.mask ||| reqMask t.opc t.arg)).length ≤ 1))

/-- The buffer takes a write, merged or as a new entry; none where it needs a new entry and has no room (R53, R82, R83). -/
def bufferTake (s : State) (x : Port) (t : Txn) : Option Port :=
  let g := if t.mark = 2 then x.group + 1 else x.group
  let mask := reqMask t.opc t.arg
  match x.iwb.find? (mergeable s t g) with
  | some e =>
    let put := fun (y : Entry) => { y with data := merge y.data t.data mask, mask := y.mask ||| mask, poison := mergePoison y.poison mask t.poison }
    some { x with group := g, iwb := updOne (fun y => decide (y.id = e.id)) put x.iwb }
  | none =>
    if 96 ≤ x.iwb.length then none
    else
      let e : Entry := { id := x.iwbNext, ord := t.ord, line := t.line, data := t.data &&& wideMask mask, mask := mask, p := isPmem t.line,
                         poison := t.poison, release := decide (t.mark = 2), group := g, stash := if t.opc = 8 then some t.arg else none }
      some { x with group := g, iwbNext := x.iwbNext + 1, iwb := x.iwb ++ [e] }

/-- A request leaves the REQ queue, its credit given back (R53). -/
def leaveReq (s : State) (p : Nat) (t : Txn) (f : Txn → Txn) : State := giveBack (setTxn s p t.tx f) (apS p) 0

/-- What a request at its turn does; none where it cannot move (R38, R53, R82–R86, R111, R145, R147). -/
def portTurn (s : State) (p : Nat) (t : Txn) : Option State :=
  let x := port s p
  if t.opc = 0x0E then
    if bits t.arg 0 2 = 1 then some (setTxn s p t.tx (fun t => { t with place := 2 }))
    else some (setTxn (setPort s p { x with group := x.group + 1 }) p t.tx (fun t => { t with place := 2, group := x.group + 1 }))
  else if buffered s t then
    let c := mapCause s t.line (reqOp t.opc t.arg)
    if c ≠ 0 then some (failReq (leaveReq s p t (fun t => { t with place := 1 })) (txnReq s p t) c)
    else match bufferTake s x t with
      | none => none
      | some y => some (completeTxn (leaveReq (setPort s p y) p t id) p t { opc := 0x2C, cls := 2, line := t.line })
  else if t.opc = 0x0D ∧ x.resv ≠ some (granule t.line) ∧ issueCause s (txnReq s p t) = 0 then
    some (completeTxn (leaveReq (setPort s p { x with resv := none }) p t id) p t { opc := 0x2C, cls := 2, line := t.line })
  else if stalled s t.line then none
  else
    let olay := if t.opc = 3 then (x.iwb.filter (fun e => decide (e.line = t.line) && decide (e.ord < t.ord))).map (fun e => (e.data, e.mask, e.poison)) else []
    some (issue (leaveReq s p t (fun t => { t with place := 1, olay := olay })) (txnReq s p t))

/-- The first request of the queue that can move, in port order. -/
def portMove (s : State) (p : Nat) (x : Port) (before : List Txn) : List Txn → Option State
  | [] => none
  | t :: r =>
    let here := if t.place = 0 ∧ portHolds s x before t = false then portTurn s p t
      else if t.place = 2 ∧ fenceDone s x before t then some (completeTxn (giveBack s (apS p) 0) p t { opc := 0x2C, cls := 2 })
      else none
    match here with
    | some s' => some s'
    | none => portMove s p x (before ++ [t]) r

/-- The queue moves as far as it can; not at all while new requests are closed (R198, R379). -/
def portRun (s : State) (p : Nat) : Nat → State
  | 0 => s
  | fuel + 1 =>
    if reqClosed s then s
    else match portMove s p (port s p) [] (port s p).txns with
      | some s' => portRun s' p fuel
      | none => s

/-- Whether an entry may be sent, and is (R84, R198). -/
def entryDue (s : State) (x : Port) (e : Entry) : Bool :=
  !e.sent && x.iwb.all (fun q => decide (e.group ≤ q.group))
    && x.iwb.all (fun q => decide (q.line ≠ e.line) || decide (e.id ≤ q.id))
    && (full e.mask || decide (e.group ≠ x.group) || e.aged || decide (48 < x.iwb.length) || gated s)
    && !(stalled s e.line)

/-- The request that an entry travels as (R84). -/
def entryReq (s : State) (p : Nat) (e : Entry) : HReq :=
  { who := .agent { dev := self s, port := p }, op := if e.stash.isSome then .stashWr else .write, line := e.line, data := e.data,
    mask := e.mask, poison := e.poison, arg := e.stash.getD 0, entry := some e.id, rcl := isF s (F.APT_STAT_AG_RECALL p),
    stash := isF s (F.APT_STAT_AG_STASH p) }

/-- The buffer sends what is due, oldest first; at WARN the entries for peer homes first (R84, R198). An entry for a home of
this device is then on its way to it; one for a peer crosses the link. -/
def sendEntries (s : State) (p : Nat) : State :=
  let x := port s p
  let due := x.iwb.filter (entryDue s x)
  let order := if gated s then due.filter (fun e => !(homedHere s e.line)) ++ due.filter (fun e => homedHere s e.line) else due
  order.foldl (fun s e =>
    let y := port s p
    let s1 := setPort s p { y with iwb := updOne (fun q => decide (q.id = e.id)) (fun q => { q with sent := true }) y.iwb }
    if homedHere s e.line then s1 else issue s1 (entryReq s p e)) s

/-- A port goes on (R53, R84, R143–R145). -/
def portTend (s : State) (p : Nat) : State :=
  let s1 := if isF s (F.APT_STAT_DEAD p) then s else portRun s p (2 * (port s p).txns.length + 1)
  sendEntries s1 p

/-- The home takes an entry that was sent to it (R85, row IWB_ENTRY_TAKEN). -/
def entryAtHome (s : State) (p id : Nat) : State :=
  let x := port s p
  match x.iwb.find? (fun e => decide (e.id = id)) with
  | none => s
  | some e =>
    if e.sent = false ∨ e.atHome ∨ homedHere s e.line = false then s
    else issue (setPort s p { x with iwb := updOne (fun q => decide (q.id = id)) (fun q => { q with atHome := true }) x.iwb }) (entryReq s p e)

/-- An entry leaves the buffer (R85): its home took it, or it ended in error, which is an exception (R206); the address of a
persistent entry for a peer whose link has left service joins the remote list (R203). -/
def entryGone (s : State) (p : Nat) (r : HReq) (cause : Nat) : State :=
  let x := port s p
  let mine := fun (e : Entry) => decide (some e.id = r.entry)
  match x.iwb.find? mine with
  | none => s
  | some e =>
    let s1 := setPort s p { x with iwb := dropOne mine x.iwb }
    let s2 := if cause = 0 then s1 else post s1 0x0205 (0x20 + p) (addrBytes e.line ++ b1 cause ++ b1 p)
    let d := (e.line.toNat * 64 - 0x3F0000000000) >>> 28
    let s3 := if cause = 2 ∧ e.p = true ∧ isF s (F.FED_LSTAT_UP (linkTo s d)) = false then
        areaWrite s2 1 (fun a => { a with remote := a.remote ++ [(d, e.line)] })
      else s2
    push s3 (.port p)

/-- The overlay of an RdOnce (R86): the data with the port's own earlier bytes, and its poison. -/
def overlay (ol : List (Line × BitVec 64 × Bool)) (data : Line) (poison : Bool) : Line × Bool :=
  let d := ol.foldl (fun d e => merge d e.1 e.2.1) data
  let covered := ol.foldl (fun m e => m ||| e.2.1) (0 : BitVec 64)
  (d, ol.any (fun e => e.2.2) || (poison && !(full covered)))

/-- A completion reaches the port of its agent (R86, R111, R132, R138): to the egress, or discarded where the agent is
dead. -/
def portReply (s : State) (p : Nat) (r : HReq) (m : Msg) : State :=
  let x := port s p
  let mine := fun (t : Txn) => decide (t.tx = r.tx) && decide (t.place = 1)
  match x.txns.find? mine with
  | none => s
  | some t =>
    if isF s (F.APT_STAT_DEAD p) then push (setPort s p { x with txns := dropOne mine x.txns }) (.port p)
    else
      let s1 := if t.opc = 0x0D then setPort s p { x with resv := none } else s
      let v := overlay t.olay m.data m.poison
      completeTxn s1 p t (if m.opc = 0x30 ∧ t.olay ≠ [] then { m with data := v.1, poison := v.2 } else m)

/-- A request of the agent joins the queue, or ends as malformed (R55, R64). -/
def portReq (s : State) (p : Nat) (f : Flit) : State :=
  let x := port s p
  if x.txns.any (fun t => decide (t.tx = fTx f)) ∨ getF s (F.APT_CAPS_MAXTX p) ≤ fTx f then push s (.breach (apS p) 3 f.hdr)
  else
    let t : Txn := { ord := x.arrivals, tx := fTx f, opc := fOpc f, line := fLine f, mark := fMark f, arg := fArg f, data := f.data, poison := fPoison f,
                     hdr := f.hdr }
    let s1 := setPort s p { x with txns := x.txns ++ [t], arrivals := x.arrivals + 1 }
    if requestOk s f then push s1 (.port p)
    else
      completeTxn (giveBack (flag (noteBreach s1 p 7 f.hdr) (F.APT_ERR_MALFORMED p)) (apS p) 0) p t
        { opc := 0x2D, cls := 2, line := if t.opc = 0x0E then 0 else t.line, arg := 7 }

/-- An answer of the agent to a forward (R55, R62, R64, R115). -/
def portAnswer (s : State) (p : Nat) (f : Flit) : State :=
  let x := port s p
  let mine := fun (q : Fwd) => decide (q.tx = fTx f) && !q.pulled
  match x.fwds.find? mine with
  | none => push s (.breach (apS p) 3 f.hdr)
  | some q =>
    if q.line ≠ fLine f then push s (.breach (apS p) 3 f.hdr)
    else
      let pull := q.opc = 0x25 ∧ fOpc f = 0x28 ∧ bit (fArg f) 0 = true
      let s1 := if pull then setPort s p { x with fwds := updOne mine (fun q => { q with pulled := true }) x.fwds }
        else retryFwd (setPort s p { x with fwds := dropOne mine x.fwds }) p
      match q.peer with
      | none => push s1 (.answer q.slice { src := { dev := self s, port := p }, hdr := f.hdr, tx := q.tx, opc := fOpc f, line := fLine f, arg := fArg f, data := dataSlot f, poison := fPoison f })
      | some k =>
        if q.gather then
          if fOpc f = 0x28 then gatherOne s1 k.1 k.2.2 p q.line
          else push (setPort s p x) (.breach (apS p) 4 f.hdr)
        else answerBack s1 k { opc := fOpc f, cls := if fOpc f < 0x30 then 2 else 3, line := fLine f, poison := fPoison f, arg := fArg f, data := dataSlot f }

/-- A voluntary writeback of the agent (R55, R101): to its home, here or at a peer. -/
def portWb (s : State) (p : Nat) (f : Flit) : State :=
  let x := port s p
  if x.txns.any (fun t => decide (t.tx = fTx f)) ∨ getF s (F.APT_CAPS_MAXTX p) ≤ fTx f then push s (.breach (apS p) 3 f.hdr)
  else
    let t : Txn := { ord := x.arrivals, tx := fTx f, opc := 0x32, line := fLine f, mark := 0, arg := fArg f, place := 1 }
    let s1 := setPort s p { x with txns := x.txns ++ [t], arrivals := x.arrivals + 1 }
    let me : Agent := { dev := self s, port := p }
    match route s ((fLine f).toNat * 64) with
    | some (.device, _) => push s1 (.breach (apS p) 4 f.hdr)
    | some (_, d) =>
      if d = self s then
        push s1 (.wbData (homeOf s (fLine f)) { src := me, hdr := f.hdr, tx := fTx f, opc := 0x32, line := fLine f, arg := fArg f, data := f.data, poison := fPoison f })
      else sendRemote s1 d { who := .agent me, tx := fTx f, op := .wb, line := fLine f, data := f.data, poison := fPoison f, arg := BitVec.ofNat 12 (bits (fArg f) 1 3) }
    | none => push s1 (.breach (apS p) 4 f.hdr)

/-- A message accepted at a port (R53, R56, R64). -/
def portMsg (s : State) (p : Nat) (f : Flit) : State :=
  let side := apS p
  let o := fOpc f
  match opClass o with
  | none => push s (.breach side 1 f.hdr)
  | some c =>
    if opFromAgent o = false then push s (.breach side 6 f.hdr)
    else if opData o ≠ decide (fType f = 2) then push s (.breach side 5 f.hdr)
    else
      let t := takeRoom s side c
      if t.2 = false then push s (.breach side 2 f.hdr)
      else if c = 4 then t.1
      else if c = 0 then portReq t.1 p f
      else if o = 0x32 ∧ bit (fArg f) 0 = false then portWb (giveBack t.1 side c) p f
      else portAnswer (giveBack t.1 side c) p f

/-- The protocol layer of a side takes a message. -/
def takeMsg (s : State) (side : Side) (f : Flit) : State :=
  match side with
  | .ap p => portMsg s p f
  | .vl l => linkMsg s l f

/-- An MSG or MSGD flit arrives on a side (R47–R49): in ACTIVE only. In CLOCK-HOLD it waits in the receive queue (R266). -/
def recvMsg (s : State) (side : Side) (f : Flit) : State :=
  if ltssm s side ≠ 6 then s
  else if goodCheck side f = false then badCheck s side
  else
    let a := accept s side f
    if a.2 = false then a.1
    else if getF s F.CLK_STAT_CST = 4 then push a.1 (.rx side f)
    else takeMsg a.1 side f

/-- A breach, at a port or on a link (R64). -/
def takeBreach (s : State) (side : Side) (code : Nat) (hdr : BitVec 128) : State :=
  match side with
  | .ap p => portBreach s p code hdr
  | .vl l => linkBreach s l code hdr

/-- Whether an entry names an agent of this device (R133). -/
def named (s : State) (a : Agent) (d : Dir) : Bool := decide (d.hld = some a) || hasBit d (shrBit s a)

/-- What R135 asks before RECLAIM may return to 0: the requests served, the buffer empty, every dead answer taken, every slice's scan complete
with no entry left that names the agent, and the poisoned entries written. -/
def reclaimed (s : State) (p : Nat) : Bool :=
  let x := port s p
  let me : Agent := { dev := self s, port := p }
  x.txns.all (fun t => decide (t.place ≠ 1)) && x.iwb.isEmpty
    && s.fabric.all (fun f => match f with
      | .answer _ a => !a.dead || decide (a.src ≠ me)
      | _ => true)
    && s.slices.all (fun e => !(e.2.scans.contains me) && e.2.evb.all (fun b => !b.dead) && e.2.dir.all (fun d => !(named s me d.2)))
    && (List.range 3).all (fun l => !(present s (farEnd s l)) || x.peersDone.contains l)

/-- The end of a port reset (R66): link state, TXIDs and counters cleared, the agent out of the dead masks, and training at
DETECT where the port is enabled. -/
def endReset (s : State) (p : Nat) : State :=
  let x := port s p
  let s1 := setPort s p { x with lnk := {}, txns := [], fwds := [], fwdWait := [], resetting := false, resv := none, peersDone := [] }
  let s2 := (List.range 4).foldl (fun s k => setF s (F.APT_ERR_HDR_HDR p k) 0) s1
  let s3 := setF (setF s2 (F.APT_CNT_CRC_COUNT p) 0) (F.APT_CNT_REPLAY_COUNT p) 0
  let s4 := setF (setF s3 (F.APT_STAT_RECLAIM p) 0) (F.APT_STAT_DEAD p) 0
  let s5 := agentBack s4 { dev := self s, port := p }
  setF s5 (F.APT_STAT_LTSSM p) (effF s5 (F.APT_CTL_EN p))

/-- Every reservation of an agent is cleared (R112). -/
def dropReserved (s : State) (a : Agent) : State :=
  { s with slices := s.slices.map (fun e => (e.1, { e.2 with rsv := e.2.rsv.filter (fun q => decide (q.1 ≠ .agent a)) })) }

/-- A write of APT_CTL.RST = 1 (R65, R66, R112). -/
def portReset (s : State) (p : Nat) : State :=
  let x := port s p
  if x.resetting then s
  else
    let s1 := dropReserved (declareDead (setPort s p { x with resetting := true }) p 6) { dev := self s, port := p }
    if isF s1 (F.APT_STAT_RECLAIM p) then s1 else endReset s1 p

/-- Reclamation ends (R135): the summary record, and the end of a port reset that waits for it. -/
def endReclaim (s : State) (p : Nat) : State :=
  if isF s (F.APT_STAT_RECLAIM p) ∧ reclaimed s p = true then
    let s1 := post (setF s (F.APT_STAT_RECLAIM p) 0) 0x0203 (0x20 + p) (leBytes 4 (port s p).poisoned)
    if (port s p).resetting then endReset s1 p else s1
  else s

end Sys2Proof.Machine
end

