-- ==== Sys2Proof/Machine/Train.lean ====
section
/-! DEFINITION. Training, the capability exchange, RECOVERY, heartbeats and timeouts of both kinds of link (R42, R43,
R48–R51, R61, R62, R64, R65, R368). -/

namespace Sys2Proof.Machine

/-- A link leaves ACTIVE other than into RECOVERY, or cannot return to it (R50, R65, R134). -/
def sideLost (s : State) (side : Side) (state reason : Nat) : State :=
  match side with
  | .ap p => declareDead s p reason
  | .vl l => linkDown s l state

/-- The training state moves. -/
def setLtssm (s : State) (side : Side) (v : Nat) : State := setF s (sideRegs side).ltssm v

/-- The training state moves where the link is down: the width reads 0, and a later training counts its returns to DETECT anew (R43, R67). -/
def sideDown (s : State) (side : Side) (v : Nat) : State :=
  setLtssm (setF (setLnk s side { lnkOf s side with detects := 0 }) (sideRegs side).width 0) side v

/-- Training gives up (R42, R43): FAILED and RECOV_FAIL. -/
def trainFail (s : State) (side : Side) : State := sideDown (flag s (sideRegs side).recov) side 8

/-- The width that lanes which passed allow (R43, R368); none where neither half passed. -/
def widthOf (s : State) (side : Side) (lanes : BitVec 16) : Option Nat :=
  let h := match side with
    | .ap _ => 8
    | .vl _ => 4
  let low := bits lanes 0 h = 2 ^ h - 1
  let high := bits lanes h h = 2 ^ h - 1
  if low ∧ high ∧ effF s (sideRegs side).half = 0 then some 3 else if low then some 1 else if high then some 2 else none

/-- The lanes that passed are reported (R43). -/
def noteLanes (s : State) (side : Side) (lanes : BitVec 16) : State :=
  match side with
  | .ap p => setF s (F.APT_LANE_GOOD p) lanes.toNat
  | .vl _ => s

/-- The device's Cap (R51). -/
def sendCap (s : State) (p : Nat) : State :=
  lctl s (apS p) 2 (lineOf ([1, 1, 0, 4] ++ b1 (effF s (F.APT_CRD_REQ p)) ++ [0] ++ b1 (effF s (F.APT_CRD_RSP p)) ++ b1 (effF s (F.APT_CRD_DAT p))
    ++ b1 (self s) ++ b1 p))

/-- Bit 0 READY of an Ident's FLAGS: every condition of R364 but the epoch holds (R370). -/
def readyHere (s : State) : Bool :=
  s.start.profile && isF s F.FED_SSTAT_MEM && (isF s F.FED_SSTAT_PRIME || decide (effF s F.PMP_DRN_CTL_PRIME_WAIT = 0)) && chisoRuns s

/-- Whether this device stands in an epoch with peers (R370); it does until the next one stands. -/
def member (s : State) : Bool := isF s F.FED_SSTAT_FED && decide (getF s F.FED_STAT_STATE ≠ 0)

/-- The devices identified on this device's links (R370). -/
def linkedMask (s : State) : Nat :=
  sumOf ((List.range 3).map (fun l => if (vl s l).identified then 1 <<< farEnd s l else 0))

/-- FLAGS of an Ident (R370). -/
def identFlags (s : State) : Nat :=
  b2n (readyHere s) + 2 * b2n (member s) + 4 * b2n (decide (getF s F.FED_STAT_TAINT ≠ 0))

/-- The data slot of an Ident (R370). -/
def identData (s : State) : Line :=
  lineOf ([1] ++ b1 (self s) ++ b1 (effF s F.FED_CFG_EXPECT) ++ b1 (linkedMask s) ++ [64, 64, 64, 64] ++ leBytes 8 Config.serial.toNat
    ++ (List.range 8).flatMap (fun k => leBytes 4 (getF s (F.FED_DIGEST_DIGEST k)))
    ++ b1 (identFlags s) ++ (if member s then b1 (getF s F.FED_STAT_EPOCH) ++ b1 (getF s F.FED_STAT_COORD) else [0, 0xFF]))

def sendIdent (s : State) (l : Nat) : State := lctl s (vlS l) 4 (identData s)

/-- CAP is entered: the exchange starts anew (R48, R51, R369). -/
def enterCap (s : State) (side : Side) : State :=
  let s1 := setLtssm (setLnk s side { lnkOf s side with capAck := false, capSeen := false, detects := 0 }) side 5
  match side with
  | .ap p => sendCap s1 p
  | .vl l => sendIdent s1 l

/-- A training state completes (R42, R43, R368): after three returns to DETECT the port goes to FAILED. RECOVERY returns to ACTIVE at a width no wider than before, unless software
asked for it; a Vrelcia link that is enabled starts over from DISABLED. -/
def ltssmStep (s : State) (side : Side) (lanes : BitVec 16) (rev : Bool) : State :=
  let g := sideRegs side
  let k := lnkOf s side
  match ltssm s side with
  | 0 => match side with
    | .vl _ => if effF s g.en = 1 then setLtssm s side 1 else s
    | .ap _ => s
  | 1 => setLtssm s side 2
  | 2 => setLtssm s side 3
  | 3 => setLtssm s side 4
  | 4 =>
    let s1 := noteLanes s side lanes
    match widthOf s side lanes with
    | some w => enterCap (setF (setF s1 g.width w) g.rev (b2n rev)) side
    | none =>
      if 3 ≤ k.detects then trainFail s1 side
      else setLtssm (setLnk s1 side { k with detects := k.detects + 1 }) side 1
  | 7 =>
    let old := getF s g.width
    match widthOf s side lanes with
    | some w =>
      let w' := if w = 3 ∧ old ≠ 3 ∧ k.retrain = false then old else w
      let s1 := setF (setF (noteLanes s side lanes) g.width w') g.rev (b2n rev)
      push (resendAll (setLtssm (setLnk s1 side { k with retrain := false }) side 6) side) (.egress side)
    | none => s
  | _ => s

/-- ACTIVE begins (R48, R51, R53): numbers from 0, the credits of both Caps, UP. -/
def enterActive (s : State) (side : Side) (crd room : Nat × Nat × Nat × Nat) : State :=
  let g := sideRegs side
  let k := lnkOf s side
  push (setLtssm (flag (setLnk s side { k with rxSeq := 0, txSeq := 0, replay := [], nakked := false, crd := crd, room := room,
                                               owed := (0, 0, 0, 0) }) g.up) side 6) (.egress side)

/-- Both CapAcks have passed (R51). -/
def tryActive (s : State) (p : Nat) : State :=
  let k := (port s p).lnk
  if k.capSeen ∧ k.capAck then
    enterActive s (apS p) (0, getF s (F.APT_CRD_AGENT_FWD p), getF s (F.APT_CRD_AGENT_RSP p), getF s (F.APT_CRD_AGENT_DAT p))
      (effF s (F.APT_CRD_REQ p), 0, effF s (F.APT_CRD_RSP p), effF s (F.APT_CRD_DAT p))
  else s

/-- The values of the agent's Cap are recorded (R51). MAXTX outside 1 to 1,024 has no response of its own: the port takes the field's low 11 bits
(log entry 104). -/
def recordCap (s : State) (p : Nat) (f : Flit) : State :=
  let b := fun i => (lineByte f.data i).toNat
  let s1 := setF (setF s (F.APT_CAPS_MAXTX p) (b 2 + 256 * b 3)) (F.APT_CAPS_VER p) (b 0)
  let s2 := setF (setF (setF s1 (F.APT_CRD_AGENT_FWD p) (b 5)) (F.APT_CRD_AGENT_RSP p) (b 6)) (F.APT_CRD_AGENT_DAT p) (b 7)
  let s3 := setF (setF s2 (F.APT_ID_LO_ID p) (bits f.data 128 32)) (F.APT_ID_HI_ID p) (bits f.data 160 32)
  setF (setF s3 (F.APT_STAT_AG_RECALL p) (b 1 % 2)) (F.APT_STAT_AG_STASH p) (b 1 / 2 % 2)

/-- Whether a Cap is bad (R51): its VER, or a credit below 8. -/
def badCap (f : Flit) : Bool :=
  let b := fun i => (lineByte f.data i).toNat
  decide (b 0 ≠ 1 ∨ b 5 < 8 ∨ b 6 < 8 ∨ b 7 < 8)

/-- A bad Cap takes the port to FAILED (R51, R64); in ACTIVE that declares the agent dead, since the link leaves ACTIVE (R65; log entry 115). -/
def capFail (s : State) (p : Nat) (f : Flit) : State :=
  let active := ltssm s (apS p) = 6
  let s1 := flag (noteBreach s p 8 f.hdr) (F.APT_ERR_PROTO p)
  sideDown (if active then declareDead s1 p 1 else s1) (apS p) 8

/-- The agent's Cap, in CAP or ACTIVE (R51, R64): recorded and answered, or the end of the link where it is bad. -/
def recvCap (s : State) (p : Nat) (f : Flit) : State :=
  let side := apS p
  if ltssm s side ≠ 5 ∧ ltssm s side ≠ 6 then s
  else
    let s1 := recordCap s p f
    let s2 := lctl s1 side 3 0
    checkedFlit s side f
      (if badCap f then capFail s1 p f
       else if ltssm s side = 6 then s2
       else tryActive (setLnk s2 side { lnkOf s2 side with capSeen := true }) p)

/-- The agent's CapAck (R51). -/
def recvCapAck (s : State) (p : Nat) (f : Flit) : State :=
  let side := apS p
  if ltssm s side ≠ 5 then s
  else checkedFlit s side f (tryActive (setLnk s side { lnkOf s side with capAck := true }) p)

/-- A Nak (R49): what it acknowledges is released and the rest resent. -/
def recvNak (s : State) (side : Side) (f : Flit) : State :=
  if ltssm s side ≠ 6 then s
  else checkedFlit s side f (push (resendAll (setLnk s side (takeAck (lnkOf s side) (fAck f))) side) (.egress side))

/-- An IDLE flit (R46, R48). -/
def recvIdle (s : State) (side : Side) (f : Flit) : State :=
  if ltssm s side ≠ 6 then s
  else checkedFlit s side f (push (setLnk s side (takeAck (lnkOf s side) (fAck f))) (.egress side))

/-- A reserved LCTL subtype, in CAP or ACTIVE, is breach 1 (R51, R64, R369). -/
def reservedLctl (s : State) (side : Side) (f : Flit) : State :=
  if ltssm s side ≠ 5 ∧ ltssm s side ≠ 6 then s else checkedFlit s side f (push s (.breach side 1 f.hdr))

/-- An acknowledgement falls due (R48, R53): with the credits due in a Null, else, and while 128 flits are unacknowledged, in an IDLE flit. -/
def ackNow (s : State) (side : Side) : State :=
  if ltssm s side ≠ 6 then s
  else
    let k := lnkOf s side
    if k.owed = (0, 0, 0, 0) ∨ 128 ≤ k.replay.length then emit s (.flit side (idleFlit side (ackOf k))) else egress s side { opc := 0, cls := 4 }

/-- RECOVERY is entered (R50). -/
def recover (s : State) (side : Side) (asked : Bool) : State :=
  if ltssm s side = 6 then setLtssm (setLnk s side { lnkOf s side with retrain := asked }) side 7 else s

/-- RECOVERY has not returned to ACTIVE (R50, R65). -/
def recoverFail (s : State) (side : Side) : State :=
  if ltssm s side = 7 then sideLost (flag s (sideRegs side).recov) side 8 2 else s

/-- The training bound passes (R42). -/
def trainTimeout (s : State) (side : Side) : State :=
  if 1 ≤ ltssm s side ∧ ltssm s side ≤ 5 then trainFail s side else s

/-- The heartbeat of the far side is missed (R61, R65); the timer is frozen in RECOVERY. -/
def heartbeatMissed (s : State) (side : Side) : State :=
  if ltssm s side = 6 then sideLost (flag s (sideRegs side).keep) side 0 3 else s

/-- A forward stays unanswered (R62, R202). -/
def fwdTimeout (s : State) (p tx : Nat) : State :=
  if isF s (F.APT_STAT_DEAD p) = false ∧ (port s p).fwds.any (fun f => decide (f.tx = tx) && !f.pulled) = true then
    declareDead (flag s (F.APT_ERR_FWD_TO p)) p 4
  else s

/-- EN of a side took a new effective value (R42, R65, R368). -/
def sideEnable (s : State) (side : Side) : State :=
  let on := effF s (sideRegs side).en = 1
  let dead := match side with
    | .ap p => isF s (F.APT_STAT_DEAD p)
    | .vl _ => false
  let st := ltssm s side
  if on then (if (st = 0 ∨ st = 8) ∧ dead = false then sideDown s side 1 else s)
  else if st = 6 ∨ st = 7 then sideLost s side 0 1
  else sideDown s side 0

end Sys2Proof.Machine
end

