-- ==== Sys2Proof/Machine/Mop.lean ====
section
/-! DEFINITION. The MOP engine: its four slots, scopes, refusals, results and aborts (R157–R161, R166, R167). -/

namespace Sys2Proof.Machine

/-- The region of R28 in which an address lies, mapped or not: its attribute, and the device of a PMEM aperture or a CSR window. -/
def regionOf28 (s : State) (pa : Nat) : Option (Attr × Nat) :=
  match route s pa with
  | some (a, d) => some (a, if a = .pmem ∨ a = .device then d else 0)
  | none => if pa < 0x200000000000 then some (.dram, 0) else none

/-- Cause 3 of R161 for a run of lines: past pa[45], outside every region, across regions, or in Device memory. -/
def runRefused (s : State) (first : LineAddr) (count : Nat) : Bool :=
  let a := first.toNat * 64
  let z := (first.toNat + count - 1) * 64
  let boot := effF s F.DIR_BOOT_BASE * 0x1000000
  if 2 ^ 40 < first.toNat + count then true
  else match regionOf28 s a with
    | none => true
    | some (.device, _) => true
    | some r => decide (regionOf28 s z ≠ some r) || (decide (r.1 ≠ .boot) && decide (a < boot) && decide (boot ≤ z))

/-- The cause for which a START is refused, 0 for none (R157, R161). -/
def mopRefusal (s : State) (op scope : Nat) (addr : LineAddr) (count sl : Nat) : Nat :=
  if 7 < op ∨ 4 < scope then 1
  else if 2 ≤ scope ∧ ¬ (op = 0 ∨ op = 1 ∨ op = 2 ∨ op = 3 ∨ op = 5) then 2
  else if scope = 0 then (if runRefused s addr 1 then 3 else 0)
  else if scope = 1 then (if count = 0 then 3 else if runRefused s addr count then 3 else 0)
  else if (scope = 2 ∨ scope = 3) ∧ sliceUp s sl = false then 4
  else 0

/-- The walks of a SLICE or CACHE command in one slice (R158): its ways and, for operations 1 to 3, its directory. -/
def walkOf (n op : Nat) : List MopWalk :=
  { slice := n, stop := 2048 * 16 } :: (if 1 ≤ op ∧ op ≤ 3 then [{ slice := n, dir := true, stop := 4096 * 16 }] else [])

/-- What a walk meets next, as the slice stands now (R157, R158): a valid way, or an entry in use. -/
def walkFind (s : State) (w : MopWalk) : Option (Nat × LineAddr) :=
  let here := fun (k : Nat) => decide (w.next ≤ k ∧ k < w.stop)
  if w.dir then ((slice s w.slice).dir.find? (fun e => here e.1 && decide (e.2.dst ≠ 0))).map (fun e => (e.1, e.2.line))
  else ((slice s w.slice).ways.find? (fun e => here e.1)).map (fun e => (e.1, e.2.line))

/-- The next line of walks that run side by side (R158), and the walks past it; a walk that meets nothing more has ended. -/
def walkNext (s : State) : List MopWalk → Option (LineAddr × List MopWalk)
  | [] => none
  | w :: r => match walkFind s w with
    | some (k, l) => some (l, r ++ [{ w with next := k + 1 }])
    | none => walkNext s r

/-- The result registers of a slot take their values at one instant (R160, R167). -/
def mopShow (s : State) (k : Nat) (m : Mop) : State :=
  let s1 := setF (setF s F.MOP_STAT_BUSY (bits (putBits (BitVec.ofNat 4 (getF s F.MOP_STAT_BUSY)) k 1 (b2n (decide (m.phase = 1)))) 0 4))
    F.MOP_STAT_VALID (bits (putBits (BitVec.ofNat 4 (getF s F.MOP_STAT_VALID)) k 1 (b2n (decide (m.phase = 2)))) 0 4)
  let on := b2n (decide (m.phase = 2))
  let s2 := wr s1 (R.MOP_S_RES k) (BitVec.ofNat 32 (on + 2 * b2n (decide (m.phase = 1)) + on * (m.status <<< 4 + m.cause <<< 8 + m.seq <<< 16)))
  let s3 := wr (wr s2 (R.MOP_S_RES_DONE_LO k) (BitVec.ofNat 32 (on * m.done))) (R.MOP_S_RES_DONE_HI k) (BitVec.ofNat 32 (on * (m.done >>> 32)))
  let s4 := wr (wr s3 (R.MOP_S_RES_FAIL k) (BitVec.ofNat 32 (on * (m.failed + m.unc <<< 16)))) (R.MOP_S_RES_CORR k) (BitVec.ofNat 32 (on * m.corr))
  let fa := match m.faddr with
    | some l => on * (l.toNat * 64)
    | none => 0
  let s5 := wr (wr s4 (R.MOP_S_RES_FADDR_LO k) (BitVec.ofNat 32 fa)) (R.MOP_S_RES_FADDR_HI k) (BitVec.ofNat 32 (fa >>> 32))
  let s6 := wr (wr s5 (R.MOP_S_PROG_LO k) (BitVec.ofNat 32 m.done)) (R.MOP_S_PROG_HI k) (BitVec.ofNat 32 (m.done >>> 32 % 256))
  setMop s6 k m

/-- A slot goes to DONE (R160, R161): its result, record 0x0600 where EVT asks, and source 4. -/
def mopDone (s : State) (k : Nat) (m : Mop) : State :=
  let s1 := mopShow s k { m with phase := 2, walk := [], flight := [], lag := [] }
  if isF s1 F.MOP_CTL_EVT then post s1 0x0600 0x44 (b1 k ++ leBytes 2 m.seq ++ b1 m.status) else irq s1 4

/-- Whether a slot has nothing left to issue. -/
def mopSpent (m : Mop) : Bool := m.abort || (if m.scope ≤ 1 then decide (m.count ≤ m.next) else m.walk.isEmpty)

/-- A slot with nothing left to issue, in service or to count is DONE (R158, R161). -/
def mopCheck (s : State) (k : Nat) : State :=
  let m := mopOf s k
  if m.phase = 1 ∧ mopSpent m = true ∧ m.flight = [] ∧ m.lag = [] then
    mopDone s k { m with status := if m.abort then 3 else if m.failed ≠ 0 then 1 else 0 }
  else s

/-- The next line of a command, and the slot past it. -/
def mopNext (s : State) (m : Mop) : Option (LineAddr × Mop) :=
  if mopSpent m then none
  else if m.scope ≤ 1 then some (m.addr + BitVec.ofNat 40 m.next, { m with next := m.next + 1 })
  else (walkNext s m.walk).map (fun e => (e.1, { m with walk := e.2 }))

/-- A slot issues lines while it may (R157, R159, R166): 16 in service; a sweep one a gap; background work not in a quiet
window; nothing to a line a mode change has stopped. -/
def mopIssue (s : State) (k : Nat) : Nat → State
  | 0 => s
  | fuel + 1 =>
    let m := mopOf s k
    let gap := getF s F.MOP_CTL_SWEEP_GAP
    if m.phase ≠ 1 ∨ 16 ≤ m.flight.length + m.lag.length ∨ (m.op = 7 ∧ gap ≠ 0 ∧ m.gapOk = false)
        ∨ (quiet s ∧ m.prio = false ∧ m.scope ≠ 0) then s
    else match mopNext s m with
      | none => setMop s k { m with walk := [] }
      | some (l, m1) =>
        if stalled s l then s
        else
          let s1 := setMop s k { m1 with flight := m1.flight ++ [l], gapOk := decide (gap = 0) }
          mopIssue (issue s1 { who := .mop k, op := if m.op = 7 then .sweep else .maint m.op, line := l }) k fuel

/-- A slot goes on. -/
def mopTend (s : State) (k : Nat) : State := mopCheck (mopIssue s k 16) k

/-- A START reaches a slot (R157, R160, R161): the command held in the slot's registers. -/
def mopStart (s : State) (k : Nat) : State :=
  let m := mopOf s k
  if m.phase ≠ 0 then flag s F.MOP_STAT_COLL
  else
    let seq := getF s F.MOP_SEQ_NEXT
    let s1 := setF (setF s F.MOP_SEQ_NEXT (nextSeq seq)) (F.MOP_S_CMD_SEQ k) seq
    let op := getF s (F.MOP_S_CMD_OP k)
    let scope := getF s (F.MOP_S_CMD_SCOPE k)
    let addr : LineAddr := BitVec.ofNat 40 (getF s (F.MOP_S_ADDR_LO_ADDR k) + getF s (F.MOP_S_ADDR_HI_ADDR k) <<< 26)
    let count := getF s (F.MOP_S_COUNT_LO_COUNT k) + getF s (F.MOP_S_COUNT_HI_COUNT k) <<< 32
    let sl := getF s (F.MOP_S_SEL_SLICE k)
    let m0 : Mop := { phase := 1, op := op, scope := scope, prio := isF s (F.MOP_S_CMD_PRIO k), addr := addr, seq := seq,
                      count := (if scope = 0 then 1 else count), slice := sl, set := getF s (F.MOP_S_SEL_SET k), way := getF s (F.MOP_S_SEL_WAY k) }
    let c := mopRefusal s op scope addr count sl
    if c ≠ 0 then mopDone s1 k { m0 with status := 2, cause := c }
    else
      let ups := (List.range 32).filter (sliceUp s)
      let walk := match scope with
        | 2 => [{ slice := sl, next := m0.set * 16 + m0.way, stop := m0.set * 16 + m0.way + 1 : MopWalk }]
        | 3 => walkOf sl op
        | 4 => ups.flatMap (fun n => walkOf n op)
        | _ => []
      let doms := if scope = 2 ∨ scope = 3 then [slicePd sl] else if scope = 4 then (ups.map slicePd).eraseDups else []
      push (mopShow s1 k { m0 with walk := walk, doms := doms }) (.mop k)

/-- ABORT of a BUSY slot (R161). -/
def mopAbort (s : State) (k : Nat) : State :=
  let m := mopOf s k
  if m.phase = 1 then mopCheck (setMop s k { m with abort := true }) k else s

/-- REL of a DONE slot (R160). -/
def mopRel (s : State) (k : Nat) : State :=
  let m := mopOf s k
  if m.phase = 2 then mopShow s k { done := m.done } else s

/-- The home's completion of a line of a command: performed, and to be counted (R155, R161). The number kept is 0 performed,
1 corrected, 2 uncorrectable, 16 and more a failed line. -/
def mopReply (s : State) (k : Nat) (r : HReq) (m : Msg) : State :=
  let x := mopOf s k
  let code := if m.opc = 0x2D then 16 + m.arg.toNat else m.arg.toNat
  setMop s k { x with flight := dropOne (fun l => decide (l = r.line)) x.flight, lag := x.lag ++ [(r.line, code)] }

/-- A line of a command is counted (R161, R166, R167, row MOP_LINE_PERFORMED). -/
def mopCount (s : State) (k : Nat) : State :=
  let m := mopOf s k
  match m.lag with
  | [] => s
  | (l, c) :: r =>
    let m1 := { m with lag := r }
    let m2 := if 16 ≤ c then { m1 with failed := bump 0xFFFF m1.failed 1, faddr := (match m1.faddr with
        | some a => some a
        | none => some l) }
      else { m1 with done := m1.done + 1, unc := (if c = 2 then bump 0xFFFF m1.unc 1 else m1.unc),
                     corr := (if c = 1 then bump 0xFFFFFFFF m1.corr 1 else m1.corr) }
    let s1 := setMop s k m2
    push (wr (wr s1 (R.MOP_S_PROG_LO k) (BitVec.ofNat 32 m2.done)) (R.MOP_S_PROG_HI k) (BitVec.ofNat 32 (m2.done >>> 32 % 256))) (.mop k)

/-- SWEEP_GAP passes (R166). -/
def mopGap (s : State) (k : Nat) : State := push (setMop s k { mopOf s k with gapOk := true }) (.mop k)

end Sys2Proof.Machine
end

