-- ==== Sys2Proof/Machine/Wear.lean ====
section
/-! DEFINITION. The Cistern's own work: gap moves, region moves, the wear record, the governor's admissions and credits,
and checkpoints (R182–R188, R190, R210). -/

namespace Sys2Proof.Machine

/-- A gap move falls due (R182, R183, R187, row GAP_MOVE); none from WARN on. -/
def gapMove (s : State) (p : Nat) : State :=
  let g := regionOf s p
  if g.owed = 0 ∨ gated s ∨ cisUp s = false then s
  else meter { s with cis := { s.cis with regions := nset s.cis.regions p { g with owed := g.owed - 1 } } } { prio := 6, kind := .gap p }

/-- The physical regions that hold a logical region, and those of the reserve (R168). -/
def assigned (s : State) : List Nat := (List.range 240).map (physical s)
def reserve (s : State) : List Nat := (List.range 256).filter (fun p => !((assigned s).contains p))

/-- A physical region in a move. -/
def inMove (s : State) (p : Nat) : Bool := s.cis.moves.any (fun e => decide (e.2.src = p ∨ e.2.dst = p))

/-- The region of a list with the most, or the least, wear; the lowest numbered of several. -/
def mostWorn (s : State) (l : List Nat) : Option Nat := l.find? (fun p => l.all (fun q => decide ((regionOf s q).wear ≤ (regionOf s p).wear)))
def leastWorn (s : State) (l : List Nat) : Option Nat := l.find? (fun p => l.all (fun q => decide ((regionOf s p).wear ≤ (regionOf s q).wear)))

/-- Whether a logical region may move to a physical one: each copy of the settings store stays on its die (R183). -/
def mayHost (s : State) (src dst : Nat) : Bool :=
  let l := logicalOf s src
  if 228 ≤ l ∧ l ≤ 231 then decide (src % 2 = dst % 2) else true

/-- A region move starts on the die of its target, one on each die (R183). -/
def startMove (s : State) (src dst : Nat) : State :=
  if inMove s src ∨ inMove s dst ∨ (nget s.cis.moves (dst % 2)).isSome ∨ mayHost s src dst = false then s
  else
    let s1 := { s with cis := { s.cis with moves := nset s.cis.moves (dst % 2) { src := src, dst := dst } } }
    flag s1 (if dst % 2 = 0 then F.CST_STAT_MOVE_A else F.CST_STAT_MOVE_B)

/-- MSR_WMAX and MSR_WMIN take the most and the least worn assigned regions, at each comparison (R183, R391). -/
def msrWear (s : State) : State :=
  let show' := fun (s : State) (lo : Nat) (hi : Fld) (preg : Fld) (p : Nat) =>
    let w := (regionOf s p).wear
    setF (setF (wr s lo (BitVec.ofNat 32 w)) hi (w >>> 32)) preg p
  let a := match mostWorn s (assigned s) with
    | some p => show' s R.MSR_WMAX_LO F.MSR_WMAX_HI_WEAR F.MSR_WMAX_HI_PREG p
    | none => s
  match leastWorn s (assigned s) with
  | some p => show' a R.MSR_WMIN_LO F.MSR_WMIN_HI_WEAR F.MSR_WMIN_HI_PREG p
  | none => a

/-- The wear counters are compared after every 2^20 line writes (R183, R391): the wear reported, then Retire and Park. -/
def wearCompare (s : State) : State :=
  if s.cis.total.toNat / 0x100000 ≤ s.cis.compared ∨ gated s ∨ cisUp s = false then s
  else
    let s0 := msrWear { s with cis := { s.cis with compared := s.cis.total.toNat / 0x100000 } }
    let d := effF s0 F.CST_WL_SWAP_DELTA * 0x100000
    let s1 := match mostWorn s0 ((assigned s0).filter (fun p => !(inMove s0 p))) with
      | none => s0
      | some w => match leastWorn s0 ((reserve s0).filter (fun p => !(inMove s0 p) && mayHost s0 w p)) with
        | some r => if (regionOf s0 r).wear + d ≤ (regionOf s0 w).wear then startMove s0 w r else s0
        | none => s0
    match mostWorn s1 ((reserve s1).filter (fun p => !(inMove s1 p))) with
    | none => s1
    | some r => match leastWorn s1 ((assigned s1).filter (fun p => !(inMove s1 p) && mayHost s1 p r)) with
      | some w => if (regionOf s1 w).wear + d ≤ (regionOf s1 r).wear then startMove s1 w r else s1
      | none => s1

/-- The copy of a region move goes on to its end (R183, R187, row REGION_COPY_DONE): the lines from the copy pointer on, as the governor admits them;
then the record of the new map is written. Nothing is copied inside quiet windows or from WARN on. -/
def regionCopied (s : State) (die : Nat) : State :=
  match nget s.cis.moves die with
  | none => s
  | some m =>
    if m.copied ∨ quiet s ∨ gated s ∨ cisUp s = false ∨ s.cis.queue.any (fun g => decide (g.kind = .region die)) then s
    else meter s { prio := 6, kind := .region die, left := 16384 - m.next }

/-- The record of the new region map is confirmed (R183): the logical region switches. -/
def regionSwitch (s : State) (die : Nat) : State :=
  match nget s.cis.moves die with
  | none => s
  | some m =>
    if m.recorded = false then s
    else
      let map := nset s.cis.map (logicalOf s m.src) m.dst
      let s1 := wearPut { s with cis := { s.cis with map := map, moves := nerase s.cis.moves die } } map
      setF s1 (if die = 0 then F.CST_STAT_MOVE_A else F.CST_STAT_MOVE_B) 0

/-- Up to 524,288 PMEM lines resident with P = 1 (R210). -/
def snapshotNow (s : State) : List Nat :=
  (s.slices.flatMap (fun e => (e.2.ways.filter (fun w => w.2.p && !w.2.pend)).map (fun w => pmemLine w.2.line))).take 524288

/-- The lines that a snapshot fills (R171, R210): its header, and 21 entries to a line. -/
def snapLines (l : List Nat) : Nat := 1 + (l.length + 20) / 21

/-- A complete snapshot stands (R171, R210). -/
def snapPut (s : State) : State :=
  { s with mdata := { s.mdata with snaps := s.mdata.snaps.put Snap.no { no := (lastSnap s).no + 1, lines := snapshotNow s } } }

/-- CKPT_RES and its stamps (R188, R191). -/
def ckptShow (s : State) (c : Ckpt) : State :=
  let on := b2n (decide (c.phase = 2))
  let s1 := wr s R.PMP_CKPT_RES (BitVec.ofNat 32 (on + 2 * b2n (decide (c.phase = 1)) + on * (c.status <<< 2 + c.seq <<< 16)))
  setPair { s1 with ckpt := c } R.PMP_CKPT_T_LO R.PMP_CKPT_T_HI (if c.phase = 2 then c.tb else 0)

/-- The lines that a checkpoint's walks find (R188): each dirty persistent line to be cleaned, each owned PMEM line to be recalled dirty and
cleaned. -/
def ckptLines (s : State) : List (Nat × HOp × LineAddr) :=
  s.slices.flatMap (fun e =>
    let x := e.2
    (x.ways.filter (fun w => w.2.p && w.2.dirty && !w.2.pend)).map (fun w => (e.1, HOp.maint 0, w.2.line))
      ++ (x.evb.filter (fun v => v.p)).map (fun v => (e.1, HOp.maint 0, v.line))
      ++ (x.dir.filter (fun d => decide (d.2.dst = 3 ∨ d.2.dst = 4) && isPmem d.2.line)).map (fun d => (e.1, HOp.maint 3, d.2.line)))

/-- Whether a slice has room for one more cleaning of the pump (R175, R188): eight at once, those of a checkpoint among them. -/
def ckptRoom (s : State) (n : Nat) : Bool :=
  decide (((slice s n).cleans.filter (fun c => c.pump && c.after.isEmpty)).length + (s.ckpt.left.filter (fun l => decide (homeOf s l = n))).length < 8)

/-- The checkpoint's next lines go to their homes (R188). -/
def ckptIssue (s : State) : List (Nat × HOp × LineAddr) → State
  | [] => s
  | e :: r =>
    if ckptRoom s e.1 then
      let s1 := { s with ckpt := { s.ckpt with left := s.ckpt.left ++ [e.2.2] } }
      ckptIssue (push s1 (.home e.1 { who := .pump, op := e.2.1, line := e.2.2, epoch := (slice s e.1).epoch })) r
    else ckptIssue { s with ckpt := { s.ckpt with todo := s.ckpt.todo ++ [e] } } r

/-- The checkpoint goes on (R188): background work, paused in a quiet window. -/
def ckptWalk (s : State) : State :=
  if s.ckpt.phase ≠ 1 ∨ quiet s ∨ gated s then s
  else
    let todo := if s.ckpt.walked then s.ckpt.todo else ckptLines s
    ckptIssue { s with ckpt := { s.ckpt with walked := true, todo := [] } } todo

/-- A checkpoint starts (R188); ignored, with COLL, while one is BUSY or its result is held, and from WARN until the next start. Its stamps are
TBASE and PHU_PHASE. -/
def ckptStart (s : State) : State :=
  if s.ckpt.phase ≠ 0 ∨ gated s then flag s F.PMP_CKPT_COLL
  else
    let q := s.ckpt.next
    ckptWalk (ckptShow s { phase := 1, seq := q, next := nextSeq q, tb := s.tb, ph := raw s R.PHU_PHASE })

/-- A request of the pump is complete (R188). -/
def pumpReply (s : State) (r : HReq) : State :=
  if r.op = .maint 0 ∨ r.op = .maint 3 then
    ckptWalk { s with ckpt := { s.ckpt with left := dropOne (fun l => decide (l = r.line)) s.ckpt.left } }
  else s

/-- Every line of the walk is confirmed (R188): the record of R184, the configuration record and the snapshot are written, metered (R171, R187, R210):
the snapshot's header line and 21 entries to a line. -/
def ckptWritten (s : State) : State :=
  if s.ckpt.phase ≠ 1 ∨ s.ckpt.walked = false ∨ s.ckpt.todo ≠ [] ∨ s.ckpt.left ≠ [] ∨ s.ckpt.record ∨ quiet s ∨ gated s
    ∨ s.cis.queue.any (fun g => decide (g.kind = .checkpoint)) then s
  else
    let s1 := meter s { prio := 4, kind := .lines, left := openLines s 0, place := some (wearPlace (s.mdata.wears.turn WearRec.no)) }
    let s2 := meter s1 { prio := 4, kind := .lines, left := openLines s1 1, place := some (confPlace (s1.mdata.confs.turn ConfRec.no)) }
    meter (freshen s2) { prio := 4, kind := .checkpoint, left := snapLines (snapshotNow s2), place := some (snapPlace (s2.mdata.snaps.turn Snap.no)) }

/-- The record is confirmed and the result VALID (R188). -/
def ckptDone (s : State) : State :=
  if s.ckpt.phase = 1 ∧ s.ckpt.record = true then
    ckptShow (snapPut (confPut (wearPut s s.cis.map))) { s.ckpt with phase := 2, status := 0, record := false }
  else s

/-- REL frees a VALID result (R188); the number and stamps stay for the record of R184. -/
def ckptRel (s : State) : State :=
  if s.ckpt.phase = 2 then ckptShow s { s.ckpt with phase := 0, status := 0 } else s

/-- WARN ends a running checkpoint with STATUS 1 (R188). -/
def ckptEnd (s : State) : State :=
  if s.ckpt.phase = 1 then ckptShow s { s.ckpt with phase := 2, status := 1, todo := [], left := [], record := false } else s

/-- The Cistern line that a write of one line goes to. -/
def GKind.line : GKind → Option Nat
  | .evb _ l => some (pmemLine l)
  | .clean _ l => some (pmemLine l)
  | .direct _ l => some (pmemLine l)
  | .corrective n => some n
  | .bootSlot n _ => some n
  | _ => none

/-- Whether a waiting write may be admitted now: copies of a region move and a checkpoint's writes pause in quiet windows (R183, R188). -/
def mayAdmit (s : State) (g : GWrite) : Bool :=
  !(quiet s) || !(decide (g.prio = 4) || (match g.kind with
    | .region _ => true
    | _ => false))

/-- The waiting write that the governor admits next (R187): the lowest priority number, the oldest of them; but the oldest write of its line,
since writes to one line keep their order (R139). -/
def nextAdmit (s : State) (q : List GWrite) : Option GWrite :=
  let able := q.filter (mayAdmit s)
  (able.find? (fun g => able.all (fun h => decide (g.prio ≤ h.prio)))).map (fun g =>
    if g.kind.line.isSome then (q.find? (fun h => decide (h.kind.line = g.kind.line))).getD g else g)

/-- Credits arrive and a delayed write is admitted (R187, row GOVERNOR_ADMIT): as many of its lines as stand above the floor, or as credits have arrived
at or below it. -/
def governorAdmit (s : State) : State :=
  let above := (s.cis.level - govFloor s).toNat
  let room := if 0 < above then above else s.cis.arrived
  if room = 0 then s
  else match nextAdmit s s.cis.queue with
    | none => s
    | some g =>
      let k := min g.left room
      let q := if k = g.left then dropOne (fun h => decide (h = g)) s.cis.queue else updOne (fun h => decide (h = g)) (fun h => h.rest k) s.cis.queue
      let s1 := admitLines { s with cis := { s.cis with queue := q, arrived := s.cis.arrived - k } } g k
      if k = g.left then writeDone s1 g else s1

/-- Every write that waits when WARN trips is exempt and made, in its order (R187); region moves pause and gap moves stop (R183, R198; log entry 116). -/
def admitAll (s : State) : State :=
  (s.cis.queue.filter (fun g => match g.kind with
    | .region _ => false
    | .gap _ => false
    | _ => true)).foldl (fun s g => writeDone (admitLines s g g.left) g) { s with cis := { s.cis with queue := [] } }

/-- The credits of one TBASE tick (R185, R186); those that arrive at or below the floor while writes wait each admit one (R187). -/
def accrue (s : State) : State :=
  let f := s.cis.frac.toNat + effF s F.WGV_RATE_RATE
  let l := s.cis.level + (f / 2 ^ 32 : Nat)
  { s with cis := { s.cis with frac := BitVec.ofNat 32 f, level := if l ≤ 0x1000000000 then l else max s.cis.level 0x1000000000,
                               arrived := if s.cis.queue = [] ∨ govFloor s < l then 0 else s.cis.arrived + f / 2 ^ 32 } }

end Sys2Proof.Machine
end

