-- ==== Sys2Proof/Machine/Repair.lean ====
section
/-! DEFINITION. Remap entries of slices and Cistern dies, repair actions, the inspection registers, and the events of the
memory channels (R95, R190, R215–R218, R224–R226, R230–R232, R238–R240). -/

namespace Sys2Proof.Machine

/-- The snapshot of a tag entry and its set's age matrix (R95). -/
def debugSnap (s : State) (n : Nat) (set way : Nat) : State :=
  let x := slice s n
  let t := tagWord x (set * 16 + way)
  let m := (nget x.ages set).getD 0
  let s1 := wr (wr s (R.SLC_DBG_TAG_LO n) (BitVec.ofNat 32 (bits t 0 32))) (R.SLC_DBG_TAG_HI n) (BitVec.ofNat 32 (bits t 32 15))
  (List.range 4).foldl (fun s k => wr s (R.SLC_DBG_LRU n k) (BitVec.ofNat 32 (bits m (32 * k) 32))) s1

/-- The snapshot of a physical region (R190). -/
def regionSnap (s : State) (p : Nat) : State :=
  let g := regionOf s p
  let s1 := wr s R.CST_RINFO (BitVec.ofNat 32 (logicalOf s p + b2n (inMove s p) <<< 8))
  let s2 := wr s1 R.CST_RGAP (BitVec.ofNat 32 (g.gap + g.start <<< 16))
  wr (wr s2 R.CST_RWEAR_LO (BitVec.ofNat 32 g.wear)) R.CST_RWEAR_HI (BitVec.ofNat 32 (g.wear >>> 32))

/-- The ways of a set, but for one, that a slice has out of service, one remap entry left aside (R231). -/
def lostWays (s : State) (n set way except : Nat) : Nat :=
  ((List.range 16).filter (fun w => decide (w ≠ way) &&
    ((List.range 8).any (fun i =>
      let v := raw s (R.SLC_RMAP n i)
      decide (i ≠ except) && (bit v 31 || bit v 30) && decide (bits v 0 11 = set) && decide (bits v 12 4 = w))
    || (slice s n).gone.contains (set * 16 + w)))).length

/-- A way that an entry had taken returns to service, invalid and oldest (R231). One that is still to be emptied is emptied now, unless an open
transaction or a full eviction buffer leaves that to the operation that is on its way. -/
def wayBack (s : State) (n : Nat) (w : Word) : State :=
  let k := bits w 0 11 * 16 + bits w 12 4
  if bits w 30 2 = 0 then s
  else match nget (slice s n).ways k with
    | none => setSlice s n (sinkWay (slice s n) k)
    | some v => if v.pend ∨ inRound (slice s n) v.line ∨ (v.dirty ∧ 16 ≤ (slice s n).evb.length) then s else walkWay s n k

/-- A write of SLC_RMAP_k (R231): VALID = 1 takes the way out of service once it is cleaned; VALID = 0 returns the one that the entry
had taken. -/
def rmapWrite (s : State) (n k : Nat) (w : Word) : State :=
  let set := bits w 0 11
  let way := bits w 12 4
  if bit w 31 then
    if 4 ≤ lostWays s n set way k then setF (flag s (F.SLC_ERR_ACFG n)) (F.SLC_ERR_ACFG_CAUSE n) 6
    else
      let s1 := wr s (R.SLC_RMAP n k) (BitVec.ofNat 32 (set + way <<< 12 + 0xC0000000))
      match nget (slice s1 n).ways (set * 16 + way) with
      | some v => push s1 (.home n { who := .pump, op := .maint 2, line := v.line, epoch := (slice s1 n).epoch })
      | none => s1
  else wayBack (wr s (R.SLC_RMAP n k) (BitVec.ofNat 32 (set + way <<< 12))) n (raw s (R.SLC_RMAP n k))

/-- The remapped way has been cleaned (R231, row WAY_REMAP_DONE). -/
def rmapDone (s : State) (n k : Nat) : State :=
  let w := raw s (R.SLC_RMAP n k)
  if bit w 30 ∧ (nget (slice s n).ways (bits w 0 11 * 16 + bits w 12 4)).isNone then
    let x := slice s n
    setF (setSlice s n (sinkWay x (bits w 0 11 * 16 + bits w 12 4))) (F.SLC_RMAP_PEND n k) 0
  else s

/-- The remap entry that CST_RMIDX selects (R240). -/
def rmIndex (s : State) : Nat := getF s F.CST_RMIDX_DIE * 64 + getF s F.CST_RMIDX_ENTRY

/-- What CST_RMDAT reads (R240). -/
def rmWord (s : State) : Word :=
  match nget s.cis.remaps (rmIndex s) with
  | some r => BitVec.ofNat 32 (r.preg + r.slot <<< 8 + b2n r.pend <<< 30 + b2n r.valid <<< 31)
  | none => 0

/-- A Cistern remap entry is written (R232, R240). -/
def rmSet (s : State) (ix : Nat) (w : Word) : State :=
  let old := (nget s.cis.remaps ix).getD {}
  if bits w 0 8 % 2 ≠ ix / 64 ∨ 16384 < bits w 8 15 ∨ old.pend then s
  else
    let v := bit w 31
    { s with cis := { s.cis with remaps := nset s.cis.remaps ix { preg := bits w 0 8, slot := bits w 8 15, pend := v, valid := v } } }

/-- The copy of a slot to its spare ends (R187, R232): one line write, metered. -/
def rmCopied (s : State) (ix : Nat) : State :=
  match nget s.cis.remaps ix with
  | some r =>
    if r.pend = false ∨ cisUp s = false ∨ s.cis.queue.any (fun g => decide (g.kind = .remap ix)) then s
    else meter s { prio := 3, kind := .remap ix }
  | none => s

/-- The repair mode of a location; 0 is taken as BOTH (R190, R239). -/
def repairMode (s : State) (loc : RepairLoc) : Nat :=
  let m := match loc with
    | .surface n _ _ => effF s (F.SLC_REPAIR_MODE n)
    | .cistern p _ => if p.toNat % 2 = 0 then effF s F.CST_REPAIR_MODE_A else effF s F.CST_REPAIR_MODE_B
  if m = 0 then 3 else m

/-- Program a remap entry for a location; false where none is free (R230). -/
def mapRepair (s : State) (loc : RepairLoc) : State × Bool :=
  match loc with
  | .surface n set way =>
    if outOfService s n (set.toNat * 16 + way.toNat) then (s, true)
    else match (List.range 8).find? (fun i => decide (bits (raw s (R.SLC_RMAP n i)) 30 2 = 0)) with
      | some i =>
        if 4 ≤ lostWays s n set.toNat way.toNat i then (s, false)
        else (rmapWrite s n i (BitVec.ofNat 32 (set.toNat + way.toNat <<< 12 + 0x80000000)), true)
      | none => (s, false)
  | .cistern p slot =>
    let die := p.toNat % 2
    if s.cis.remaps.any (fun e => (e.2.valid || e.2.pend) && decide (e.2.preg = p.toNat ∧ e.2.slot = slot.toNat)) then (s, true)
    else match (List.range 64).find? (fun i => match nget s.cis.remaps (die * 64 + i) with
        | some r => !r.valid && !r.pend
        | none => true) with
      | some i => (rmSet s (die * 64 + i) (BitVec.ofNat 32 (p.toNat + slot.toNat <<< 8 + 0x80000000)), true)
      | none => (s, false)

/-- The word and the unit a repair record names a location by (R305, R306). -/
def locOf : RepairLoc → Nat × Nat
  | .surface n set way => (sbeWord set.toNat way.toNat 0 false, n)
  | .cistern p slot => (locWord p.toNat slot.toNat, dieUnit p.toNat)

/-- The bank in which a location lies (R70, R168): of a slice's 16, or of a die's 128. -/
def bankOf (loc : RepairLoc) : Nat :=
  match loc with
  | .surface n set way => n.val * 16 + (way.toNat ^^^ set.toNat % 16)
  | .cistern p slot => 512 + p.toNat % 2 * 128 + slot.toNat % 128

/-- Chiso records a location for a fuse spare (R230): each bank has 4 spare rows and 2 spare columns, and one serves one location
(log entry 55). False where none is free. -/
def fuseRepair (s : State) (loc : RepairLoc) : State × Bool :=
  if s.journal.fuses.contains loc then (s, true)
  else if 6 ≤ (s.journal.fuses.filter (fun l => decide (bankOf l = bankOf loc))).length then (s, false)
  else (journalNote { s with journal := { s.journal with fuses := s.journal.fuses ++ [loc] } } [.fuse loc], true)

/-- Chiso acts on a repair candidate (R230, row REPAIR_ACTION); record 0x0406 where what the mode uses is used up. -/
def repairAction (s : State) (loc : RepairLoc) : State :=
  if chisoRuns s = false then s
  else
    let m := repairMode s loc
    let r := if m = 1 then (s, false) else mapRepair s loc
    let f := if m = 2 then (r.1, false) else fuseRepair r.1 loc
    if r.2 || f.2 then f.1 else post f.1 0x0406 (locOf loc).2 (leBytes 4 (locOf loc).1)

/-- The next start programs the recorded fuse spares, and releases the remap entries of what they replace (R230). -/
def fuseSpares (s : State) : State :=
  s.journal.fuses.foldl (fun s loc => match loc with
    | .surface n set way =>
      (List.range 8).foldl (fun s i =>
        let w := raw s (R.SLC_RMAP n i)
        if bit w 31 ∧ bits w 0 11 = set.toNat ∧ bits w 12 4 = way.toNat then wr s (R.SLC_RMAP n i) 0 else s) s
    | .cistern p slot =>
      { s with cis := { s.cis with remaps := s.cis.remaps.filter (fun e => !(decide (e.2.preg = p.toNat ∧ e.2.slot = slot.toNat))) } }) s

/-- The installed capacity of a configured channel in GiB (R215). -/
def channelGiB (s : State) (c : Nat) : Nat :=
  2 * 2 ^ (min (effF s (F.MCH_CFG_RANKS c)) 2) * (if effF s (F.MCH_CFG_DENS c) = 1 then 32 else 16)

/-- A configuration record of the metadata partition is written (R171, R172, R187). -/
def configRecord (s : State) : State :=
  if cisUp s = false then s
  else meter (freshen s) { prio := 3, kind := .conf, left := openLines s 1, place := some (confPlace (s.mdata.confs.turn ConfRec.no)) }

/-- Whether a channel's stored training values pass their check (R218): they are there, and fit the configuration unless that is the reset one. -/
def trainedOk (s : State) (c : Nat) : Bool :=
  match nget (lastConf s).trained c with
  | some w => decide (effWord s (R.MCH_CFG c) = w) || decide (effWord s (R.MCH_CFG c) = resetWord (R.MCH_CFG c))
  | none => false

/-- A channel starts its training, or the restore of its stored values (R218, R361): where those fail their check, Chiso programs MCH_CFG with what
the SPD hubs give and the start is cold. The check of a restore writes and reads lines whose contents no restart preserves (R19). -/
def trainStart (s : State) (c : Nat) : State :=
  let ok := trainedOk s c
  let w := if ok then (nget (lastConf s).trained c).getD 0 else if s.start.running then BitVec.ofNat 32 (Config.spd c).toNat else effWord s (R.MCH_CFG c)
  let s1 := setEff (wr s (R.MCH_CFG c) w) (R.MCH_CFG c) w
  let s2 := if ok = false ∧ s.start.running ∧ getF s F.FED_SSTAT_KIND = 0 then setF s1 F.FED_SSTAT_KIND 1 else s1
  setF (setF s2 (F.MCH_STAT_STATE c) 1) (F.MCH_STAT_CAP c) (channelGiB s2 c)

/-- Values that training gave are written to the metadata partition where they are not there yet (R171, R218). -/
def keepTraining (s : State) (c : Nat) : State :=
  if nget (lastConf s).trained c = (chan s c).trained then s else configRecord s

/-- A channel's training or restore ends (R218): READY with its marks restored (R224), or FAILED. -/
def channelTrained (s : State) (c : Nat) (ok : Bool) : State :=
  if getF s (F.MCH_STAT_STATE c) ≠ 1 then s
  else if ok = false then setF s (F.MCH_STAT_STATE c) 3
  else
    let s1 := setF (setF s (F.MCH_STAT_STATE c) 2) (F.MCH_STAT_CAP c) (channelGiB s c)
    let s2 := keepTraining (setChan s1 c { chan s1 c with trained := some (effWord s1 (R.MCH_CFG c)) }) c
    (List.range 8).foldl (fun s i => match nget s.journal.marks (8 * c + i) with
      | some d => setF (setF s (F.MCH_MARK_DEV c i) d) (F.MCH_MARK_VALID c i) 1
      | none => s) s2

/-- LEAK seconds pass (R224). -/
def leak (s : State) (c : Nat) : State :=
  let x := chan s c
  setChan s c { x with leaky := x.leaky.filterMap (fun e => if e.2 ≤ 1 then none else some (e.1, e.2 - 1)) }

/-- A write of MCH_MARK (R224, R225, R238): DEV 10 to 15 is ignored; a new mark is flagged and recorded. -/
def markWrite (s : State) (c k : Nat) (w : Word) : State :=
  let d := if bits w 0 4 ≤ 9 then bits w 0 4 else getF s (F.MCH_MARK_DEV c k)
  let cell : Cell := { ch := c, sub := k / 4, rank := k % 4 }
  if bit w 4 then
    if markedDev s cell = some d then s else markDevice s cell d false
  else
    let s1 := setF (setF (setF s (F.MCH_MARK_DEV c k) d) (F.MCH_MARK_VALID c k) 0) (F.MCH_MARK_HW c k) 0
    if (nget s1.journal.marks (8 * c + k)).isSome then
      journalNote { s1 with journal := { s1.journal with marks := nerase s1.journal.marks (8 * c + k) } } [.mark (8 * c + k) none]
    else s1

/-- A write of MCH_CIDX takes a snapshot (R238). -/
def cidxSnap (s : State) (c : Nat) (w : Word) : State :=
  let cell : Cell := { ch := c, sub := bits w 0 1, rank := bits w 1 2 }
  let i := devIx cell (bits w 3 4)
  let x := chan s c
  wr s (R.MCH_CDAT c) (BitVec.ofNat 32 ((nget x.leaky i).getD 0 + ((nget x.total i).getD 0) <<< 8))

/-- ALERT_n for command/address parity (R217, R226): a retry; where the retries fail, every access in flight to the rank and
subchannel ends as an uncorrectable line of KIND 4, with nothing written back. -/
def caParity (s : State) (c sub rank : Nat) (ok : Bool) : State :=
  let s1 := flag s (F.MCH_ERR_CAPAR c)
  if ok then s1
  else
    let cell : Cell := { ch := c, sub := sub, rank := rank }
    let s2 := post s1 0x0403 (0x30 + c) (b1 sub ++ b1 rank)
    let hit := fun (m : Mshr) => decide (m.wait = .fill ∨ m.wait = .atomic) && m.tier.isNone && decide (attrOf s m.req.line = .dram)
      && (let at' := cellOf s (laOf s (m.req.line.toNat * 64))
          decide (at'.ch = c ∧ at'.sub = sub ∧ at'.rank = rank))
    s2.slices.foldl (fun s e =>
      (e.2.mshrs.filter hit).foldl (fun s m =>
        let x := slice s e.1
        let s3 := setSlice s e.1 { x with mshrs := dropOne (fun q => decide (q.req.line = m.req.line)) x.mshrs }
        let d := Config.dramUndefined (laOf s (m.req.line.toNat * 64) / 64) s.fresh
        let s4 := uncorrectable (freshen s3) cell m.req.line 4
        if m.wait = .fill then fillWith s4 e.1 m (d, true, 2) else atomWith s4 e.1 m d true) s) s2

/-- The refresh interval passes (R217): REFsb changes nothing that the channel stores. -/
def refreshBank (s : State) (_c : Nat) : State := s

end Sys2Proof.Machine
end

