-- ==== Sys2Proof/Machine/Power.lean ====
section
/-! DEFINITION. The switched power domains: what lies in each, its clock enables, the on-sequences and off-sequences, the
refusals of an off request, and what a domain loses (R7, R11, R25, R271, R276–R282, R290). -/

namespace Sys2Proof.Machine

/-- The domain that holds the register at an offset; none for AON (R11, R384, R385). -/
def domainAt (off : Nat) : Option Nat :=
  match place off with
  | some (.slc, n, _) => some (slicePd n)
  | some (.apt, p, _) => some (17 + p)
  | some (.mch, c, _) => some (23 + c)
  | some (.fed, _, _) => some 29
  | some (.pci, _, _) => some 30
  | some (.can, _, _) => some 30
  | some (.sec, _, o) => if 0x100 ≤ o then some 30 else none
  | _ => none

/-- Whether the clock of the block at an offset is enabled in effect; AON has no enable (R271). -/
def clockAt (s : State) (off : Nat) : Bool :=
  match place off with
  | some (.slc, n, _) => slcEn s n
  | some (.apt, p, _) => devEn s p
  | some (.mch, c, _) => devEn s (6 + c)
  | some (.fed, l, _) => devEn s (12 + l)
  | some (.pci, _, _) => devEn s 15
  | some (.can, _, _) => devEn s 16
  | some (.sec, _, o) => decide (o < 0x100) || devEn s 17
  | _ => true

/-- The offsets of a domain's registers. -/
def domainRanges (d : Nat) : List (Nat × Nat) :=
  if d ≤ 16 then [(0x100000 + (2 * d - 2) * 0x10000, 0x100000 + 2 * d * 0x10000)]
  else if d ≤ 22 then [(0x300000 + (d - 17) * 0x10000, 0x300000 + (d - 16) * 0x10000)]
  else if d ≤ 26 then [(0x400000 + (d - 23) * 0x40000, 0x400000 + (d - 22) * 0x40000)]
  else if d = 29 then [(0x380000, 0x381000), (0x381100, 0x3B0000)]
  else if d = 30 then [(0x80100, 0x90000), (0xC0000, 0xE0000)]
  else []

/-- The clock enables of a domain's blocks, in CLK_EN_SLC and in CLK_EN_DEV. -/
def slcBits (d : Nat) : Nat := if 1 ≤ d ∧ d ≤ 16 then 3 <<< (2 * d - 2) else 0
def devBits (d : Nat) : Nat :=
  if 17 ≤ d ∧ d ≤ 26 then 1 <<< (d - 17) else if d = 27 then 1 <<< 10 else if d = 28 then 1 <<< 11
  else if d = 29 then 7 <<< 12 else if d = 30 then 7 <<< 15 else 0

/-- The bits of the domains that are on, as enables. -/
def poweredSlc (s : State) : Nat := sumOf ((List.range 17).map (fun d => if 1 ≤ d ∧ pdOn s d then slcBits d else 0))
def poweredDev (s : State) : Nat := sumOf ((List.range 31).map (fun d => if 17 ≤ d ∧ pdOn s d then devBits d else 0))

/-- A die that is on and clocked is ready (R190). -/
def readyDies (s : State) : State :=
  setF (setF s F.CST_STAT_READY_A (b2n (pdOn s 27 && devEn s 10))) F.CST_STAT_READY_B (b2n (pdOn s 28 && devEn s 11))

/-- The clock enables in effect become what the committed ones and the domains allow (R271, R280). -/
def takeEnables (s : State) : State :=
  let a := setF s F.CLK_EN_SLC_EFF_SLC ((effWord s R.CLK_EN_SLC).toNat &&& poweredSlc s)
  readyDies (wr a R.CLK_EN_DEV_EFF (BitVec.ofNat 32 (bits (effWord s R.CLK_EN_DEV) 0 18 &&& poweredDev s)))

/-- Set or clear a bit of a field that holds one bit for each domain. -/
def setPd (s : State) (f : Fld) (d : Nat) (v : Bool) : State :=
  setF s f (putBits (BitVec.ofNat 30 (getF s f)) (d - 1) 1 (b2n v)).toNat

/-- PMU_PD_BUSY shows the sequence that runs, the first of those that wait. -/
def showBusy (s : State) : State :=
  setF s F.PMU_PD_BUSY_BUSY (match s.seqs with
    | [] => 0
    | (d, _) :: _ => 1 <<< (d - 1))

/-- A DRAM channel that is off keeps no contents (R19, R276). -/
def loseDram (s : State) (c : Nat) : State := { s with dram := s.dram.filter (fun e => decide ((cellOf s (e.1 * 64)).ch ≠ c)) }

/-- The dictionary requests of the CAN node and of the mailboxes end unanswered with what sent them (R276). -/
def endRequests (q : List DReq) : List DReq :=
  q.map (fun r => match r.src with
    | .row => r
    | _ => { r with src := .ended })

/-- What a domain held is lost (R276). -/
def loseUnits (s : State) (d : Nat) : State :=
  if d ≤ 16 then { s with slices := nerase (nerase s.slices (2 * d - 2)) (2 * d - 1) }
  else if d ≤ 22 then { s with ports := nerase s.ports (d - 17) }
  else if d ≤ 26 then { loseDram s (d - 23) with chans := nerase s.chans (d - 23) }
  else if d = 29 then
    { (List.range 3).foldl (fun s l => if isF s (F.FED_LSTAT_UP l) then linkDown s l 0 else s) s with vls := [] }
  else if d = 30 then
    { s with pcie := { inNext := s.pcie.inNext, npNext := s.pcie.npNext }, dmas := idleDmas s, mbxs := [], dictq := endRequests s.dictq, can := { s.can with booted := false, emcy := [], sdo := none, well := none },
             sec := { report := s.sec.report, fuses := s.sec.fuses } }
  else s

/-- A domain is off (R276, R278): its rail switches open. -/
def domainOff (s : State) (d : Nat) : State :=
  let s1 := loseUnits s d
  let s2 := (domainRanges d).foldl (fun s r => resetRange s r.1 r.2) s1
  push (takeEnables (setPd s2 F.PMU_PD_STAT_ON d false)) .start

/-- A domain is on (R7, R94, R278, R280, R301): its registers at their reset values, its committed enables in effect; a slice
stands at the epoch of the device. -/
def domainOn (s : State) (d : Nat) : State :=
  let at' := fun (s : State) (n : Nat) => setSlice s n { slice s n with epoch := getF s F.CFG_EPOCH_EPOCH }
  let s1 := if d ≤ 16 then at' (at' s (2 * d - 2)) (2 * d - 1) else s
  push (takeEnables (setPd s1 F.PMU_PD_STAT_ON d true)) .start

/-- An on-sequence ends (R278): it waits for clocks. -/
def onDone (s : State) (d : Nat) : State :=
  match s.seqs with
  | (k, true) :: rest =>
    if k = d ∧ clocksRun s then push (showBusy (domainOn { s with seqs := rest } d)) .commit else s
  | _ => s

/-- An off-sequence ends (R278). -/
def offDone (s : State) (d : Nat) : State :=
  match s.seqs with
  | (k, false) :: rest => if k = d then push (showBusy (domainOff { s with seqs := rest } d)) .commit else s
  | _ => s

/-- Whether PMEM, the Tier or the boot slot is served from the dies (R271). -/
def diesServe (s : State) : Bool :=
  cisUp s && s.start.classified && (decide (0 < pmemSize s) || tierOn s || (bootOf s s.start.bootSlot).valid)

/-- The boot ROM may need the crypto engine (R271, R279). -/
def romMayRun (s : State) : Bool := decide (getF s F.PMU_MCU_STATE = 0 ∨ getF s F.PMU_MCU_STATE = 1 ∨ getF s F.PMU_MCU_STATE = 3)

/-- Whether a clock enable of CLK_EN_DEV must stay 1 (R271). -/
def devHeld (s : State) (b : Nat) : Bool :=
  if b < 6 then isF s (F.APT_STAT_UP b)
  else if b = 10 ∨ b = 11 then diesServe s
  else if 12 ≤ b ∧ b < 15 then isF s (F.FED_LSTAT_UP (b - 12))
  else if b = 17 then romMayRun s
  else false

/-- Whether a slice is named in the effective home table (R37). -/
def inTable (s : State) (n : Nat) : Bool := (List.range 256).any (fun b => decide (homeSlice s b = n))

/-- The clock-enable step of a commit (R271, R280): zeros that must stay ones are refused. -/
def commitEnables (s : State) : State :=
  let slc := (List.range 32).filter (fun n => slcEn s n && !(bit (raw s R.CLK_EN_SLC) n) && inTable s n)
  let dev := (List.range 18).filter (fun b => devEn s b && !(bit (raw s R.CLK_EN_DEV) b) && devHeld s b)
  let s1 := setEff s R.CLK_EN_SLC (slc.foldl setBit (raw s R.CLK_EN_SLC))
  let s2 := setEff s1 R.CLK_EN_DEV (dev.foldl setBit (raw s R.CLK_EN_DEV))
  let s3 := if slc = [] ∧ dev = [] then s2 else flag s2 F.CLK_ERR_ENREF
  push (takeEnables s3) .start

/-- Whether a DRAM range or the interleave is mapped to this device's DRAM (R279). -/
def dramMapped (s : State) : Bool :=
  bit (effWord s (R.DIR_DRNG (self s))) 31
    || (bit (effWord s R.DIR_ILV) 31 && (List.range (ilvWays s)).any (fun w => decide (ilvMap s w = self s)))

/-- Whether a BUSY MOP command uses a domain (R279). -/
def mopUses (s : State) (d : Nat) : Bool :=
  s.mops.any (fun e => decide (e.2.phase = 1) && e.2.doms.contains d)

/-- The lowest cause for which an off request is refused; 0 for none (R279). -/
def offCause (s : State) (d : Nat) : Nat :=
  if getF s F.CLK_EN_SLC_EFF_SLC &&& slcBits d ≠ 0 ∨ bits (raw s R.CLK_EN_DEV_EFF) 0 18 &&& devBits d ≠ 0 then 1
  else if d ≤ 16 ∧ (inTable s (2 * d - 2) ∨ inTable s (2 * d - 1)) then 2
  else if 23 ≤ d ∧ d ≤ 26 ∧ d - 23 < 2 ^ chLog s ∧ dramMapped s then 3
  else if (d = 27 ∨ d = 28) ∧ (isF s F.CST_STAT_READY_A ∨ isF s F.CST_STAT_READY_B) then 4
  else if 17 ≤ d ∧ d ≤ 22 ∧ (isF s (F.APT_STAT_UP (d - 17)) ∨ isF s (F.APT_STAT_RECLAIM (d - 17))) then 5
  else if mopUses s d ∨ (d = 30 ∧ (s.dmas.any (fun e => decide (e.2.phase ≠ 0)) ∨ s.sec.order ≠ [])) then 6
  else if d = 30 ∧ romMayRun s then 7
  else 0

/-- An off request meets R279: refused and recorded, or queued. -/
def requestOff (s : State) (d : Nat) : State :=
  let c := offCause s d
  if c = 0 then { s with seqs := s.seqs ++ [(d, false)] }
  else
    let s1 := if isF s F.PMU_PD_ERR_REFUSED then s
      else setF (setF (flag s F.PMU_PD_ERR_REFUSED) F.PMU_PD_ERR_CAUSE c) F.PMU_PD_ERR_PD d
    post s1 0x0504 0x42 (b1 d ++ b1 c)

/-- The domains that the effective PMU_PD_CTL asks for and that are not on, ascending, and the other way round, descending
(R278). -/
def toSwitchOn (s : State) : List Nat :=
  ((List.range 31).drop 1).filter (fun d => (effF s F.PMU_PD_CTL_ON).testBit (d - 1) && !(pdOn s d) && !(s.seqs.contains (d, true)))
def toSwitchOff (s : State) : List Nat :=
  (((List.range 31).drop 1).filter (fun d => !((effF s F.PMU_PD_CTL_ON).testBit (d - 1)) && pdOn s d)).reverse

/-- Queue the on-sequences of a list of domains. -/
def startOns (s : State) (ds : List Nat) : State := showBusy { s with seqs := s.seqs ++ ds.map (fun d => (d, true)) }

/-- Whether the drain keeps a domain on (R199). -/
def drainKeeps (s : State) (d : Nat) : Bool :=
  !(decide (23 ≤ d ∧ d ≤ 26)) && !(decide (17 ≤ d ∧ d ≤ 22) && !(isF s (F.APT_STAT_UP (d - 17))))

/-- WARN meets a running sequence (R281, R299): an on-sequence of a domain the drain does not keep is abandoned, and nothing
that waits begins. -/
def warnSeqs (s : State) : State :=
  showBusy { s with seqs := match s.seqs with
    | (d, true) :: _ => if drainKeeps s d then [(d, true)] else []
    | (d, false) :: _ => [(d, false)]
    | [] => [] }

/-- Every switched domain goes off (R196, R197, R281). -/
def allOff (s : State) : State :=
  let s1 := resetRange (showBusy { s with seqs := [], vls := [], fabric := [] }) 0x380000 0x381000
  ((List.range 31).drop 1).foldl (fun s d => if pdOn s d then domainOff s d else s) s1

/-- A slice's INIT ends (R94): it needs its clock. -/
def initDone (s : State) (n : Nat) : State :=
  if sliceUp s n ∧ slcState s n = 0 then
    push (setF s (F.SLC_STAT_STATE n) (if effF s (F.SLC_CTL_EN n) = 1 then 2 else 1)) (.tend n)
  else s

/-- The DRAINING walk has ended and the eviction buffer is empty (R163). -/
def drainingDone (s : State) (n : Nat) : State :=
  let x := slice s n
  if slcState s n = 3 ∧ 2048 ≤ x.walk ∧ x.evb = [] then
    let st := if effF s (F.SLC_CTL_EN n) = 1 then 2 else 1
    push (post (setF s (F.SLC_STAT_STATE n) st) 0x0304 n (b1 st)) (.tend n)
  else s

/-- Whether a slice holds nothing of a marked bucket (R284). -/
def evacLeft (s : State) (n : Nat) : Nat :=
  let x := slice s n
  (x.ways.filter (fun e => !e.2.pend && marked s n e.2.line)).length + (x.dir.filter (fun e => decide (e.2.dst ≠ 0) && marked s n e.2.line)).length
def evacHolds (s : State) (n : Nat) : Bool :=
  let x := slice s n
  x.mshrs.any (fun m => marked s n m.req.line) || x.evb.any (fun e => marked s n e.line)

/-- The evacuation walks have ended and nothing of a marked bucket is left (R284, row EVACUATION_EMPTY). -/
def evacEmpty (s : State) (n : Nat) : State :=
  if (slice s n).evacOn ∧ evacLeft s n = 0 ∧ evacHolds s n = false then
    flag (setSlice s n { slice s n with evacOn := false }) (F.SLC_EVAC_STAT_EMPTY n)
  else s

end Sys2Proof.Machine
end

