-- ==== Sys2Proof/Machine/Clock.lean ====
section
/-! DEFINITION. The clock sources, the clock states, the fallback chain, ramps, trims, DVFS and the readings that steer them
(R217, R255–R271, R275, R391). -/

namespace Sys2Proof.Machine

/-- The clock state, CLK_STAT.CST (R261). -/
def cst (s : State) : Nat := getF s F.CLK_STAT_CST

/-- In CLOCK-HOLD the switched domains stand still (R266). -/
def holding (s : State) : Bool := decide (cst s = 4)

/-- SPLL's M and VCORE in mV at a point (R269). -/
def pointM (p : Nat) : Nat := [8, 10, 12, 15, 18, 20].getD p 20
def pointV (p : Nat) : Nat := [650, 680, 720, 770, 830, 880].getD p 880

/-- The highest point whose M does not exceed SPLL's (R275). -/
def pointOf (m : Nat) : Nat := ((List.range 6).filter (fun p => decide (pointM p ≤ m))).length - 1

/-- CLK_STAT shows what the clock unit does (R275). -/
def showClk (s : State) : State :=
  let c := s.clk
  let s1 := setF s F.CLK_STAT_RAMP (b2n (decide (c.ramp ≠ []) || (c.moving && !c.volt)))
  setF (setF s1 F.CLK_STAT_OP (if cst s = 3 then pointOf c.m else 0)) F.CLK_STAT_DVFS_BUSY (b2n c.moving)

def setClk (s : State) (c : Clk) : State := showClk { s with clk := c }

/-- The source of MCLK and of TBASE (R261, R268). -/
def setMsrc (s : State) (v : Nat) : State := setF (setF s F.CLK_STAT_MSRC v) F.CLK_STAT_TBSRC v

/-- The point the sequencer moves towards (R261, R269, R270). -/
def dvfsWant (s : State) : Nat :=
  if s.clk.toInt then 0 else min (min (effF s F.CLK_DVFS_TARGET) 5) s.clk.limit

/-- Whether the VCORE monitor, rail monitor 0, reads a point's voltage less 10 mV (R269, R405). -/
def vcoreReads (s : State) (p : Nat) : Bool := decide (pointV p - 10 ≤ getF s (F.MSR_RAIL_MV 0))

/-- A move starts from where the sequencer stands (R269, R270): voltage before frequency upward, frequency first downward; in
SVC only, not after WARN, and in a quiet window only a thermal step down. -/
def dvfsTry (s : State) : State :=
  let c := s.clk
  let b := dvfsWant s
  if cst s ≠ 3 ∨ c.moving ∨ c.stopped ∨ gated s ∨ (quiet s ∧ ¬ (isF s F.CLK_STAT_THERM ∧ pointM b < c.m)) then s
  else if c.m < pointM b then
    let up := vcoreReads s b
    emit (setClk s { c with moving := true, goal := b, volt := !up, m := if up then c.m + 1 else c.m, vcore := pointV b }) (.vout (pointV b))
  else if pointM b < c.m then setClk s { c with moving := true, goal := b, volt := false, m := c.m - 1 }
  else s

/-- SVC begins when SPLL has locked, the ramp has ended and SVC = 1 is in effect (R261). -/
def trySvc (s : State) : State :=
  if cst s = 2 ∧ effF s F.CLK_CTL_SVC = 1 ∧ isF s F.CLK_STAT_SPLL_LK ∧ s.clk.ramp = [] then
    let back := s.clk.svcBack
    let s1 := setClk (setF s F.CLK_STAT_CST 3) { s.clk with m := 8, svcBack := false, toInt := false }
    dvfsTry (if back then post s1 0x0501 0x41 (leBytes 4 (getF s1 F.CLK_HOLD_T_LAST)) else s1)
  else s

/-- TRO is ready (R255, R261). -/
def troReady (s : State) : State :=
  if s.supply.inReset ∨ isF s F.CLK_STAT_TRO_RDY ∨ 3 ≤ s.clk.troTries then s
  else
    let s1 := flag s F.CLK_STAT_TRO_RDY
    if cst s = 0 then push (setMsrc (setF s1 F.CLK_STAT_CST 1) 1) .start
    else if cst s = 1 ∨ cst s = 4 then setMsrc s1 1
    else s1

/-- XTAL is ready (R255). -/
def xtalReady (s : State) : State :=
  if s.supply.inReset ∨ effF s F.CLK_CFG_XTAL_EN = 0 ∨ isF s F.CLK_STAT_TRO_RDY = false then s
  else flag { s with clk := { s.clk with xtalGood := true } } F.CLK_STAT_XTAL_RDY

/-- XTO passes without XTAL (R255): ROOT starts on TRO. -/
def xtalTimeout (s : State) : State :=
  if s.supply.inReset ∨ isF s F.CLK_STAT_XTAL_RDY ∨ isF s F.CLK_STAT_ROOT_LK ∨ s.clk.onTro ∨ holding s then s
  else post (flag { s with clk := { s.clk with onTro := true } } F.CLK_ERR_XNS) 0x0502 0x41 []

/-- ROOT locks at a start (R256, R258, R261, R262): the dividers start at ROOT/40 and MCLK ramps to ROOT/10. -/
def rootLock (s : State) : State :=
  if cst s = 1 ∧ (s.clk.onTro ∨ isF s F.CLK_STAT_XTAL_RDY) then
    let s1 := setF (setF (flag s F.CLK_STAT_ROOT_LK) F.CLK_STAT_RREF (b2n s.clk.onTro)) F.CLK_STAT_CST 2
    push (setClk (setMsrc s1 2) { s.clk with ramp := [30, 20, 15, 12, 10] }) .start
  else s

/-- SPLL locks (R256, R261). -/
def spllLock (s : State) : State :=
  if cst s = 2 ∧ isF s F.CLK_STAT_ROOT_LK then trySvc (flag s F.CLK_STAT_SPLL_LK) else s

/-- A ramping divider moves one entry along its list (R259). -/
def rampDwell (s : State) : State :=
  match s.clk.ramp with
  | [] => s
  | _ :: r => trySvc (setClk s { s.clk with ramp := r })

/-- A pending change of ROOT's reference is made (R256, R260). -/
def referenceChange (s : State) : State :=
  let want := effF s F.CLK_SRC_RREF
  let ready := if want = 0 then isF s F.CLK_STAT_XTAL_RDY else isF s F.CLK_STAT_TRO_RDY
  if isF s F.CLK_STAT_PEND ∧ ready ∧ clocksRun s then setF (setF s F.CLK_STAT_PEND 0) F.CLK_STAT_RREF want else s

/-- CLOCK-HOLD is entered (R261, R265, R266): ramps, steps and pending changes are abandoned, the controller halts. -/
def enterHold (s : State) : State :=
  let s1 := setF (setF (setF (setF s F.CLK_STAT_ROOT_LK 0) F.CLK_STAT_SPLL_LK 0) F.CLK_STAT_PEND 0) F.CLK_STAT_CST 4
  let s2 := flag (setMsrc s1 (b2n (isF s F.CLK_STAT_TRO_RDY))) F.CLK_ERR_HOLD
  let s3 := setF s2 F.CLK_HOLD_T_COUNT (bump 0xFFFF (getF s2 F.CLK_HOLD_T_COUNT) 1)
  let s4 := setF s3 F.PMU_MCU_STATE 4
  setClk s4 { s.clk with ramp := [], moving := false, volt := false, m := 8, toInt := false, holdTb := s.tb,
                         svcBack := decide (cst s = 3 ∧ effF s F.CLK_CTL_SVC = 1) || s.clk.svcBack, mcu := getF s F.PMU_MCU_STATE }

/-- A ramp, a DVFS step or a change of ROOT's reference is under way; a trip then abandons it and HOLD applies, whichever monitor tripped
(R265; log entry 125). -/
def clkBusy (s : State) : Bool := isF s F.CLK_STAT_RAMP || isF s F.CLK_STAT_PEND

/-- RMON trips (R263, R265). -/
def rmonTrip (s : State) : State :=
  let s1 := post (flag s F.CLK_ERR_RMON) 0x0500 0x41 (b1 2 ++ b1 (cst s))
  if clocksRun s1 then enterHold s1 else s1

/-- XMON trips (R263, R265). -/
def xmonTrip (s : State) : State :=
  let s1 := post (flag s F.CLK_ERR_XMON) 0x0500 0x41 (b1 0 ++ b1 (cst s))
  let s2 := setF { s1 with clk := { s1.clk with xtalGood := false } } F.CLK_STAT_XTAL_RDY 0
  if clocksRun s2 ∧ (getF s2 F.CLK_STAT_RREF = 0 ∨ clkBusy s2) then enterHold s2 else s2

/-- TMON trips (R263, R265): TRO restarts, and RMON trips at once while ROOT runs from it. -/
def tmonTrip (s : State) : State :=
  let s1 := post (flag s F.CLK_ERR_TMON) 0x0500 0x41 (b1 1 ++ b1 (cst s))
  let s2 := setF (setF s1 F.CLK_STAT_TRO_RDY 0) F.CLK_STAT_TRIMMED 0
  let s3 := if isF s F.CLK_STAT_TRO_RDY then { s2 with clk := { s2.clk with troTries := 1 } } else s2
  let s4 := if getF s3 F.CLK_STAT_MSRC = 1 then setMsrc s3 0 else s3
  if clocksRun s4 ∧ getF s4 F.CLK_STAT_RREF = 1 then rmonTrip s4
  else if clocksRun s4 ∧ clkBusy s4 then enterHold s4
  else s4

/-- TRO is not ready 200 µs after a restart (R265): restarted once more, and failed after that. -/
def troRestart (s : State) : State :=
  if isF s F.CLK_STAT_TRO_RDY = false ∧ s.clk.troTries = 1 ∧ s.supply.inReset = false then { s with clk := { s.clk with troTries := 2 } } else s

/-- CLOCK-HOLD ends (R267): ROOT on a reference, every divider from ROOT/40 to its target. -/
def leaveHold (s : State) (onTro : Bool) : State :=
  let us := min 0xFFFF (((s.tb - s.clk.holdTb).toNat + 99) / 100)
  let s1 := setF (setF (setF s F.CLK_STAT_CST 2) F.CLK_STAT_RREF (b2n onTro)) F.CLK_STAT_ROOT_LK 1
  let s2 := setF (setF (setMsrc s1 2) F.CLK_HOLD_T_LAST us) F.PMU_MCU_STATE s.clk.mcu
  push (setClk s2 { s2.clk with ramp := [30, 20, 15, 12, 10, 8, 6, 5] }) .start

def holdEnd (s : State) : State :=
  if holding s ∧ isF s F.CLK_STAT_TRO_RDY then leaveHold s (!s.clk.xtalGood) else s

/-- HOLD ends on XTAL after both starts of TRO failed (R267). -/
def troFailedHoldEnd (s : State) : State :=
  if holding s ∧ isF s F.CLK_STAT_TRO_RDY = false ∧ s.clk.troTries = 2 ∧ s.clk.xtalGood then
    let s1 := leaveHold s false
    post { s1 with clk := { s1.clk with troTries := 3 } } 0x0508 0x41 (leBytes 4 (getF s1 F.CLK_HOLD_T_LAST))
  else s

/-- A trim starts (R257); ignored while one runs. -/
def trimStart (s : State) : State :=
  if isF s F.CLK_TRIM_STAT_BUSY then s
  else flag { s with clk := { s.clk with trimPass := 0, trimOld := BitVec.ofNat 12 (getF s F.CLK_TRIM_CODE) } } F.CLK_TRIM_STAT_BUSY

def trimAuto (s : State) : State := if isF s F.CLK_TRIM_AUTO then trimStart s else s

/-- A trim fails (R257): CODE as it was before. -/
def trimFail (s : State) : State :=
  flag (setF (setF s F.CLK_TRIM_STAT_BUSY 0) F.CLK_TRIM_CODE s.clk.trimOld.toNat) F.CLK_TRIM_STAT_FAIL

/-- A trim succeeds (R257): the readings at the trim are kept. -/
def trimGood (s : State) : State :=
  let taken := (List.range 8).filter (fun k => isF s (F.MSR_TEMP_VALID k))
  let temps := taken.map (fun k => (k, BitVec.ofNat 12 (getF s (F.MSR_TEMP_TEMP k))))
  let s1 := setF { s with clk := { s.clk with trimTemp := temps } } F.CLK_TRIM_STAT_BUSY 0
  flag (flag s1 F.CLK_STAT_TRIMMED) F.CLK_TRIM_STAT_DONE

/-- A pass of a trim ends (R257): the error in units of 10 ppm. The CODE that a pass sets is a free value (log entry 17). -/
def trimPassEnd (s : State) (p : TrimPass) : State :=
  if isF s F.CLK_TRIM_STAT_BUSY = false then s
  else
    let e := p.err.toInt.natAbs
    let n := s.clk.trimPass + 1
    let s1 := if n = 1 then setF s F.CLK_TRIM_STAT_ERR p.err.toNat else s
    if 5120 < e then trimFail s1
    else if e ≤ 2 then trimGood s1
    else
      let s2 := setF (freshen s1) F.CLK_TRIM_CODE (Config.freeWord s1.fresh).toNat
      if n < 8 then { s2 with clk := { s2.clk with trimPass := n } }
      else if e ≤ 100 then trimGood s2 else trimFail s2

def trimTimeout (s : State) : State := if isF s F.CLK_TRIM_STAT_BUSY then trimFail s else s

/-- The VCORE monitor reads the requested voltage (R269): M starts stepping. -/
def vcoreReached (s : State) : State :=
  let c := s.clk
  if c.moving ∧ c.volt then
    if c.stopped then setClk s { c with moving := false, volt := false }
    else setClk s { c with volt := false, m := c.m + 1 }
  else s

/-- VCORE is not reached within 200 µs (R269). The record names the point the move was for. -/
def voltageTimeout (s : State) : State :=
  let c := s.clk
  if c.moving ∧ c.volt then
    post (flag (setClk s { c with moving := false, volt := false }) F.CLK_ERR_VTO) 0x0503 0x41 (b1 c.goal)
  else s

/-- INT is entered from SVC once DVFS stands at OP0 (R261). -/
def svcOff (s : State) : State :=
  if s.clk.toInt ∧ cst s = 3 ∧ s.clk.moving = false ∧ s.clk.m = 8 then
    setClk (setF s F.CLK_STAT_CST 2) { s.clk with toInt := false }
  else s

/-- SPLL has reached the M of a point: the move ends, and VCORE falls to the point's (R269). -/
def dvfsArrive (s : State) (b : Nat) : State :=
  let c := s.clk
  svcOff (if pointV b < c.vcore then emit (setClk s { c with moving := false, vcore := pointV b }) (.vout (pointV b))
    else setClk s { c with moving := false })

/-- DWELL passes in a move (R198, R269, R270); a new target takes effect here, from where the sequencer stands. -/
def dvfsMStep (s : State) : State :=
  let c := s.clk
  let b := dvfsWant s
  if c.moving = false ∨ c.volt then s
  else if c.stopped ∨ gated s then setClk s { c with moving := false }
  else if c.m = pointM b then dvfsArrive s b
  else if b ≠ c.goal then dvfsTry (setClk s { c with moving := false })
  else if c.m < pointM b then setClk s { c with m := c.m + 1 }
  else setClk s { c with m := c.m - 1 }

/-- 1 ms passes under or after the thermal limit (R270). -/
def thermalStep (s : State) : State :=
  if isF s F.CLK_STAT_THERM then dvfsTry { s with clk := { s.clk with limit := pointOf s.clk.m - 1 } }
  else if s.clk.limit < 5 then dvfsTry { s with clk := { s.clk with limit := s.clk.limit + 1 } }
  else s

/-- WARN stops the sequencer (R198, R270). -/
def dvfsWarn (s : State) : State :=
  let c := s.clk
  setClk s { c with stopped := true, moving := c.moving && !c.volt, volt := false }

/-- The quarter degrees of a sensor (R393). -/
def tempOf (s : State) (k : Nat) : Int := (BitVec.ofNat 12 (getF s (F.MSR_TEMP_TEMP k))).toInt

/-- A thermal sensor is sampled (R217, R257, R270, R391). -/
def sensorSample (s : State) (w : Sensor) (t : BitVec 12) : State :=
  match w with
  | .hub c i =>
    let x := chan s c
    let rest := x.hot.filter (fun j => decide (j ≠ i.toNat))
    let hot := if 340 < t.toInt then rest ++ [i.toNat] else rest
    setF (setChan s c { x with hot := hot }) (F.MCH_STAT_REF2X c) (b2n (decide (hot ≠ [])))
  | .die k =>
    let s1 := setF (setF s (F.MSR_TEMP_TEMP k) t.toNat) (F.MSR_TEMP_VALID k) 1
    let taken := (List.range 8).filter (fun j => isF s1 (F.MSR_TEMP_VALID j))
    let lim : Int := 4 * effF s1 F.CLK_DVFS_TLIM
    let hys : Int := 4 * effF s1 F.CLK_DVFS_THYS
    let far := s1.clk.trimTemp.any (fun e => decide (160 < (tempOf s1 e.1 - e.2.toInt).natAbs))
    let s2 := if far then setF s1 F.CLK_STAT_TRIMMED 0 else s1
    if taken.any (fun j => decide (lim ≤ tempOf s2 j)) then
      if isF s2 F.CLK_STAT_THERM then s2
      else refreshErr (flag { s2 with clk := { s2.clk with limit := pointOf s2.clk.m } } F.CLK_STAT_THERM)
    else if taken.all (fun j => decide (tempOf s2 j < lim - hys)) ∧ isF s2 F.CLK_STAT_THERM then
      refreshErr (setF s2 F.CLK_STAT_THERM 0)
    else s2

/-- The limit of a rail monitor in mV (R397): monitors 0 and 7 follow VCORE's request. -/
def railLimit (s : State) (k : Nat) : Nat :=
  if k = 0 ∨ k = 7 then s.clk.vcore - 50 else [0, 740, 1660, 1020, 790, 1110, 930].getD k 0

/-- A rail monitor is sampled (R391) and compared with its limit (R397); a start may wait until every monitor reads good (R399). -/
def railSample (s : State) (k : Nat) (mv : BitVec 14) : State :=
  let rest := s.supply.low.filter (fun j => decide (j ≠ k))
  let low := if mv.toNat < railLimit s k then rest ++ [k] else rest
  let s1 := setF { s with supply := { s.supply with low := low } } (F.MSR_RAIL_MV k) mv.toNat
  if s.supply.railWait ∧ low = [] then push s1 .start else s1

/-- The class S fields of the CLK block and its clock enables take effect (R260, R261, R269, R271). -/
def commitClk (s : State) : State :=
  let s1 := setEff (setEff (setEff s R.CLK_CTL (raw s R.CLK_CTL)) R.CLK_CFG (raw s R.CLK_CFG)) R.CLK_DVFS (raw s R.CLK_DVFS)
  let want := getF s1 F.CLK_SRC_RREF
  let ready := if want = 0 then isF s1 F.CLK_STAT_XTAL_RDY else isF s1 F.CLK_STAT_TRO_RDY
  let s2 := if want = getF s1 F.CLK_STAT_RREF then setF (setEff s1 R.CLK_SRC (raw s1 R.CLK_SRC)) F.CLK_STAT_PEND 0
    else if isF s1 F.CLK_CFG_COMPAT ∧ ready = false then flag s1 F.CLK_ERR_SWREF
    else flag (setEff s1 R.CLK_SRC (raw s1 R.CLK_SRC)) F.CLK_STAT_PEND
  let s3 := commitEnables s2
  let s4 := if effF s3 F.CLK_CTL_SVC = 1 then trySvc { s3 with clk := { s3.clk with toInt := false } }
    else { s3 with clk := { s3.clk with toInt := decide (cst s3 = 3), svcBack := false } }
  svcOff (dvfsTry s4)

end Sys2Proof.Machine
end

