-- ==== Sys2Proof/Machine/Msr.lean ====
section
/-! DEFINITION. The measurement unit: snapshots, event selection, the copies that index writes take, and the wear it reports
(R389–R393). -/

namespace Sys2Proof.Machine

/-- A snapshot (R392): every counter, histogram, sensor and rail reading into the latched set, with its stamp. -/
def msrSnapshot (s : State) : State :=
  let m : Msr := { lctr := s.slices.map (fun e => (e.1, e.2.ctr)), lhist := s.ports.map (fun e => (e.1, e.2.histo)),
                   ltemps := (List.range 8).map (fun k => (k, BitVec.ofNat 12 (getF s (F.MSR_TEMP_TEMP k)))),
                   lrails := (List.range 8).map (fun k => (k, BitVec.ofNat 14 (getF s (F.MSR_RAIL_MV k)))) }
  let s1 := setPair { s with msr := m } R.MSR_SNAP_T_LO R.MSR_SNAP_T_HI s.tb
  let s2 := wr s1 R.MSR_SNAP_PH (phaseWord s)
  setF s2 F.MSR_SNAP_SEQ_COUNT (getF s2 F.MSR_SNAP_SEQ_COUNT + 1)

/-- Every live counter and histogram cleared (R393). -/
def msrClear (s : State) : State :=
  { s with slices := s.slices.map (fun e => (e.1, { e.2 with ctr := [] })), ports := s.ports.map (fun e => (e.1, { e.2 with histo := [] })) }

/-- A write of MSR_CTL (R392): the snapshot before the clear. -/
def msrCtl (s : State) (w : Word) : State :=
  let s1 := if bit w 0 then msrSnapshot s else s
  if bit w 1 then msrClear s1 else s1

/-- A write of MSR_EVSEL_k clears counter k in every slice (R389). -/
def msrEvsel (s : State) (k : Nat) (w : Word) : State :=
  let s1 := setF s (F.MSR_EVSEL_EV k) (bits w 0 5)
  { s1 with slices := s1.slices.map (fun e => (e.1, { e.2 with ctr := nerase e.2.ctr k })) }

/-- A write of MSR_HCFG clears every histogram (R390). -/
def msrHcfg (s : State) (w : Word) : State :=
  let s1 := setF (setF s F.MSR_HCFG_BASE (bits w 0 8)) F.MSR_HCFG_BINW (bits w 8 8)
  { s1 with ports := s1.ports.map (fun e => (e.1, { e.2 with histo := [] })) }

/-- A write of MSR_CIDX copies the selected counter (R389, R392). -/
def msrCidx (s : State) (w : Word) : State :=
  let n := bits w 0 5
  let k := bits w 8 3
  let c := if bit w 12 then (nget s.msr.lctr n).getD [] else (slice s n).ctr
  let v := (nget c k).getD 0
  let s1 := setF (setF (setF s F.MSR_CIDX_SLICE n) F.MSR_CIDX_CNT k) F.MSR_CIDX_LATCH (bits w 12 1)
  setF (setF s1 F.MSR_CNT_LO_COUNT v) F.MSR_CNT_HI_COUNT (v >>> 32)

/-- A write of MSR_HIDX copies the selected bin (R390, R392); ports 6 and 7 read 0. -/
def msrHidx (s : State) (w : Word) : State :=
  let p := bits w 0 3
  let b := bits w 8 4
  let h := if bit w 12 then (nget s.msr.lhist p).getD [] else (port s p).histo
  let s1 := setF (setF (setF s F.MSR_HIDX_PORT p) F.MSR_HIDX_BIN b) F.MSR_HIDX_LATCH (bits w 12 1)
  setF s1 F.MSR_HDAT_COUNT (if p < 6 then (nget h b).getD 0 else 0)

/-- SLCK cycles of a tick of TBASE (R256, R258): M in SVC, 8 in integer mode; an open value while a ramp runs. -/
def slckPerTick (s : State) : Nat :=
  if s.clk.ramp ≠ [] then (Config.freeWord s.fresh).toNat else if cst s = 3 then s.clk.m else if cst s = 2 then 8 else 0

/-- A tick of TBASE counts SLCK cycles in every slice that runs (R389). -/
def msrTick (s : State) : State :=
  let k := slckPerTick s
  let s1 := (List.range 32).foldl (fun s n => if sliceUp s n then
    (let t := countBy s n 0 k
     if quiet s then countBy t n 13 k else t) else s) s
  if s.clk.ramp ≠ [] then freshen s1 else s1

end Sys2Proof.Machine
end

