-- ==== Sys2Proof/Machine/Phase.lean ====
section
/-! DEFINITION. The phase unit: boundaries, period and phase, its states, the event slots and the quiet window (R241–R254). -/

namespace Sys2Proof.Machine

/-- PHU_STAT.STATE: 0 DISABLED, 1 ACQUIRE, 2 LOCKED, 3 COAST, 4 LOST (R246). -/
def phuState (s : State) : Nat := getF s F.PHU_STAT_STATE
def phuFires (s : State) : Bool := decide (phuState s = 2 ∨ phuState s = 3)

/-- The mode in effect; 3 is taken as 0 (R242). -/
def phuMode (s : State) : Nat := if effF s F.PHU_CTL_MODE = 3 then 0 else effF s F.PHU_CTL_MODE

/-- P, the counts of a revolution and the tolerance (R243, R245). -/
def period (s : State) : Nat := getF s F.PHU_PERIOD_PERIOD
def cpr (s : State) : Nat := effF s F.PHU_CNT_CPR_M1 + 1
def tol (s : State) (p : Nat) : Nat := p >>> effF s F.PHU_CFG_TOL

/-- The time of an edge accepted now (R241): that of its first sample at the new level, FILT ticks ago. -/
def edgeTb (s : State) : BitVec 64 := s.tb - BitVec.ofNat 64 (effF s F.PHU_CFG_FILT)

/-- The ticks from the last boundary to an edge accepted now; 0 for an edge that lies before that boundary. -/
def edgeAfter (s : State) : Nat := (edgeTb s).toNat - s.phu.lastTb.toNat

/-- An interval within [PMIN, PMAX] (R243). -/
def inLimits (s : State) (iv : Nat) : Bool :=
  decide (effF s F.PHU_PLIM_PMIN * 100 ≤ iv) && decide (iv ≤ effF s F.PHU_PLIM_PMAX * 100000)

/-- The fraction that time gives (R244): from the last boundary or line on, at the pace of P, held at 0xFFFF. -/
def timeFrac (s : State) : Nat :=
  if period s = 0 then s.phu.frac.toNat
  else min (s.phu.base + 65536 * (s.tb - s.phu.baseTb).toNat / period s) 0xFFFF

/-- The phase moves with time (R244, R246): in LOCKED but for QUAD, and in COAST. -/
def phaseTick (s : State) : State :=
  if phuState s = 3 ∨ (phuState s = 2 ∧ phuMode s ≠ 1) then { s with phu := { s.phu with frac := BitVec.ofNat 16 (timeFrac s) } } else s

/-- Whether apply boundaries fall on the 1 ms tick, PHU_STAT.FALLBACK (R246, R251). -/
def fallback (s : State) : Bool :=
  !(phuFires s && (List.range 32).any (fun k => decide (effF s (F.PHU_SLOT_EN k) = 1) && decide (effF s (F.PHU_SLOT_ACT k) = 3)))

/-- What waited for the quiet window to close goes on (R250). -/
def quietEnds (s : State) : State :=
  let s1 := (List.range 32).foldl (fun s n => if sliceUp s n then push s (.tend n) else s) s
  let s2 := (List.range 4).foldl (fun s k => push s (.mop k)) s1
  push (dvfsTry (ckptWalk s2)) .start

/-- The quiet window opens, in LOCKED and COAST only, and closes (R250). -/
def openQuiet (s : State) : State := if phuFires s ∧ quiet s = false then flag s F.PHU_STAT_QW else s
def closeQuiet (s : State) : State := if quiet s then quietEnds (setF s F.PHU_STAT_QW 0) else s

/-- Record 0x0507 of a slot (R249, R306). -/
def slotRecord (s : State) (k act : Nat) : State := post s 0x0507 0x43 (b1 k ++ b1 act)

/-- A slot's action (R249); a checkpoint and a snapshot are not performed from WARN on. -/
def slotAct (s : State) (k : Nat) : State :=
  match effF s (F.PHU_SLOT_ACT k) with
  | 1 => openQuiet s
  | 2 => closeQuiet s
  | 3 => push s .boundary
  | 4 => if gated s then s else ckptStart s
  | 5 => if gated s then s else push (slotRecord (msrSnapshot s) k 5) .tpdo
  | 6 => slotRecord s k 6
  | _ => s

/-- A slot fires and is disarmed (R248). -/
def fireSlot (s : State) (k : Nat) : State :=
  slotAct { s with phu := { s.phu with armed := s.phu.armed.filter (fun j => decide (j ≠ k)) } } k

/-- Whether an armed slot has been reached (R248): the fraction is at or past POS and, while the position gives the fraction, forward
counting has passed it. -/
def slotReached (s : State) (k : Nat) : Bool :=
  decide (effF s (F.PHU_SLOT_POS k) ≤ s.phu.frac.toNat) && (decide (phuState s ≠ 2 ∨ phuMode s ≠ 1) || s.phu.passed.contains k)

/-- A slot with an action falls due (R248): armed and reached. -/
def slotDue (s : State) (k act : Nat) : State :=
  if phuFires s ∧ s.phu.armed.contains k ∧ effF s (F.PHU_SLOT_ACT k) = act ∧ slotReached s k then fireSlot s k
  else s

/-- The slots still armed when a boundary arrives, by POS and number, fire before it (R248). -/
def fireLeft (s : State) : State :=
  let order := s.phu.armed.mergeSort (fun a b => decide (effF s (F.PHU_SLOT_POS a) < effF s (F.PHU_SLOT_POS b)
    ∨ (effF s (F.PHU_SLOT_POS a) = effF s (F.PHU_SLOT_POS b) ∧ a ≤ b)))
  order.foldl fireSlot s

/-- The slots that a cycle arms (R248). -/
def armedBy (s : State) (c : Nat) : List Nat :=
  (List.range 32).filter (fun k => decide (effF s (F.PHU_SLOT_EN k) = 1) && decide (c % 2 ^ effF s (F.PHU_SLOT_DIV k) = 0))

/-- A cycle begins at a time (R244, R248): the count advances, the fraction is 0, the slots are armed, and those at 0 are passed. -/
def newCycle (s : State) (c : BitVec 16) (real : Bool) (at' : BitVec 64) : State :=
  let arm := armedBy s c.toNat
  { s with phu := { s.phu with cycle := c, frac := 0, base := 0, baseTb := at', lastTb := at', lastReal := real, armed := arm,
                               passed := arm.filter (fun k => decide (effF s (F.PHU_SLOT_POS k) = 0)) } }

/-- The unit accepts no boundary while TBASE advances from KEEP (R268); edges and counts go on. -/
def deaf (s : State) : Bool := decide (getF s F.CLK_STAT_TBSRC = 0)

/-- A real boundary while the unit seeks lock, in ACQUIRE or LOST (R243, R247). -/
def seekBoundary (s : State) : State :=
  let iv := edgeAfter s
  let s0 := { s with phu := { s.phu with started := true, lastTb := edgeTb s, lastReal := true, lineIx := 0 } }
  if s.phu.started = false then s0
  else if inLimits s iv = false then { s0 with phu := { s0.phu with ivals := 0 } }
  else
    let p := period s
    let near := s.phu.ivals ≠ 0 ∧ p ≤ iv + tol s p ∧ iv ≤ p + tol s p
    let n := if near then s.phu.ivals + 1 else 1
    let s1 := setF { s0 with phu := { s0.phu with ivals := n } } F.PHU_PERIOD_PERIOD iv
    if n < effF s F.PHU_CFG_LOCK_N then s1
    else
      let c := if phuState s = 4 then s.phu.cycle + 1 else 0
      newCycle (setF (setF { s1 with phu := { s1.phu with coasted := 0 } } F.PHU_STAT_STATE 2) F.PHU_STAT_MISS 0) c true (edgeTb s)

/-- A real boundary that is accepted in LOCKED or COAST (R243, R247). -/
def realBoundary (s : State) : State :=
  let iv := edgeAfter s
  let s1 := fireLeft s
  let s2 := if s.phu.lastReal ∧ inLimits s iv then setF s1 F.PHU_PERIOD_PERIOD iv else s1
  newCycle (setF (setF { s2 with phu := { s2.phu with coasted := 0, lineIx := 0 } } F.PHU_STAT_STATE 2) F.PHU_STAT_MISS 0)
    (s.phu.cycle + 1) true (edgeTb s)

/-- A boundary of PULSE or LINE mode (R243, R247): judged by its window, and ignored where it is no real boundary. An interval outside
[PMIN, PMAX] is none. -/
def timedBoundary (s : State) : State :=
  if deaf s then s
  else if phuState s = 1 ∨ phuState s = 4 then seekBoundary s
  else if phuFires s then
    let e := edgeAfter s
    let p := period s
    if e + tol s p < p then flag s F.PHU_ERR_EARLY
    else if p + tol s p < e ∨ (s.phu.lastReal ∧ inLimits s e = false) then s
    else realBoundary s
  else s

/-- A pulse of LINE mode (R244): line `i` raises the fraction; without ZEN every LPC-th is a boundary, and one that is ignored is not
counted. -/
def lineEdge (s : State) : State :=
  let lpc := effF s F.PHU_CNT_LPC
  let i := s.phu.lineIx + 1
  let raise := fun (s : State) (i : Nat) =>
    let f := 65536 * i / lpc
    if phuFires s ∧ s.phu.frac.toNat < f ∧ f < 65536 then
      { s with phu := { s.phu with frac := BitVec.ofNat 16 f, base := f, baseTb := edgeTb s, lineIx := i } }
    else { s with phu := { s.phu with lineIx := i } }
  if effF s F.PHU_CTL_ZEN = 1 then raise s i
  else if lpc ≤ i then timedBoundary s
  else raise s i

/-- An accepted edge of PHASE_A (R242, R244): the edge POL names in PULSE mode, a rising edge in LINE mode (log entry 18). -/
def phaseA (s : State) (rising : Bool) : State :=
  if phuState s = 0 then s
  else match phuMode s with
    | 0 => if rising = decide (effF s F.PHU_CTL_POL = 0) then timedBoundary s else s
    | 2 => if rising then lineEdge s else s
    | _ => s

/-- The fraction of the position count (R245). -/
def quadFrac (s : State) : State :=
  if phuState s = 2 then { s with phu := { s.phu with frac := BitVec.ofNat 16 (65536 * s.phu.q / cpr s) } } else s

/-- LOCKED goes to COAST at the second consecutive miss (R247). -/
def miss (s : State) : State :=
  let n := min 2 (getF s F.PHU_STAT_MISS + 1)
  let s1 := setF (flag s F.PHU_ERR_MISS) F.PHU_STAT_MISS n
  if n < 2 then s1
  else post (flag (setF { s1 with phu := { s1.phu with coasted := 0 } } F.PHU_STAT_STATE 3) F.PHU_ERR_COAST) 0x0506 0x43 (b1 3)

/-- A miss of QUAD mode makes no boundary; on entering COAST the last period runs on from there (R246, R247). -/
def quadMiss (s : State) : State :=
  if phuState s = 2 then
    let s1 := miss s
    if phuState s1 = 3 then { s1 with phu := { s1.phu with lastTb := s.tb, base := s.phu.frac.toNat, baseTb := s.tb, lastReal := false } } else s1
  else s

/-- A PHASE_Z edge of QUAD mode (R245). Moving forward it is the cycle boundary; where the interval to the real boundary before it lies
outside [PMIN, PMAX] it is a fault instead, a miss (R243, R247; log entry 62). -/
def quadZ (s : State) : State :=
  if isF s F.PHU_STAT_REV then
    let s1 := { s with phu := { s.phu with q := cpr s - 1, cycle := if phuFires s then s.phu.cycle - 1 else s.phu.cycle } }
    quadFrac s1
  else if deaf s then s
  else
    let far := 2 < s.phu.q ∧ s.phu.q + 2 < cpr s
    let s1 := if far then flag s F.PHU_ERR_ZMIS else s
    let s2 := { s1 with phu := { s1.phu with q := 0 } }
    if phuState s2 = 1 ∨ phuState s2 = 4 then seekBoundary s2
    else if phuFires s2 = false then s2
    else if s2.phu.lastReal ∧ inLimits s2 (edgeAfter s2) = false then
      quadMiss (quadFrac { s2 with phu := { s2.phu with lastTb := edgeTb s2 } })
    else realBoundary s2

/-- An accepted edge of PHASE_Z (R242, R245). -/
def phaseZ (s : State) (rising : Bool) : State :=
  if phuState s = 0 ∨ rising = false then s
  else match phuMode s with
    | 1 => quadZ s
    | 2 => if effF s F.PHU_CTL_ZEN = 1 then timedBoundary s else s
    | _ => s

/-- The armed slots that a forward count from one fraction to the next passes (R248). -/
def quadPass (s0 s : State) : State :=
  let f := s.phu.frac.toNat
  let from' := if f < s0.phu.frac.toNat then 0 else s0.phu.frac.toNat + 1
  { s with phu := { s.phu with passed := s.phu.passed ++ s.phu.armed.filter (fun k =>
    decide (from' ≤ effF s (F.PHU_SLOT_POS k) ∧ effF s (F.PHU_SLOT_POS k) ≤ f) && !(s.phu.passed.contains k)) } }

/-- A count of the quadrature decoder (R245, R247). After an illegal transition no interval counts towards lock before the next
boundary. -/
def quadCount (s : State) (c : Quad) : State :=
  if phuMode s ≠ 1 ∨ phuState s = 0 then s
  else match c with
    | .illegal => flag { s with phu := { s.phu with ivals := 0, started := false } } F.PHU_ERR_QILL
    | .forward =>
      let wraps := cpr s ≤ s.phu.q + 1
      let s1 := setF { s with phu := { s.phu with q := if wraps then 0 else s.phu.q + 1 } } F.PHU_STAT_REV 0
      let s2 := quadPass s (quadFrac s1)
      if wraps then quadMiss s2 else s2
    | .reverse =>
      quadFrac (flag { s with phu := { s.phu with q := if s.phu.q = 0 then cpr s - 1 else s.phu.q - 1 } } F.PHU_STAT_REV)

/-- The window closes without a real boundary (R247): a coasted boundary, and COAST or LOST in their turn. -/
def coastedBoundary (s : State) : State :=
  let s0 := fireLeft { s with phu := { s.phu with lineIx := 0 } }
  if phuState s = 2 ∧ phuMode s ≠ 1 then miss (newCycle s0 (s.phu.cycle + 1) false s.tb)
  else if phuState s = 3 then
    let n := s.phu.coasted + 1
    let s1 := newCycle s0 (s.phu.cycle + 1) false s.tb
    let s2 := { s1 with phu := { s1.phu with coasted := n } }
    if n < effF s F.PHU_CFG_COAST_N then s2
    else
      let s3 := flag (setF { s2 with phu := { s2.phu with armed := [], started := false, ivals := 0 } } F.PHU_STAT_STATE 4) F.PHU_ERR_LOST
      closeQuiet (post s3 0x0506 0x43 (b1 4))
  else s

/-- No edge for a time P in QUAD mode (R247). -/
def quadStill (s : State) : State := if phuMode s = 1 then quadMiss s else s

/-- The quiet window reaches its longest (R250). -/
def quietMax (s : State) : State := if quiet s then closeQuiet (flag s F.PHU_ERR_QW_OVR) else s

end Sys2Proof.Machine
end

