-- ==== Sys2Proof/Machine/Apply.lean ====
section
/-! DEFINITION. When written values take effect: apply boundaries, commits, the refusals of blocks, and the global mode change
(R8, R32, R37, R89, R163, R172, R193, R238, R271, R280, R283, R297–R302, R304). -/

namespace Sys2Proof.Machine

/-- A word whose fields of one class take the written values, each kept to its range (R8; log entry 31). -/
def takeWord (r : RegRow) (app : App) (old new : Word) : Word :=
  r.flds.foldl (fun w f => if f.app = app then putBits w f.lo f.w (f.clip (bits new f.lo f.w)) else w) old

/-- The offsets of a row's registers. -/
def rowOffs (base : Nat) (r : RegRow) : List Nat := (List.range r.count).map (fun i => base + r.off + i * r.stride)

/-- The rows of a block with a field of a class. -/
def rowsWith (b : Blk) (app : App) : List RegRow := (rowsOf b).filter (fun r => r.flds.any (fun f => decide (f.app = app)))

/-- Every field of a class of a block takes its written value (R297, R298). -/
def takeBlock (s : State) (b : Blk) (base : Nat) (app : App) : State :=
  (rowsWith b app).foldl (fun s r => (rowOffs base r).foldl (fun s o => setEff s o (takeWord r app (effWord s o) (raw s o))) s) s

/-- Whether a block has a written value of a class that is not in effect. -/
def blockDiffers (s : State) (b : Blk) (base : Nat) (app : App) : Bool :=
  (rowsWith b app).any (fun r => (rowOffs base r).any (fun o => decide (takeWord r app (effWord s o) (raw s o) ≠ effWord s o)))

/-- A commit of the PHU block that changes a field of class S (R252): back to ACQUIRE or DISABLED, the window closed. -/
def commitPhu (s : State) : State :=
  if blockDiffers s .phu 0x50000 .s = false then s
  else
    let s1 := closeQuiet (takeBlock s .phu 0x50000 .s)
    let s2 := setF (setF (setF s1 F.PHU_STAT_STATE (effF s1 F.PHU_CTL_EN)) F.PHU_STAT_MISS 0) F.PHU_STAT_QW 0
    { s2 with phu := { staged := s.phu.staged } }

/-- The words of the block that an apply boundary takes: those written before it (R252, R297). -/
def stagePhu (s : State) : State :=
  { s with phu := { s.phu with staged := (rowsWith .phu .p).foldl (fun m r => (rowOffs 0x50000 r).foldl (fun m o => nset m o (raw s o)) m) [] } }

/-- The values that an apply boundary took act from the tick after it on (R252). -/
def takePhu (s : State) : State :=
  (rowsWith .phu .p).foldl (fun s r => (rowOffs 0x50000 r).foldl (fun s o => match nget s.phu.staged o with
    | some w => { setEff s o (takeWord r .p (effWord s o) w) with phu := { s.phu with staged := nerase s.phu.staged o } }
    | none => s) s) s

/-- Whether the block at an offset is on and clocked (R298). -/
def blockUp (s : State) (base : Nat) : Bool :=
  (match domainAt base with
    | none => true
    | some d => pdOn s d) && clockAt s base

/-- A notice's threshold took effect (R304): a level above it latches at once. -/
def floatApply (s : State) (f : Float) (level : Nat) : State :=
  if effF s f.thresh * f.scale < level ∧ isF s f.latched = false then floatRaise (floatLatch s f) f else s

/-- The persistent dirty lines and the owned PMEM lines of the device (R173, R176). -/
def pdqLevel (s : State) : Nat := sumOf (s.slices.map (fun e => pdirty e.2))
def ownLevel (s : State) : Nat := sumOf (s.slices.map (fun e => ownAll e.2))

/-- Whether a slice's written allotment set waits for its boundary (R89): one whose values are those in effect changes nothing, and the model takes it
as no set that waits (log entry 106). -/
def allotPends (s : State) (n : Nat) : Bool := sliceUp s n && (allotRegs n).any (fun o => decide (raw s o ≠ effWord s o))

/-- A set is rejected and dropped (R89). -/
def rejectAllot (s : State) (n cause : Nat) : State :=
  let s1 := (allotRegs n).foldl (fun s o => wr s o (effWord s o)) s
  let s2 := setF (setF (flag s1 (F.SLC_ERR_ACFG n)) (F.SLC_ERR_ACFG_CAUSE n) cause) (F.SLC_STAT_APEND n) 0
  post s2 0x0105 n (b1 cause)

/-- A set takes effect (R89). -/
def takeAllot (s : State) (n : Nat) : State :=
  push (setF ((allotRegs n).foldl (fun s o => setEff s o (raw s o)) s) (F.SLC_STAT_APEND n) 0) (.tend n)

/-- The requesters that hold a copy of the home table and can acknowledge: those whose domain is on (R13, R300). -/
def requesters (s : State) : List Participant :=
  ((List.range 6).filter (fun p => blockUp s (0x300000 + p * 0x10000))).map (fun p => .port (Fin.ofNat 6 p))
    ++ ((List.range 3).filter (fun l => blockUp s (0x380000 + l * 0x10000))).map (fun l => .link (Fin.ofNat 3 l))
    ++ (if blockUp s 0xC0000 then [.host] else []) ++ [.dict, .mop, .pump, .priming]

/-- PREPARE goes out (R301). -/
def openMode (s : State) (dir : Bool) (slices lost : List Nat) : State :=
  let e := (getF s F.CFG_EPOCH_EPOCH + 1) % 256
  setF { s with mode := some { dir := dir, left := requesters s ++ slices.map (fun n => .slice (Fin.ofNat 32 n)), slices := slices, epoch := e, lost := lost } }
    F.CFG_COMMIT_STAT_PHASE 1

/-- Allotment sets fall due (R89, R300): one at once, several as a global mode change; they wait while a window is open. -/
def applyAllots (s : State) : State :=
  if s.mode.isSome ∨ gated s then s
  else match (List.range 32).filter (allotPends s) with
    | [] => s
    | [n] => let c := allotCause n (raw s)
             if c = 0 then takeAllot s n else rejectAllot s n c
    | ns => openMode s false ns []

/-- TRIM_STOP kept below the TRIM applied with it (R191). -/
def clampTrim (s : State) : State :=
  let v := min (effF s F.PMP_OWNQ_TRIM_STOP) (effF s F.PMP_OWNQ_TRIM - 1)
  let s1 := if effF s F.PMP_OWNQ_TRIM_STOP = v then s else setF s F.PMP_OWNQ_TRIM_STOP v
  setEff s1 R.PMP_OWNQ (putBits (effWord s1 R.PMP_OWNQ) 16 7 v)

/-- The notices of one slice and of one port. -/
def noticesOfSlice (s : State) (n : Nat) : State :=
  let s1 := [R.SLC_MSHR_FN n, R.SLC_EVB_FN n].foldl (fun s o => setEff s o (raw s o)) s
  floatApply (floatApply s1 (floatMshr n) (slice s n).mshrs.length) (floatEvb n) (slice s n).evb.length
def noticesOfPort (s : State) (p : Nat) : State :=
  floatApply (setEff s (R.APT_IWB_FN p) (raw s (R.APT_IWB_FN p))) (floatIwb p) (port s p).iwb.length

/-- An apply boundary (R297): nothing while PHOLD is 1; the blocks that stand still take nothing. -/
def applyBoundary (s : State) : State :=
  if getF s F.CFG_CTL_PHOLD = 1 then s
  else
    let s1 := clampTrim (takeBlock (stagePhu s) .pmp 0xA0000 .p)
    let s2 := takeBlock s1 .evq 0x20000 .p
    let s3 := floatApply (floatApply (floatApply s2 floatPdq (pdqLevel s2)) floatOwn (ownLevel s2)) floatEvq s2.evq.recs.length
    let s4 := if s3.cis.level < effF s3 F.WGV_FN_THRESH * 16777216 ∧ isF s3 F.WGV_FN_LATCHED = false then
        floatRaise (floatLatch s3 floatWgv) floatWgv else s3
    if holding s4 then s4
    else
      let ups := (List.range 32).filter (sliceUp s4)
      let s5 := ups.foldl noticesOfSlice s4
      let s6 := ((List.range 6).filter (fun p => blockUp s5 (0x300000 + p * 0x10000))).foldl noticesOfPort s5
      ups.foldl (fun s n => push s (.tend n)) (applyAllots s6)

/-- The class S registers of the DIR block, and those of them that are federation settings (R32, R40). -/
def fedRegs : List Nat := (List.range 4).map R.DIR_DRNG ++ [R.DIR_ILV, R.DIR_ILV_CFG, R.DIR_BOOT]
def dirRegs : List Nat := fedRegs ++ (List.range 256).map R.DIR_HT

/-- The GiB that a range word spans. -/
def rangeGiB (w : Word) : Nat := bits w 16 15 + 1 - bits w 0 15
/-- Whether two enabled ranges hold a GiB in common; a range whose LIM lies below its BASE holds none. -/
def rangesMeet (a b : Word) : Bool := bit a 31 && bit b 31 && decide (max (bits a 0 15) (bits b 0 15) ≤ min (bits a 16 15) (bits b 16 15))

/-- The lowest cause for which a DIR commit is refused; 0 for none (R32). -/
def dirCause (s : State) : Nat :=
  let r := fun d => raw s (R.DIR_DRNG d)
  let ilv := raw s R.DIR_ILV
  let cfg := raw s R.DIR_ILV_CFG
  let ways := if bit cfg 0 then 4 else 2
  let who := fun k => bits cfg (8 + 2 * k) 2
  let base := bits (raw s R.DIR_BOOT) 0 22
  let four := List.range 4
  let alone := fun d => if bit (r d) 31 then rangeGiB (r d) else 0
  if four.any (fun a => rangesMeet (r a) ilv || four.any (fun b => decide (a < b) && rangesMeet (r a) (r b))) then 1
  else if (ilv :: four.map r).any (fun w => bit w 31 && decide (bits w 16 15 < bits w 0 15)) || four.any (fun d => decide (512 < alone d)) then 2
  else if bit ilv 31 && (decide (rangeGiB ilv % ways ≠ 0)
      || (List.range ways).any (fun a => (List.range ways).any (fun b => decide (a < b) && decide (who a = who b)))
      || (List.range ways).any (fun k => decide (alone (who k) ≤ 512) && decide (512 < alone (who k) + rangeGiB ilv / ways))) then 3
  else if base < 0x200000 ∨ (0x3F0000 ≤ base ∧ base < 0x3F0040) ∨ (0x3FFE00 ≤ base ∧ base < 0x3FFE04) then 4
  else if (List.range 256).any (fun b => !(sliceUp s (bits (raw s (R.DIR_HT b)) 0 5))) then 5
  else 0

/-- The buckets whose home a written table moves away from a slice. -/
def losesBucket (s : State) (n b : Nat) : Bool := decide (homeSlice s b = n) && decide (bits (raw s (R.DIR_HT b)) 0 5 ≠ n)

/-- A mode change is aborted (R301): what was is kept. The record names the epoch that was prepared. -/
def modeAborted (s : State) (cause epoch mask : Nat) : State :=
  let s1 := setF (setF (flag s F.CFG_COMMIT_STAT_ABORT) F.CFG_COMMIT_STAT_ACAUSE cause) F.CFG_COMMIT_STAT_PHASE 0
  post s1 0x0104 0x40 (b1 cause ++ b1 epoch ++ leBytes 4 mask)

/-- More than one device is present. -/
def federated (s : State) : Bool := decide (1 < popcount (BitVec.ofNat 4 (getF s F.DIR_PRESENT_DEV)))

/-- The DIR block's part of a commit (R32, R300): refused, nothing to change, a federation setting with peers present, or a
global mode change. -/
def commitDir (s : State) : State × Bool :=
  let c := dirCause s
  if c ≠ 0 then (setF (flag s F.DIR_COMMIT_STAT_REFUSED) F.DIR_COMMIT_STAT_CAUSE c, false)
  else if dirRegs.all (fun o => decide (raw s o = effWord s o)) then (s, true)
  else if federated s ∧ fedRegs.any (fun o => decide (raw s o ≠ effWord s o)) then
    (modeAborted s 4 ((getF s F.CFG_EPOCH_EPOCH + 1) % 256) 0, true)
  else
    let named := (List.range 32).filter (fun n => (List.range 256).any (fun b => decide (homeSlice s b = n) || decide (bits (raw s (R.DIR_HT b)) 0 5 = n)))
    let lost := named.filter (fun n => (List.range 256).any (losesBucket s n))
    (openMode s true named lost, true)

/-- What a window held goes on (R301). -/
def resume (s : State) : State :=
  let s1 := (List.range 6).foldl (fun s p => push s (.port p)) s
  let s2 := (List.range 3).foldl (fun s l => push s (.link l)) s1
  let s3 := (List.range 4).foldl (fun s k => push s (.mop k)) s2
  let s4 := (List.range 2).foldl (fun s c => push s (.dma c)) s3
  let s5 := ((List.range 32).filter (sliceUp s4)).foldl (fun s n => push s (.tend n)) s4
  push (push (push (push (push s5 .inq) .dict) .crypto) .start) .commit

/-- The window closes without a change (R301). -/
def abortMode (s : State) (cause : Nat) : State :=
  match s.mode with
  | none => s
  | some m =>
    let mask := sumOf ((List.range 32).map (fun n => if m.left.contains (.slice (Fin.ofNat 32 n)) then 1 <<< n else 0))
    let s1 := modeAborted { s with mode := none } cause m.epoch mask
    let s2 := if m.dir ∧ cause = 2 then setF (flag s1 F.DIR_COMMIT_STAT_REFUSED) F.DIR_COMMIT_STAT_CAUSE 6 else s1
    let s3 := match s2.commit with
      | some c => if m.dir ∧ cause = 2 then { s2 with commit := some { c with refused := setBit c.refused 5 } } else s2
      | none => s2
    resume s3

/-- APPLY (R112, R301, R302): one epoch everywhere, the new values, the old allotment set kept beside the new one, the reservations of moved buckets
cleared, and their held requests back into the fabric. -/
def applyMode (s : State) (m : Mode) : State :=
  let old := getF s F.CFG_EPOCH_EPOCH
  let s1 := if m.dir then dirRegs.foldl (fun s o => setEff s o (raw s o)) s
    else m.slices.foldl (fun s n =>
      takeAllot (setSlice s n { slice s n with oldSet := some (old, (allotRegs n).map (fun o => (o, effWord s o))) }) n) s
  let s2 := (List.range 32).foldl (fun s n => if sliceUp s n then setSlice s n { slice s n with epoch := m.epoch } else s) s1
  let s3 := setF (setF { s2 with mode := none } F.CFG_EPOCH_EPOCH m.epoch) F.CFG_COMMIT_STAT_PHASE 0
  let moved := fun (n : Nat) (r : HReq) => m.dir && decide (homeOf s3 r.line ≠ n)
  let gone := fun (n : Nat) (g : BitVec 39) => m.dir && decide (homeOf s3 (BitVec.ofNat 40 (2 * g.toNat)) ≠ n)
  let s4 := m.lost.foldl (fun s n =>
    let x := slice s n
    (x.held.filter (moved n)).foldl (fun s r => push s (.home (homeOf s r.line) { r with epoch := m.epoch }))
      (setSlice s n { x with held := x.held.filter (fun r => !(moved n r)), rsv := x.rsv.filter (fun e => !(gone n e.2)) })) s3
  resume s4

/-- What a slice answers to PREPARE (R37, R301): 0 not yet, 1 positive, 2 negative. A way that an MSHR reserves is that MSHR's, and a
directory entry in DI is invalid (R98). -/
def sliceAnswer (s : State) (m : Mode) (n : Nat) : Nat :=
  if m.dir = false then (if allotCause n (raw s) = 0 then 1 else 2)
  else
    let x := slice s n
    let gone := fun (l : LineAddr) => losesBucket s n (bucket l)
    if x.ways.any (fun e => !e.2.pend && gone e.2.line) || x.dir.any (fun e => decide (e.2.dst ≠ 0) && gone e.2.line) then 2
    else if x.mshrs.any (fun q => gone q.req.line) || x.evb.any (fun e => gone e.line) || x.cq.any (fun r => gone r.line) then 0
    else 1

/-- An acknowledgement (R301). A requester acknowledges when no request of it is on its way to a home. -/
def modeAck (s : State) (who : Participant) : State :=
  match s.mode with
  | none => s
  | some m =>
    if m.left.contains who = false ∨ holding s then s
    else
      let onWay := s.fabric.any (fun f => match f with
        | .home _ _ => true
        | .reenter _ _ => true
        | _ => false)
      let a := match who with
        | .slice n => sliceAnswer s m n
        | _ => if onWay then 0 else 1
      if a = 0 then s
      else if a = 2 then
        let s1 := abortMode s 2
        match who with
        | .slice n => if m.dir then s1 else rejectAllot s1 n (allotCause n (raw s))
        | _ => s1
      else
        let left := m.left.filter (fun p => decide (p ≠ who))
        if left = [] then applyMode s m else { s with mode := some { m with left := left } }

/-- The class S fields of the PMU block (R193, R298): the domains asked for, and the thresholds unless they break R193. -/
def commitPmu (s : State) : State :=
  let s1 := setEff s R.PMU_PD_CTL (raw s R.PMU_PD_CTL)
  let w := 5 * getF s F.PMU_SAG_CFG_WARN
  let r := 5 * getF s F.PMU_SAG_CFG_RESET
  let s2 := if 600 ≤ r ∧ r ≤ 1100 ∧ r + 50 ≤ w ∧ w ≤ 1150 then
      setEff s1 R.PMU_SAG_CFG (BitVec.ofNat 32 (bits (raw s R.PMU_SAG_CFG) 0 16))
    else flag s1 F.PMU_SAG_CFG_REFUSED
  startOns s2 (toSwitchOn s2)

/-- The CST block's part of a commit (R172): the written split is recorded for the next start. -/
def commitCst (s : State) : State :=
  let s1 := takeBlock s .cst 0x90000 .s
  if (lastConf s1).split = effF s1 F.CST_SPLIT_PMEM then s1 else configRecord s1

/-- A port's or a link's part of a commit (R42, R298). -/
def commitSide (s : State) (side : Side) (b : Blk) (base : Nat) : State :=
  let was := effF s (sideRegs side).en
  let s1 := takeBlock s b base .s
  if effF s1 (sideRegs side).en = was then s1 else sideEnable s1 side

/-- The FED block's part for FED 0 (R300, R384): refused as a whole where it would change a federation setting with peers
present. -/
def fedRefuses (s : State) : Bool := federated s && blockDiffers s .feda 0x380000 .s

/-- A slice's part of a commit (R163, R164, R283, R284). -/
def commitSlice (s : State) (n : Nat) : State :=
  let oldEn := effF s (F.SLC_CTL_EN n)
  let oldMark := (List.range 8).map (fun i => effF s (F.SLC_EVAC_BKT n i))
  let s1 := takeBlock s .slc (0x100000 + n * 0x10000) .s
  let en := effF s1 (F.SLC_CTL_EN n)
  let s2 := if oldEn = 1 ∧ en = 0 ∧ slcState s1 n = 2 then startDraining s1 n
    else if en = 1 ∧ slcState s1 n = 1 then setF s1 (F.SLC_STAT_STATE n) 2 else s1
  let more := (List.range 8).any (fun i => (setBits 32 (effF s2 (F.SLC_EVAC_BKT n i))).any (fun j => !((oldMark.getD i 0).testBit j)))
  let s3 := if more then setF (setSlice s2 n { slice s2 n with evacOn := true }) (F.SLC_EVAC_STAT_EMPTY n) 0 else s2
  push s3 (.tend n)

/-- The channels in use under a CHMODE (R215). -/
def channelsUsed (mode : Nat) : List Nat := List.range (if mode = 1 then 2 else if mode = 2 then 1 else 4)

/-- Whether the written values of the MCH blocks a commit names break R215 or R238. `mine` are the channels it names. -/
def mchRefuses (s : State) (mine : List Nat) : Bool :=
  let word := fun (c o : Nat) => if mine.contains c then raw s o else effWord s o
  let cfg := fun c => bits (word c (R.MCH_CFG c)) 0 5
  let rate := fun c => min 2 (bits (word c (R.MCH_CTL c)) 1 2)
  let two := fun c => bit (word c (R.MCH_CFG c)) 4
  let used := channelsUsed (bits (word 0 (R.MCH_ILV 0)) 0 2)
  mine.any (fun c => decide (cfg c % 4 = 3) || decide (cfg c % 4 = 2 ∧ bit (word c (R.MCH_CFG c)) 2 = true)
      || (bit (word c (R.MCH_CFG c)) 3 && (decide (cfg c % 4 = 2 ∧ two c = false) || decide (cfg c % 4 = 0 ∧ two c = true)))
      || decide (rate c = 0 ∧ two c = true ∨ rate c = 1 ∧ two c = false))
    || used.any (fun a => used.any (fun b => (mine.contains a || mine.contains b) && decide (cfg a ≠ cfg b ∨ rate a ≠ rate b)))

/-- EN of a channel against its state (R218, R238): training starts, or the channel stops and keeps nothing. -/
def channelEnable (s : State) (c : Nat) : State :=
  let st := getF s (F.MCH_STAT_STATE c)
  if effF s (F.MCH_CTL_EN c) = 1 then
    (if st = 0 ∧ chanUp s c then trainStart s c else s)
  else if st = 0 then s else loseDram (setF s (F.MCH_STAT_STATE c) 0) c

/-- A channel's class S fields take effect (R238). The configuration and rate of a channel in use, and CHMODE while one is, change at a
start only (R289; log entry 126). -/
def takeMch (s : State) (c : Nat) : State :=
  let s1 := takeBlock s .mch (0x400000 + c * 0x40000) .s
  let keep := fun (s1 : State) (o : Nat) => setEff s1 o (effWord s o)
  let s2 := if getF s (F.MCH_STAT_STATE c) = 0 then s1
    else keep (setEff s1 (R.MCH_CTL c) (putBits (effWord s1 (R.MCH_CTL c)) 1 2 (bits (effWord s (R.MCH_CTL c)) 1 2))) (R.MCH_CFG c)
  if c = 0 ∧ (List.range 4).any (fun k => decide (getF s (F.MCH_STAT_STATE k) ≠ 0)) then keep s2 (R.MCH_ILV 0) else s2

/-- The MCH blocks' part of a commit: the refused bits. -/
def commitMch (s : State) (mine : List Nat) : State × Word :=
  let up := mine.filter (fun c => blockUp s (0x400000 + c * 0x40000))
  let off := mine.filter (fun c => !(up.contains c))
  let bitsOf := fun (l : List Nat) => l.foldl (fun (w : Word) c => setBit w (24 + c)) 0
  if up = [] then (s, bitsOf off)
  else if mchRefuses s up then (up.foldl (fun s c => flag s (F.MCH_STAT_REFUSED c)) s, bitsOf mine)
  else (up.foldl channelEnable (up.foldl takeMch s), bitsOf off)

/-- The plain blocks a commit can name: bit, offset, block. -/
def plainBlocks : List (Nat × Nat × Blk) :=
  [(2, 0x50000, .phu), (3, 0x90000, .cst), (4, 0xA0000, .pmp), (6, 0xC0000, .pci), (7, 0xD0000, .can), (8, 0xE0000, .msr),
   (9, 0x80000, .sec), (10, 0x20000, .evq)]

/-- One plain block applies its class S fields. -/
def commitPlain (s : State) (b : Nat × Nat × Blk) : State :=
  match b.2.2 with
  | .phu => commitPhu s
  | .cst => commitCst s
  | _ => takeBlock s b.2.2 b.2.1 .s

/-- A fold over the blocks a commit names: applied, or refused with its bit. -/
def commitEach {α : Type} (named : List α) (bitOf : α → Nat) (refuses : State → α → Bool) (f : State → α → State) (s : State × Word) :
    State × Word :=
  named.foldl (fun t a => if refuses t.1 a then (t.1, setBit t.2 (bitOf a)) else (f t.1 a, t.2)) s

/-- Step 3 of a commit but for the DIR block (R298). -/
def commitBlocks (s : State) (c : Commit) : State × Word :=
  let named := fun (b : Nat) => bit c.mask b
  let t1 := commitEach (plainBlocks.filter (fun b => named b.1)) (·.1) (fun s b => !(blockUp s b.2.1)) commitPlain (s, c.refused)
  let t2 := commitEach ((List.range 6).filter (fun p => named (12 + p))) (12 + ·) (fun s p => !(blockUp s (0x300000 + p * 0x10000)))
    (fun s p => commitSide s (apS p) .apt (0x300000 + p * 0x10000)) t1
  let t3 := commitEach ((List.range 3).filter (fun l => named (20 + l))) (20 + ·)
    (fun s l => !(blockUp s (0x380000 + l * 0x10000)) || (decide (l = 0) && fedRefuses s))
    (fun s l => commitSide (if l = 0 then takeBlock s .feda 0x380000 .s else s) (vlS l) .fed (0x380000 + l * 0x10000)) t2
  let m := commitMch t3.1 ((List.range 4).filter (fun k => named (24 + k)))
  let t4 := (m.1, t3.2 ||| m.2)
  commitEach ((List.range 32).filter (fun n => bit c.slices n)) (fun _ => 31) (fun s n => !(sliceUp s n)) commitSlice t4

/-- A commit ends (R298). -/
def commitEnd (s : State) (c : Commit) : State :=
  let s1 := setF (wr { s with commit := none } R.CFG_COMMIT_REF c.refused) F.CFG_COMMIT_STAT_BUSY 0
  push (if c.refused = 0 then irq s1 6 else post s1 0x0103 0x40 (leBytes 4 c.refused.toNat ++ leBytes 2 (getF s1 F.CFG_COMMIT_STAT_SEQ))) .start

/-- A commit goes on (R298): 1 waits for on-sequences; 2 applies; 3 waits for the DIR block's mode change; 4 waits for
off-sequences. -/
def commitRun (s : State) : Nat → State
  | 0 => s
  | fuel + 1 =>
    match s.commit with
    | none => s
    | some c =>
      match c.step with
      | 1 =>
        if s.seqs.any (fun e => e.2) then s
        else
          let s1 := if bit c.mask 0 then commitClk s else s
          commitRun { s1 with commit := some { c with step := 2 } } fuel
      | 2 =>
        if bit c.mask 5 ∧ s.mode.isSome then s
        else
          let t := commitBlocks s c
          let d := if bit c.mask 5 then commitDir t.1 else (t.1, true)
          commitRun (push { d.1 with commit := some { c with step := 3, refused := if d.2 then t.2 else setBit t.2 5 } } .start) fuel
      | 3 =>
        if s.mode.isSome ∧ bit c.mask 5 then s
        else
          let offs := if bit c.mask 1 then toSwitchOff s else []
          commitRun (showBusy (offs.foldl requestOff { s with commit := some { c with step := 4, offs := offs } })) fuel
      | _ => if s.seqs.any (fun e => !e.2) then s else commitEnd s c

/-- A strobe of CFG_COMMIT (R298): ignored, with COLL, while one runs. -/
def commitStart (s : State) (mask : Word) : State :=
  if s.commit.isSome then flag s F.CFG_COMMIT_STAT_COLL
  else
    let q := nextSeq (getF s F.CFG_COMMIT_STAT_SEQ)
    let s1 := setF (setF s F.CFG_COMMIT_STAT_SEQ q) F.CFG_COMMIT_STAT_BUSY 1
    let c : Commit := { mask := mask, slices := if bit mask 31 then raw s R.CFG_CSLC else 0 }
    let s2 := if bit mask 1 then commitPmu s1 else s1
    commitRun { s2 with commit := some c } 8

/-- WARN abandons a commit (R299): what has not begun does not, and a window aborts. -/
def commitWarn (s : State) : State :=
  let s1 := { s with commit := none }
  let s2 := match s.commit with
    | some c => commitEnd s1 c
    | none => s1
  abortMode s2 3

end Sys2Proof.Machine
end

