-- ==== Sys2Proof/Machine/Pci.lean ====
section
/-! DEFINITION. The PCI Express endpoint: its inbound requests, the inbound PMEM write queue, completions, MSI-X, resets
(R13, R206, R310, R313–R320). -/

namespace Sys2Proof.Machine

/-- The requests of some sources end: those that wait are dropped, and one that Chiso has begun answers nobody. -/
def dropDict (q : List DReq) (mine : DSrc → Bool) : List DReq :=
  (q.filter (fun d => d.going || !(mine d.src))).map (fun d => if mine d.src then { d with src := .ended } else d)

/-- Whether the endpoint's link is up (R282, R339): its domain on and PCI_CTL.EN in effect. -/
def pcieLink (s : State) : Bool := pdOn s 30 && decide (effF s F.PCI_CTL_EN = 1)

/-- Whether the endpoint serves: its link is up and its clock enabled. -/
def pcieUp (s : State) : Bool := pcieLink s && clockAt s 0xC0000

/-- What a read meets while the endpoint does not serve: completer abort where its link is up (R272), and no endpoint otherwise. -/
def pcieAbsent (s : State) (tag : Nat) : State := if pcieLink s then emit s (.completion tag false false []) else s

/-- A vector 16 to 21 falls due (R320). -/
def pciVector (s : State) (v : Nat) : State :=
  if (getF s F.PCI_IRQ_EN_EN).testBit (v - 16) then msix s v else s

/-- A bit of PCI_ERR is set (R320, R339). -/
def pciErr (s : State) (f : Fld) : State := if isF s f then s else pciVector (flag s f) 21

/-- AER logs an error (R313). -/
def aer (s : State) (b : Nat) : State := { s with pcie := { s.pcie with aer := setBit s.pcie.aer b } }

/-- Pending messages that may now be sent are sent (R310, R320). -/
def msixFlush (s : State) : State :=
  (List.range 64).foldl (fun s v =>
    if bit s.pcie.pba v then msix { s with pcie := { s.pcie with pba := clrBit s.pcie.pba v } } v else s) s

/-- The completions at the head of the endpoint's list that are ready leave, in request order (R315). -/
def npDrain (s : State) : Nat → State
  | 0 => s
  | fuel + 1 =>
    match s.pcie.np with
    | [] => s
    | q :: rest =>
      if q.ready = false then s
      else
        let s1 := emit { s with pcie := { s.pcie with np := rest } } (.completion q.tag (!q.failed) q.poison q.bytes)
        npDrain (if rest.any (fun y => !y.sent) then push s1 .inq else s1) fuel

/-- The bytes that a BAR2 read returns, from the lines it got. -/
def npBytes (s : State) (q : NonPosted) : List Byte :=
  (List.range q.len).map (fun i =>
    let a := 0x3F0000000000 + self s * 0x10000000 + q.off + i
    match q.got.find? (fun e => decide (e.1.toNat = a / 64)) with
    | some e => lineByte e.2 (a % 64)
    | none => 0)

/-- A non-posted request has its outcome; an error ends it in completer abort (R314, R315, R317). -/
def npDone (s : State) (no : Nat) (f : NonPosted → NonPosted) : State :=
  let mine := fun (q : NonPosted) => decide (q.no = no) && !q.ready
  match s.pcie.np.find? mine with
  | none => s
  | some q =>
    let q1 := f { q with ready := true }
    let s1 := if q1.failed then aer (pciErr s F.PCI_ERR_CA) 1 else s
    let q2 := if q1.failed then { q1 with bytes := [], poison := false } else q1
    npDrain { s1 with pcie := { s1.pcie with np := updOne mine (fun _ => q2) s1.pcie.np } } (s1.pcie.np.length + 1)

/-- The lines of a run of the PMEM aperture of this device. -/
def barLines (s : State) (off len : Nat) : List LineAddr :=
  let a := 0x3F0000000000 + self s * 0x10000000 + off
  if len = 0 then [] else (List.range ((a + len - 1) / 64 - a / 64 + 1)).map (fun i => BitVec.ofNat 40 (a / 64 + i))

/-- The endpoint accepts a non-posted request (R315). -/
def npTake (s : State) (q : NonPosted) : State :=
  { s with pcie := { s.pcie with np := s.pcie.np ++ [{ q with no := s.pcie.npNext }], npNext := s.pcie.npNext + 1 } }

/-- A non-posted request sets out. -/
def npGo (s : State) (q : NonPosted) : State :=
  { s with pcie := { s.pcie with np := updOne (fun y => decide (y.no = q.no)) (fun y => { y with sent := true }) s.pcie.np } }

/-- The 16 non-posted requests in hand go out (R315): one of BAR0 to the CSR root, one of BAR2 once the writes before it have left the queue,
and not into a mode change. -/
def npSend (s : State) : State :=
  (s.pcie.np.take 16).foldl (fun s q =>
    if q.sent ∨ q.ready then s
    else if q.csr then push (npGo s q) (.csr { m := .host, src := .tag q.no, off := q.off, len := q.len })
    else if (s.pcie.inq ++ s.pcie.posted.flatten).any (fun p => decide (p.id < q.before)) ∨ q.left.any (stalled s) then s
    else if q.left = [] then npDone (npGo s q) q.no id
    else q.left.foldl (fun s l => issue s { who := .host, tx := q.no, op := .rdOnce, line := l, arg := BitVec.ofNat 12 (63 * 64) }) (npGo s q)) s

/-- The head of the inbound queue sets out for its home, one at a time (R315). -/
def inqSend (s : State) : State :=
  match s.pcie.inq with
  | [] => s
  | p :: rest => if p.going ∨ stalled s p.line then s else { s with pcie := { s.pcie with inq := { p with going := true } :: rest } }

/-- A piece is checked and enters the queue, or is discarded (R38, R39, R315). -/
def pieceEnter (s : State) (p : Piece) : State :=
  let c := mapCause s p.line (if p.stash.isSome then .stashWr else .write)
  if c ≠ 0 then aer (pciErr (failAccess s (p.line.toNat * 64) c 9) F.PCI_ERR_CA) 1
  else { s with pcie := { s.pcie with inq := s.pcie.inq ++ [p] } }

/-- Pieces enter the queue while it holds fewer than 32 (R18, R315): the TLPs whose pieces are left hold their posted credits. -/
def inqFill (s : State) : Nat → State
  | 0 => s
  | n + 1 =>
    match s.pcie.posted with
    | [] => s
    | [] :: rest => inqFill { s with pcie := { s.pcie with posted := rest } } n
    | (p :: r) :: rest =>
      if 32 ≤ s.pcie.inq.length then s
      else inqFill (pieceEnter { s with pcie := { s.pcie with posted := r :: rest } } p) n

/-- As many pieces enter as the queue has room for (R315). -/
def inqRoom (s : State) : State := inqFill s (sumOf (s.pcie.posted.map (fun t => t.length + 1)))

/-- The endpoint goes on. -/
def inqTend (s : State) : State := npSend (inqSend (inqRoom s))

/-- The request that a piece travels as (R107, R315, R316). -/
def pieceReq (who : Who) (tx : Nat) (entry : Option Nat) (p : Piece) : HReq :=
  { who := who, op := if p.stash.isSome then .stashWr else .write, line := p.line, data := p.data, mask := p.mask, poison := p.poison,
    arg := p.stash.getD 0, entry := entry, tx := tx }

/-- The home takes the piece at the head of the queue (R315, row INBOUND_PIECE_TAKEN). -/
def pieceTaken (s : State) : State :=
  match s.pcie.inq with
  | p :: _ => if p.going then issue s (pieceReq .host 0 (some p.id) p) else s
  | [] => s

/-- A piece has left the queue: taken, or ended in error, which is an exception (R206, R315). -/
def pieceGone (s : State) (r : HReq) (cause : Nat) : State :=
  match s.pcie.inq with
  | p :: rest =>
    if some p.id ≠ r.entry then s
    else
      let s1 := { s with pcie := { s.pcie with inq := rest } }
      push (if cause = 0 then s1 else post s1 0x0205 0x4B (addrBytes p.line ++ b1 cause ++ b1 9)) .inq
  | [] => s

/-- The answer of a home to a line of a BAR2 read (R315, R318). -/
def hostReply (s : State) (r : HReq) (m : Msg) : State :=
  let mine := fun (q : NonPosted) => decide (q.no = r.tx) && !q.ready && q.left.contains r.line
  match s.pcie.np.find? mine with
  | none => s
  | some q =>
    let ok := decide (m.opc = 0x30)
    let q1 := { q with left := dropOne (fun l => decide (l = r.line)) q.left, got := if ok then q.got ++ [(r.line, m.data)] else q.got,
                       poison := q.poison || (ok && m.poison), failed := q.failed || !ok }
    let s1 := { s with pcie := { s.pcie with np := updOne mine (fun _ => q1) s.pcie.np } }
    if q1.left = [] then npDone s1 q.no (fun y => { y with bytes := npBytes s1 q1 }) else s1

/-- A memory request that hits no BAR as a whole, or any in D3hot (R314). -/
def unsupported (s : State) (tag : Option Nat) : State :=
  let s1 := aer (pciErr s F.PCI_ERR_UR) 2
  match tag with
  | some t => emit s1 (.unsupported t)
  | none => s1

/-- Sizes and alignments of a register access (R292). -/
def csrSizeOk (off len : Nat) : Bool := decide ((len = 4 ∨ len = 8) ∧ off % len = 0)

/-- A read of BAR0 (R198, R292, R314, R315). -/
def bar0Read (s : State) (off len tag : Nat) : State :=
  if pcieUp s = false then pcieAbsent s tag
  else if s.pcie.d3hot then unsupported s (some tag)
  else
    let s1 := npTake s { tag := tag, csr := true, off := off, len := len }
    if gated s ∨ csrSizeOk off len = false then npDone s1 s.pcie.npNext (fun q => { q with failed := true }) else push s1 .inq

/-- A write of BAR0 (R292, R314, R315, R317); it is posted, so a completer abort is logged only. -/
def bar0Write (s : State) (off : Nat) (bytes : List Byte) (ep : Bool) : State :=
  if pcieUp s = false then s
  else if s.pcie.d3hot then unsupported s none
  else if ep then aer (pciErr s F.PCI_ERR_POIS_RX) 0
  else if csrSizeOk off bytes.length = false then aer (pciErr s F.PCI_ERR_CA) 1
  else push s (.csr { m := .host, off := off, len := bytes.length, wr := true, w := BitVec.ofNat 64 (ofLe bytes) })

/-- A read of BAR2 (R198, R314, R315). -/
def bar2Read (s : State) (off len tag : Nat) : State :=
  if pcieUp s = false then pcieAbsent s tag
  else if s.pcie.d3hot ∨ 0x10000000 < off + len then unsupported s (some tag)
  else
    let s1 := npTake s { tag := tag, csr := false, off := off, len := len, before := s.pcie.inNext, left := barLines s off len }
    if gated s then npDone s1 s.pcie.npNext (fun y => { y with failed := true }) else push s1 .inq

/-- The stash target of a steering tag; none where the tag is ignored (R316). -/
def steer (st : Byte) : Option (BitVec 12) :=
  if bits st 5 3 ≠ 0 ∨ bits st 0 3 = 6 then none else some (BitVec.ofNat 12 (bits st 0 5))

/-- The pieces of a run of bytes, some of them masked off: a whole line, or each contiguous part of a line (R315). -/
def piecesOf (base : Nat) (bytes : List (Option Byte)) (poison : Bool) (stash : Option (BitVec 12)) : List Piece :=
  let first := base / 64
  let n := (base + bytes.length + 63) / 64 - first
  (List.range n).flatMap (fun i =>
    let at' := fun j => if (first + i) * 64 + j < base then none else (bytes.getD ((first + i) * 64 + j - base) none)
    let mask : BitVec 64 := (List.range 64).foldl (fun m j => if (at' j).isSome then setBit m j else m) 0
    let data := lineOf ((List.range 64).map (fun j => (at' j).getD 0))
    let line : LineAddr := BitVec.ofNat 40 (first + i)
    if mask = 0 then []
    else if full mask then [{ id := 0, line := line, data := data, mask := mask, poison := poison, stash := stash }]
    else (maskRuns mask).map (fun m => { id := 0, line := line, data := data &&& wideMask m, mask := m, poison := poison, stash := none }))

/-- The pieces of a posted TLP, numbered, wait for the queue (R315). -/
def piecesIn (s : State) (ps : List Piece) : State :=
  { s with pcie := { s.pcie with posted := s.pcie.posted ++ [ps.zipIdx.map (fun p => { p.1 with id := s.pcie.inNext + p.2 })],
                                 inNext := s.pcie.inNext + ps.length } }

/-- At WARN the TLPs that have not entered the queue are discarded and counted (R198; log entry 120). -/
def postedWarn (s : State) : State :=
  { s with pcie := { s.pcie with discarded := s.pcie.discarded + s.pcie.posted.length, posted := [] } }

/-- A posted write of BAR2 (R198, R314–R317). -/
def bar2Write (s : State) (off : Nat) (bytes : List (Option Byte)) (ep th : Bool) (st : Byte) : State :=
  if pcieUp s = false then s
  else if s.pcie.d3hot ∨ 0x10000000 < off + bytes.length then unsupported s none
  else if gated s then { s with pcie := { s.pcie with discarded := s.pcie.discarded + 1 } }
  else
    let stash := if th ∧ effF s F.PCI_CTL_TPH_EN = 1 then steer st else none
    let s1 := if ep then aer (pciErr s F.PCI_ERR_POIS_RX) 0 else s
    push (inqRoom (piecesIn s1 (piecesOf (0x3F0000000000 + self s * 0x10000000 + off) bytes ep stash))) .inq

/-- A write of BAR4 (R314): a word of the MSI-X table; the pending bits are read only. -/
def bar4Write (s : State) (off : Nat) (w : Word) : State :=
  if pcieUp s = false then s
  else if s.pcie.d3hot then unsupported s none
  else if off < 0x400 then msixFlush { s with pcie := { s.pcie with table := nset s.pcie.table (off / 4) w } }
  else s

/-- The host unmasks a vector (R310). -/
def msixUnmask (s : State) (v : Nat) : State :=
  let k := 4 * v + 3
  if pcieUp s = false then s
  else msixFlush { s with pcie := { s.pcie with table := nset s.pcie.table k (clrBit ((nget s.pcie.table k).getD 1) 0) } }

/-- A non-posted request has not completed within CTO (R318). -/
def completionTimeout (s : State) (tag : Nat) : State :=
  match s.pcie.np.find? (fun q => decide (q.tag = tag) && !q.ready) with
  | some q => npDone (pciErr s F.PCI_ERR_CTO) q.no (fun y => { y with failed := true })
  | none => s

/-- A host configuration write (R313, R314, R339). -/
def configWrite (s : State) (c : CfgWrite) : State :=
  if pcieUp s = false then s
  else
    let p := { s.pcie with bme := c.bme, d3hot := c.d3hot, msixEn := c.msixEn, aer := s.pcie.aer &&& ~~~c.aerClr }
    push (msixFlush { s with pcie := p }) .inq

/-- What a Function Level Reset, a hot reset and PCIE_PERST_N reset beside the DMA channels (R319): the configuration space, the
MSI-X table, the block's registers and the mailbox. The inbound queue goes on to its homes. -/
def pcieReset (s : State) : State :=
  let s1 := resetRange s 0xC0000 0xD0000
  { s1 with pcie := { inq := s.pcie.inq, inNext := s.pcie.inNext, npNext := s.pcie.npNext }, dmas := idleDmas s, mbxs := nerase s.mbxs (mbxIx .pci),
            dictq := dropDict s.dictq (fun d => decide (d = .mbx .pci)) }

end Sys2Proof.Machine
end

