-- ==== Sys2Proof/Machine/Dma.lean ====
section
/-! DEFINITION. The two DMA channels (R107, R321–R323). -/

namespace Sys2Proof.Machine

/-- The entries of a channel's ring, and its next descriptor and tail on it (R321). -/
def ringSize (s : State) (c : Nat) : Nat := 2 ^ rangedF s (F.PCI_DMA_RING_SZ_LOG2 c)
def ringHead (s : State) (c : Nat) : Nat := getF s (F.PCI_DMA_HEAD_HEAD c) % ringSize s c
def ringTail (s : State) (c : Nat) : Nat := getF s (F.PCI_DMA_TAIL_TAIL c) % ringSize s c

/-- The host address of the descriptor at HEAD. -/
def descAddr (s : State) (c : Nat) : BitVec 64 :=
  BitVec.ofNat 64 (getF s (F.PCI_DMA_RING_LO_ADDR c) * 64 + getF s (F.PCI_DMA_RING_HI_ADDR c) * 2 ^ 32 + ringHead s c * 32)

/-- FLAGS of a descriptor (R321): DIR, IRQ, NS, STASH. -/
def dmaOut (d : Dma) : Bool := bit d.flags 0
def dmaIrq (d : Dma) : Bool := bit d.flags 1
def dmaNs (d : Dma) : Bool := bit d.flags 2
def dmaStash (d : Dma) : Bool := bit d.flags 3

/-- The length of the part of a run that lies in the device line of the byte at `off`. -/
def partLen (d : Dma) (off : Nat) : Nat := min (64 - (d.daddr.toNat + off) % 64) (d.len - off)

/-- The device line of the byte at `off` of a run (R321). -/
def dmaLine (d : Dma) (off : Nat) : LineAddr := BitVec.ofNat 40 (((d.daddr.toNat + off) % 2 ^ 46) / 64)

/-- What the requests of a descriptor carry with the offset in the run: its number (R322). -/
def dmaTag (d : Dma) (off : Nat) : Nat := d.no * 2 ^ 32 + off

/-- A descriptor ends (R322, R323): RES is written, HEAD advances; an error halts the channel. `write` where RES can be
written. -/
def dmaEnd (s : State) (c status : Nat) (write : Bool) : State :=
  let d := dmaOf s c
  let res := 1 + status * 2 + (if status = 1 then d.cause * 256 else 0)
  let s1 := if write then emit s (.hostWrite c (descAddr s c + 24) (leBytes 4 res) false (dmaNs d)) else s
  let bad := status ≠ 0 ∧ status ≠ 3
  let head := (ringHead s c + 1) % ringSize s c
  let s2 := setF (setF (setDma s1 c { no := d.no + 1 }) (F.PCI_DMA_HEAD_HEAD c) head) (F.PCI_DMA_STAT_LAST c) status
  if bad then
    let s3 := setF s2 (F.PCI_DMA_STAT_STATE c) 2
    pciVector (pciErr s3 (if c = 0 then F.PCI_ERR_DMA0 else F.PCI_ERR_DMA1)) (18 + c)
  else
    let s3 := setF (setF s2 (F.PCI_DMA_STAT_STATE c) 0) (F.PCI_DMA_DONE_COUNT c) (getF s2 (F.PCI_DMA_DONE_COUNT c) + 1)
    push (if dmaIrq d then pciVector s3 (16 + c) else s3) (.dma c)

/-- The next piece of a run is asked for: a host read, or a read of a device line (R322). -/
def dmaIssue (s : State) (c : Nat) : Nat → State
  | 0 => s
  | fuel + 1 =>
    let d := dmaOf s c
    if d.phase ≠ 2 ∨ d.status ≠ 0 ∨ d.len ≤ d.next ∨ 32 ≤ d.reads.length + d.lines.length + d.todo.length then s
    else
      let k := partLen d d.next
      if dmaOut d then
        let l := dmaLine d d.next
        if stalled s l then s
        else dmaIssue (issue (setDma s c { d with next := d.next + k, lines := d.lines ++ [l] })
          { who := .dma c, tx := dmaTag d d.next, op := .rdOnce, line := l, arg := BitVec.ofNat 12 (63 * 64) }) c fuel
      else
        dmaIssue (emit (setDma s c { d with next := d.next + k, reads := d.reads ++ [{ off := d.next, len := k }] })
          (.hostRead c (d.haddr + BitVec.ofNat 64 d.next) k (dmaNs d))) c fuel

/-- The device lines that are ready to be written go out (R322); not into a mode change. -/
def dmaWrite (s : State) (c : Nat) : State :=
  let d := dmaOf s c
  let go := d.todo.filter (fun p => !(stalled s p.line))
  go.foldl (fun s p =>
    let d := dmaOf s c
    issue (setDma s c { d with todo := dropOne (fun q => decide (q = p)) d.todo, lines := d.lines ++ [p.line] }) (pieceReq (.dma c) (dmaTag d 0) none p)) s

/-- A channel goes on (R321): it reads the next descriptor while it may run, and moves lines. -/
def dmaTend (s : State) (c : Nat) : State :=
  let d := dmaOf s c
  let st := getF s (F.PCI_DMA_STAT_STATE c)
  if pcieUp s = false ∨ s.pcie.d3hot ∨ s.pcie.bme = false ∨ gated s then s
  else if d.phase = 2 then dmaIssue (dmaWrite s c) c 64
  else if d.phase = 0 ∧ st ≠ 2 ∧ isF s (F.PCI_DMA_CTL_EN c) ∧ ringHead s c ≠ ringTail s c then
    emit (setDma (setF s (F.PCI_DMA_STAT_STATE c) 1) c { no := d.no, phase := 1, reads := [{ off := 0, len := 32 }] }) (.hostRead c (descAddr s c) 32 false)
  else s

/-- The cause that ends a run at its first byte of Device memory (R38, R323): 4, or 2 where that is the CSR window of a device that is not
present. -/
def deviceCause (s : State) (a : Nat) : Nat :=
  match route s a with
  | some (_, d) => if present s d then 4 else 2
  | none => 1

/-- A descriptor as its 32 bytes give it (R321, R323). A run that meets Device memory ends at once, and the failed access is recorded (R39). -/
def takeDescriptor (s : State) (c : Nat) (bs : List Byte) : State :=
  let num := fun (o n : Nat) => ofLe ((bs.drop o).take n)
  let d : Dma := { no := (dmaOf s c).no, phase := 2, haddr := BitVec.ofNat 64 (num 0 8), daddr := BitVec.ofNat 46 (num 8 8), len := num 16 4,
                   flags := bs.getD 20 0, st := bs.getD 21 0 }
  let bad := d.len = 0 ∨ 0x1000000 < d.len ∨ bits d.flags 4 4 ≠ 0 ∨ num 22 2 ≠ 0 ∨ num 28 4 ≠ 0
  let a := d.daddr.toNat
  let device := decide (a < 0x3FFE04000000) && decide (0x3FFE00000000 < a + d.len)
  let at' := max a 0x3FFE00000000
  if bad then push (setDma s c { d with status := 5 }) (.dma c)
  else if device then push (setDma (failAccess s at' (deviceCause s at') 9) c { d with status := 1, cause := deviceCause s at' }) (.dma c)
  else push (setDma s c d) (.dma c)

/-- A host completion for a channel (R322, R323): the bytes that stand at `off` of the descriptor or of the run. -/
def hostCompletion (s : State) (c off : Nat) (bytes : List Byte) (ep ok : Bool) : State :=
  let d := dmaOf s c
  let mine := fun (r : HRead) => decide (r.off + r.got.length = off) && decide (0 < bytes.length) && decide (r.got.length + bytes.length ≤ r.len)
  if ok = false then
    (match d.reads.find? (fun r => decide (r.off + r.got.length = off)) with
      | some _ =>
        if d.phase = 1 then setDma s c { d with phase := 2, reads := [], status := 2 }
        else setDma s c { d with reads := dropOne (fun r => decide (r.off + r.got.length = off)) d.reads, status := if d.status = 0 then 2 else d.status }
      | none => s)
  else match d.reads.find? mine with
    | none => s
    | some r =>
      let r1 := { r with got := r.got ++ bytes, ep := r.ep || ep }
      if r1.got.length < r1.len then setDma s c { d with reads := updOne mine (fun _ => r1) d.reads }
      else if d.phase = 1 then (if r1.ep then setDma s c { d with phase := 2, reads := [], status := 2 } else takeDescriptor s c r1.got)
      else
        let ps := piecesOf ((d.daddr.toNat + r1.off) % 2 ^ 46) (r1.got.map some) r1.ep (if dmaStash d then steer d.st else none)
        push (setDma s c { d with reads := dropOne mine d.reads, todo := d.todo ++ ps, poison := d.poison || r1.ep }) (.dma c)

/-- A channel's read of host memory gets no completion (R323). -/
def hostTimeout (s : State) (c : Nat) : State :=
  let d := dmaOf s c
  if d.reads = [] then s else setDma s c { d with phase := 2, reads := [], status := if d.status = 0 then 2 else d.status }

/-- A home answers a line of a channel (R322, R323): data goes to the host, an error ends the descriptor. -/
def dmaReply (s : State) (c : Nat) (r : HReq) (m : Msg) : State :=
  let d := dmaOf s c
  let off := r.tx % 2 ^ 32
  if r.tx / 2 ^ 32 ≠ d.no ∨ d.lines.contains r.line = false then s
  else
    let d1 := { d with lines := dropOne (fun l => decide (l = r.line)) d.lines }
    if m.opc = 0x2D then push (setDma s c { d1 with status := if d.status = 0 then 1 else d.status, cause := if d.status = 0 then m.arg.toNat else d.cause }) (.dma c)
    else if m.opc = 0x30 then
      let k := partLen d off
      let s1 := setDma s c { d1 with poison := d.poison || m.poison }
      push (emit s1 (.hostWrite c (d.haddr + BitVec.ofNat 64 off) (lineBytes m.data ((d.daddr.toNat + off) % 64) k) m.poison (dmaNs d))) (.dma c)
    else push (setDma s c d1) (.dma c)

/-- Every line of a descriptor is performed (R322, row DMA_DESCRIPTOR_DONE). -/
def descriptorDone (s : State) (c : Nat) : State :=
  let d := dmaOf s c
  if d.phase = 2 ∧ d.reads = [] ∧ d.lines = [] ∧ (d.status ≠ 0 ∨ (d.todo = [] ∧ d.len ≤ d.next)) then
    dmaEnd s c (if d.status ≠ 0 then d.status else if d.poison then 3 else 0) (pcieUp s && !s.pcie.d3hot)
  else s

/-- A descriptor in progress is aborted (R198, R319, R323). -/
def dmaAbort (s : State) (c : Nat) (write : Bool) : State := if (dmaOf s c).phase = 0 then s else dmaEnd s c 4 write

/-- A write of PCI_DMAc_CTL (R323, R339): EN, ABORT. -/
def dmaCtl (s : State) (c : Nat) (w : Word) : State :=
  let s1 := setF s (F.PCI_DMA_CTL_EN c) (bits w 0 1)
  let s2 := if bit w 1 then dmaAbort s1 c true else s1
  let s3 := if bit w 0 ∧ getF s2 (F.PCI_DMA_STAT_STATE c) = 2 then setF s2 (F.PCI_DMA_STAT_STATE c) 0 else s2
  push s3 (.dma c)

/-- The three resets of the function (R319). `alive` where a status can still be written: the link stays up in a Function Level
Reset. -/
def functionReset (s : State) (alive : Bool) : State :=
  if blockUp s 0xC0000 = false then s
  else push (pcieReset (dmaAbort (dmaAbort s 0 alive) 1 alive)) .inq

end Sys2Proof.Machine
end

