-- ==== Sys2Proof/Machine/Mbx.lean ====
section
/-! DEFINITION. The two mailboxes and the four CRC units (R303, R330, R355, R356, R359). -/

namespace Sys2Proof.Machine

/-- Where a mailbox's registers start (R330). -/
def mbxBase : Mbx → Nat
  | .pci => 0xC0400
  | .csr => 0xD0400

/-- MBX_RES and its companions take their values at one instant (R303, R340). -/
def mbxShow (s : State) (b : Mbx) (m : MbxSt) : State :=
  let o := mbxBase b
  let on := b2n (decide (m.phase = 2))
  let code := match m.abort with
    | some c => c
    | none => 0
  let s1 := wr s (o + 0x10) (BitVec.ofNat 32 (on + 2 * b2n (decide (m.phase = 1)) + on * (4 * b2n m.abort.isSome + m.seq <<< 16)))
  let s2 := wr s1 (o + 0x14) (BitVec.ofNat 32 (if m.phase = 2 ∧ m.wr = false then m.data.length else 0))
  setMbx (wr s2 (o + 0x18) (if m.phase = 2 then code else 0)) b m

/-- The bytes of MBX_DATA. -/
def mbxBytes (s : State) (b : Mbx) (n : Nat) : List Byte :=
  ((List.range 64).flatMap (fun k => leBytes 4 (raw s (mbxBase b + 0x40 + 4 * k)).toNat)).take n

/-- MBX_DATA takes a response, zero above it. -/
def mbxPut (s : State) (b : Mbx) (bs : List Byte) : State :=
  (List.range 64).foldl (fun s k => wr s (mbxBase b + 0x40 + 4 * k) (BitVec.ofNat 32 (ofLe ((bs.drop (4 * k)).take 4)))) s

/-- A write of MBX_CMD (R330): the fields, and with START a snapshot of the request. -/
def mbxStart (s : State) (b : Mbx) (w : Word) : State :=
  let o := mbxBase b
  let s0 := wr s o (BitVec.ofNat 32 (bits w 0 25))
  if bit w 31 = false then s0
  else
    let m := mbxOf s0 b
    if m.phase ≠ 0 then wr s0 (o + 0xC) (setBit (raw s0 (o + 0xC)) 1)
    else
      let len := min 256 (bits (raw s0 (o + 4)) 0 9)
      let d : DReq := { src := .mbx b, index := bits w 0 16, sub := bits w 16 8, wr := bit w 24, off := (raw s0 (o + 8)).toNat, len := len,
                        data := if bit w 24 then mbxBytes s0 b len else [] }
      mbxShow { s0 with dictq := s0.dictq ++ [d] } b { phase := 1, wr := bit w 24, seq := m.next, next := nextSeq m.next }

/-- The answer to a mailbox's request (R320, R329, R330). -/
def mbxDone (s : State) (b : Mbx) (code : Word) (bs : List Byte) : State :=
  let m := mbxOf s b
  if m.phase ≠ 1 then s
  else
    let s1 := if m.wr = false then mbxPut s b (if code = 0 then bs else []) else s
    let s2 := mbxShow s1 b { m with phase := 2, data := if code = 0 then bs else [], abort := if code = 0 then none else some code }
    match b with
    | .pci => pciVector s2 20
    | .csr => s2

/-- REL frees a result (R303, R330). -/
def mbxRel (s : State) (b : Mbx) : State :=
  let m := mbxOf s b
  if m.phase ≠ 2 then s
  else mbxShow (if m.wr then s else mbxPut s b []) b { seq := m.seq, next := m.next }

/-- A write of MBX_CTL (R340). -/
def mbxCtl (s : State) (b : Mbx) (w : Word) : State :=
  let o := mbxBase b + 0xC
  let s1 := if bit w 1 then wr s o (clrBit (raw s o) 1) else s
  if bit w 0 then mbxRel s1 b else s1

/-- The registers of a CRC unit's result (R356, R359). -/
def crcShow (s : State) (u : Nat) (c : Crc) : State :=
  let on := decide (c.phase = 2)
  let v := if on then c.reg.toNat else 0
  let s1 := wr s (R.CRC_U_RES u) (BitVec.ofNat 32 (b2n on + 2 * b2n (decide (c.phase = 1)) + (if on then c.seq <<< 16 else 0)))
  let s2 := wr (wr s1 (R.CRC_U_VAL_LO u) (BitVec.ofNat 32 v)) (R.CRC_U_VAL_HI u) (BitVec.ofNat 32 (v >>> 32))
  setCrc (wr s2 (R.CRC_U_CNT u) c.cnt) u c

/-- An access to a unit is ignored (R356). -/
def crcColl (s : State) (u : Nat) : State := flag s (F.CRC_U_CTL_COLL u)

/-- START (R356): FEED from any state, with the initial value, POLY sampled. -/
def crcBegin (s : State) (u : Nat) : State :=
  let c := crcOf s u
  let poly := getF s (F.CRC_U_CTL_POLY u)
  let own := getF s (F.CRC_U_INIT_LO_INIT u) + getF s (F.CRC_U_INIT_HI_INIT u) * 2 ^ 32
  let init := if isF s (F.CRC_U_CTL_USEINIT u) then own % 2 ^ unitWidth poly else unitInit poly
  crcShow s u { phase := 1, poly := poly, reg := BitVec.ofNat 64 init, seq := c.seq, next := c.next }

/-- A feed of 1, 2 or 4 bytes, lowest first (R356). -/
def crcFeed (s : State) (u : Nat) (bs : List Byte) : State :=
  let c := crcOf s u
  if c.phase ≠ 1 then crcColl s u
  else crcShow s u { c with reg := BitVec.ofNat 64 (bs.foldl (unitByte c.poly) c.reg.toNat), cnt := c.cnt + BitVec.ofNat 32 bs.length }

/-- FIN (R356): the final XOR, VALID, source 5. -/
def crcFin (s : State) (u : Nat) : State :=
  let c := crcOf s u
  if c.phase ≠ 1 then crcColl s u
  else irq (crcShow s u { c with phase := 2, reg := BitVec.ofNat 64 (Nat.xor c.reg.toNat (unitFinal c.poly)), seq := c.next, next := nextSeq c.next }) 5

/-- REL (R356). -/
def crcRel (s : State) (u : Nat) : State :=
  let c := crcOf s u
  if c.phase = 2 then crcShow s u { cnt := c.cnt, seq := c.seq, next := c.next } else s

/-- A write of CRC_Un_CTL (R356, R359): a START together with FIN is ignored. -/
def crcCtl (s : State) (u : Nat) (w : Word) : State :=
  let s0 := setF (setF s (F.CRC_U_CTL_POLY u) (bits w 0 2)) (F.CRC_U_CTL_USEINIT u) (bits w 2 1)
  let s1 := if bit w 11 then setF s0 (F.CRC_U_CTL_COLL u) 0 else s0
  let s2 := if bit w 8 ∧ bit w 9 then crcColl s1 u
    else if bit w 8 then crcBegin s1 u
    else if bit w 9 then crcFin s1 u else s1
  if bit w 10 then crcRel s2 u else s2

end Sys2Proof.Machine
end

