-- ==== Sys2Proof/Machine/Sec.lean ====
section
/-! DEFINITION. Firmware slots and their verification, the management controller's restarts, boot slots, rollback fuses, the
crypto engine and attestation (R287, R288, R303, R341–R354, R357, R358). -/

namespace Sys2Proof.Machine

/-- A write of a firmware area. -/
def GKind.ofFw : GKind → Bool
  | .fwHead _ _ _ _ => true
  | .fwData _ _ _ => true
  | _ => false

/-- Whether writes of the firmware areas wait for the governor: what reads the areas then waits for them (R187, R341, R343). -/
def fwWaits (s : State) : Bool := s.cis.queue.any (fun g => g.kind.ofFw)

/-- A firmware slot once the writes that wait are made: the reads of the ROM and of Chiso follow their writes (R187, R341). -/
def fwLatest (s : State) (k : Nat) : Fw :=
  s.cis.queue.foldl (fun f g => match g.kind with
    | .fwHead j act good tried => if j = k then { f with act := act, good := good, tried := tried } else f
    | .fwData j off bs => if j = k then { f with image := patch (if f.shipped then Config.shippedImage else f.image) off bs, shipped := false } else f
    | _ => f) (fwOf s k)

/-- The parts of an image (R342). -/
def imgNum (img : List Byte) (off n : Nat) : Nat := ofLe ((img.drop off).take n)
def imgBlen (img : List Byte) : Nat := imgNum img 8 4
def imgSvn (img : List Byte) : Nat := imgNum img 6 1
def imgPk (img : List Byte) : List Byte := (img.drop 64).take 1312
def imgSig (img : List Byte) : List Byte := (img.drop 1376).take 2420
/-- M of an image (R342): over its header and its body. -/
def imgDigest (img : List Byte) : List Byte := sha3_256 (img.take 3796 ++ (img.drop 3796).take (imgBlen img))

/-- "CHSO", "CHISO", "ATTEST" and "AXAT" in ASCII. -/
def asciiChso : Nat := 0x4F534843
def ctxChiso : List Byte := [0x43, 0x48, 0x49, 0x53, 0x4F]
def ctxAttest : List Byte := [0x41, 0x54, 0x54, 0x45, 0x53, 0x54]
def asciiAxat : List Byte := [0x41, 0x58, 0x41, 0x54]

/-- The outcome of a slot (R343, R358): 1 accepted; 2 header or SVN; 3 key hash; 4 signature. -/
def romOutcome (s : State) (k : Nat) : Nat :=
  let img := fwImage s k
  if imgNum img 0 4 ≠ asciiChso ∨ imgNum img 4 2 ≠ 1 ∨ imgBlen img = 0 ∨ 0x100000 < imgBlen img ∨ imgSvn img < s.sec.fuses then 2
  else if sha3_256 (imgPk img) ≠ leBytes 32 Config.rootKeyHash.toNat then 3
  else if Config.mldsaVerify (imgPk img) (imgDigest img) (imgSig img) ctxChiso = false then 4
  else 1

/-- The slots in the order the ROM tries them (R343): by ACT, the tried and never good ones dropped. -/
def romDropped (s : State) (k : Nat) : Bool := !(fwLatest s k).good && (fwLatest s k).tried
def romOrder (s : State) : List Nat :=
  (if (fwLatest s 0).act < (fwLatest s 1).act then [1, 0] else [0, 1]).filter (fun k => !(romDropped s k))

/-- The ROM's note of a slot in SEC_STAT. -/
def romNote (s : State) (k v : Nat) : State := setF s (if k = 0 then F.SEC_STAT_VA else F.SEC_STAT_VB) v

/-- The ROM has no slot left (R344, R365). -/
def romStuck (s : State) : State :=
  let s1 := setF { s with mcu := { s.mcu with order := [], started := false } } F.PMU_MCU_STATE 0
  if s.mcu.restart then s1 else startFault s1 3

/-- The boot ROM begins (R287, R343). `st` is 1 VERIFY at a start and 3 RESTART at a restart. -/
def romBegin (s : State) (st : Nat) : State :=
  let s1 := setF (setF s F.SEC_STAT_VA (if romDropped s 0 then 5 else 0)) F.SEC_STAT_VB (if romDropped s 1 then 5 else 0)
  let s2 : State := { setF s1 F.PMU_MCU_STATE st with mcu := { s1.mcu with order := romOrder s1, started := false, restart := decide (st = 3) } }
  if s2.mcu.order = [] then romStuck s2 else s2

/-- Whether the crypto engine can run (R343, R354). -/
def cryptoUp (s : State) : Bool := pdOn s 30 && devEn s 17

/-- A slot header is written, metered (R185, R187, R341). -/
def fwWrite (s : State) (k act : Nat) (good tried : Bool) : State := meter s { prio := 3, kind := .fwHead k act good tried }

/-- The ROM finishes with a slot (R343, row BOOT_ROM_VERIFY_DONE). -/
def romVerified (s : State) : State :=
  let st := getF s F.PMU_MCU_STATE
  if (st ≠ 1 ∧ st ≠ 3) ∨ s.mcu.started ∨ cryptoUp s = false ∨ fwWaits s then s
  else match s.mcu.order with
    | [] => s
    | k :: rest =>
      let v := romOutcome s k
      let s1 := romNote s k v
      if v = 1 then
        let f := fwOf s k
        let s2 := if f.good then s1 else fwWrite s1 k f.act f.good true
        let img := fwImage s k
        let s3 := (List.range 8).foldl (fun s i => setF s (F.SEC_CHISO_DG_DG i) (ofLe (((imgDigest img).drop (4 * i)).take 4))) s2
        let s4 := setF (setF s3 F.SEC_ID_SLOT k) F.SEC_ID_SVN (imgSvn img)
        { s4 with mcu := { s4.mcu with order := [], started := true } }
      else
        let s2 := post { s1 with mcu := { s1.mcu with order := rest } } 0x0700 0x4E (b1 k ++ b1 v)
        if rest = [] then romStuck s2 else s2

/-- Chiso reaches RUN (R343, R364). -/
def chisoRun (s : State) : State :=
  let st := getF s F.PMU_MCU_STATE
  if s.mcu.started = false ∨ (st ≠ 1 ∧ st ≠ 3) ∨ fwWaits s then s
  else
    let k := getF s F.SEC_ID_SLOT
    let s1 := if (fwOf s k).good then s else fwWrite s k (fwOf s k).act true (fwOf s k).tried
    push (push { setF s1 F.PMU_MCU_STATE 2 with mcu := { owed := s1.mcu.owed } } .start) .dict

/-- A restart of the controller is counted (R290). -/
def mcuCount (s : State) : State := setF s F.PMU_MCU_COUNT (bump 0xFFFF (getF s F.PMU_MCU_COUNT) 1)

/-- A write of PMU_MCU.RST = 1 (R287). -/
def mcuRestart (s : State) : State :=
  if pumpState s ≠ 0 ∨ getF s F.PMU_MCU_STATE ≠ 2 ∨ cryptoUp s = false then s else romBegin (mcuCount s) 3

/-- RUN is not reached in 1 s of a restart (R288). -/
def mcuFallback (s : State) : State :=
  if getF s F.PMU_MCU_STATE = 3 ∧ s.mcu.restart = true then romBegin (post (flag (mcuCount s) F.PMU_MCU_FALLBK) 0x0505 0x42 []) 3 else s

/-- A write of 0x2B62 (R357): refused for the running slot. The abort code, 0 for none. -/
def firmwareWrite (s : State) (k off : Nat) (bs : List Byte) : State × Word :=
  if getF s F.PMU_MCU_STATE = 2 ∧ getF s F.SEC_ID_SLOT = k then (s, 0x08000022)
  else if 0x100F00 < off + bs.length then (s, 0x06070010)
  else
    (if bs = [] then s else meter s { prio := 3, kind := .fwData k off bs, left := (off + bs.length + 63) / 64 - off / 64 }, 0)

/-- A write of 0x2B63 subindex 1 (R344, R357): the header, and the restart. -/
def firmwareActivate (s : State) (k : Nat) : State × Word :=
  if 2 ≤ k then (s, 0x06090030)
  else
    let s1 := fwWrite s k ((fwLatest s (1 - k)).act + 1) false false
    (if getF s F.PMU_MCU_STATE = 0 then (if cryptoUp s then romBegin s1 1 else s1) else mcuRestart s1, 0)

/-- A write of 0x2B63 subindex 2 (R346): there are 64 fuses. -/
def rollbackCommit (s : State) (v : Nat) : State × Word :=
  if getF s F.SEC_ID_SVN < v ∨ (fwOf s (getF s F.SEC_ID_SLOT)).good = false then (s, 0x08000022)
  else
    let n := min 64 v
    if n ≤ s.sec.fuses then (s, 0) else (post { s with sec := { s.sec with fuses := n } } 0x0701 0x4E (b1 n), 0)

/-- What a line of a boot slot holds once the writes that wait are made: Chiso's reads follow its writes (R139, R187). -/
def bootLatest (s : State) (n : Nat) : CLine :=
  s.cis.queue.foldl (fun d g => match g.kind with
    | .bootSlot m v => if m = n then { data := v, poison := false, seq := genNow s } else d
    | _ => d) (cisGet s n)

/-- The bytes of a boot slot (R170, R348). -/
def bootBytes (s : State) (k n : Nat) : List Byte :=
  ((List.range ((n + 63) / 64)).flatMap (fun i => lineBytes (bootLatest s ((196 + 16 * k) * 16384 + i)).data 0 64)).take n

/-- One line of a boot slot is written, metered (R185, R187). -/
def bootLineWrite (s : State) (n : Nat) (d : Line) : State := meter s { prio := 5, kind := .bootSlot n d }

/-- A write of 0x2B60 (R348): refused for the slot that is active now or named for the next start; VALID clears. -/
def bootWrite (s : State) (k off : Nat) (bs : List Byte) : State × Word :=
  if k = s.start.bootSlot ∨ k = s.journal.active then (s, 0x08000022)
  else if 0x1000000 < off + bs.length then (s, 0x06070010)
  else
    let h := { bootOf s k with valid := false }
    let s1 := if (bootOf s k).valid then journalNote (setBoot s k h) [.boot k h] else s
    (if bs = [] then s1 else (List.range ((off + bs.length - 1) / 64 - off / 64 + 1)).foldl (fun s i =>
      let n := (196 + 16 * k) * 16384 + off / 64 + i
      let old := lineBytes (bootLatest s n).data 0 64
      let put := (List.range 64).map (fun j =>
        let a := (off / 64 + i) * 64 + j
        if off ≤ a ∧ a < off + bs.length then bs.getD (a - off) 0 else old.getD j 0)
      bootLineWrite s n (lineOf put)) s1, 0)

/-- A write of 0x2B61 subindex 6 (R348): VALID only on a match, which goes to the store; record 0x0702 with the result. -/
def bootValidate (s : State) (k : Nat) : State × Word :=
  if 2 ≤ k then (s, 0x06090030)
  else
    let h := bootOf s k
    let ok := decide (crc32c (bootBytes s k h.len) = h.crc)
    let s1 := post (if ok then setBoot s k { h with valid := true } else s) 0x0702 0x4E (b1 k ++ b1 (b2n (!ok)))
    (s1, if ok then 0 else 0x08000020)

/-- A write of 0x2B61 subindex 1 (R347, R348), which goes to the store. -/
def bootActive (s : State) (k : Nat) : State × Word :=
  if 2 ≤ k then (s, 0x06090030)
  else if (bootOf s k).valid = false then (s, 0x08000022)
  else ({ s with journal := { s.journal with active := k } }, 0)

/-- The registers of slot 0's result (R303, R358). -/
def secShow (s : State) (x : Sec) : State :=
  let on := decide (x.phase = 2)
  wr { s with sec := x } R.SEC_RES (BitVec.ofNat 32 (b2n on + 2 * b2n (decide (x.phase = 1)) + (if on then x.status * 4 + x.seq <<< 16 else 0)))

/-- SEC_DG and SEC_BUF take a value. -/
def secDigestPut (s : State) (bs : List Byte) : State :=
  (List.range 8).foldl (fun s k => setF s (F.SEC_DG_DG k) (ofLe ((bs.drop (4 * k)).take 4))) s
def secBufPut (s : State) (bs : List Byte) : State :=
  (List.range 1024).foldl (fun s k => wr s (R.SEC_BUF k) (BitVec.ofNat 32 (ofLe ((bs.drop (4 * k)).take 4)))) s
def secBuf (s : State) (off n : Nat) : List Byte :=
  (((List.range 1024).flatMap (fun k => leBytes 4 (raw s (R.SEC_BUF k)).toNat)).drop off).take n

/-- A START of slot 0 (R303, R354): ignored, with COLL, in an occupied slot; a bad one ends at once with STATUS 3. -/
def secStart (s : State) (op : Nat) : State :=
  let x := s.sec
  if x.phase ≠ 0 then flag s F.SEC_CMD_COLL
  else
    let len := getF s F.SEC_LEN_LEN
    let a := getF s F.SEC_ADDR_LO_ADDR + getF s F.SEC_ADDR_HI_ADDR * 2 ^ 32
    let lines := if op = 1 ∧ len ≠ 0 then (List.range ((a + len - 1) / 64 - a / 64 + 1)).map (fun i => BitVec.ofNat 40 (a / 64 + i)) else []
    let bad := op = 0 ∨ 4 ≤ op ∨ (op = 1 ∧ len = 0)
    let x1 := { x with phase := 1, op := op, seq := x.next, next := nextSeq x.next, left := lines, asked := false, bytes := [], bad := false,
                       order := if bad then x.order else x.order ++ [0] }
    let s1 := secDigestPut s []
    if bad then irq (secShow s1 { x1 with phase := 2, status := 3 }) 5
    else push (secShow { s1 with sec := { x1 with at0 := if x.order = [] then s.tb else x.at0 } } { x1 with at0 := if x.order = [] then s.tb else x.at0 }) .crypto

/-- A DIGEST at the head of the engine reads its next line (R107, R354). Device memory and unmapped lines end it. -/
def secTend (s : State) : State :=
  let x := s.sec
  match x.order, x.left with
  | 0 :: _, l :: _ =>
    if x.op ≠ 1 ∨ x.asked ∨ x.bad ∨ stalled s l then s
    else if isDevice s l then { s with sec := { x with bad := true } }
    else issue { s with sec := { x with asked := true } } { who := .crypto, op := .rdOnce, line := l, arg := BitVec.ofNat 12 (63 * 64) }
  | _, _ => s

/-- A line of a DIGEST arrives (R354). -/
def cryptoReply (s : State) (r : HReq) (m : Msg) : State :=
  let x := s.sec
  if x.asked = false ∨ x.left.head? ≠ some r.line then s
  else if m.opc ≠ 0x30 ∨ m.poison then { s with sec := { x with asked := false, bad := true } }
  else push { s with sec := { x with asked := false, left := x.left.drop 1, bytes := x.bytes ++ lineBytes m.data 0 64 } } .crypto

/-- The body of an attestation report (R352). -/
def reportBody (s : State) (nonce : List Byte) (at0 : BitVec 64) : List Byte :=
  let words := fun (f : Nat → Fld) => (List.range 8).flatMap (fun k => leBytes 4 (getF s (f k)))
  asciiAxat ++ [1, 0] ++ leBytes 2 Config.romVersion.toNat ++ leBytes 8 Config.serial.toNat ++ b1 (self s) ++ b1 s.sec.fuses
    ++ b1 (getF s F.SEC_ID_SVN) ++ b1 (getF s F.SEC_ID_SLOT) ++ leBytes 4 (3 + 4 * b2n Config.rootKeyFused)
    ++ words F.SEC_CHISO_DG_DG ++ words F.SEC_ODDG_DG ++ leBytes 32 Config.rootKeyHash.toNat ++ nonce ++ leBytes 8 at0.toNat

/-- A report: the body and its signature. -/
def reportOf (s : State) (nonce : List Byte) (at0 : BitVec 64) : List Byte :=
  let b := reportBody s nonce at0
  b ++ Config.mldsaSign s.fresh (sha3_256 b) ctxAttest

/-- The next operation of the engine begins. -/
def secNext (s : State) (rest : List Nat) : State := push { s with sec := { s.sec with order := rest, at0 := s.tb } } .crypto

/-- The result of an operation of slot 0 (R354). -/
def secResult (s : State) : State :=
  let x := s.sec
  let done := fun (s : State) (st : Nat) => irq (secShow s { s.sec with phase := 2, status := st, left := [], bytes := [], bad := false }) 5
  match x.op with
  | 1 =>
    if x.bad then done s 2
    else
      let skip := (getF s F.SEC_ADDR_LO_ADDR) % 64
      done (secDigestPut s (sha3_256 ((x.bytes.drop skip).take (getF s F.SEC_LEN_LEN)))) 0
  | 2 =>
    let ctx := secBuf s 0xEB5 (min 64 (ofLe (secBuf s 0xEB4 1)))
    done s (b2n (!(Config.mldsaVerify (secBuf s 0 1312) (secBuf s 0xE94 32) (secBuf s 0x520 2420) ctx)))
  | _ =>
    let nonce := (List.range 8).flatMap (fun k => leBytes 4 (getF s (F.SEC_NONCE_NONCE k)))
    done (secBufPut (freshen s) (reportOf s nonce x.at0)) 0

/-- An operation of the engine ends (R354, row SEC_OPERATION_DONE). -/
def secDone (s : State) : State :=
  let x := s.sec
  if cryptoUp s = false then s
  else match x.order with
    | 0 :: rest => if x.op = 1 ∧ x.bad = false ∧ (x.left ≠ [] ∨ x.asked) then s else secNext (secResult s) rest
    | _ :: rest => push (secNext { freshen s with sec := { x with report := reportOf s x.nonce x.at0, signing := false } } rest) .dict
    | [] => s

/-- REL of slot 0 (R303). -/
def secRel (s : State) : State :=
  let x := s.sec
  if x.phase ≠ 2 then s
  else
    let s1 := if x.op = 3 ∧ x.status = 0 then secBufPut s [] else s
    secShow (secDigestPut s1 []) { x with phase := 0 }

/-- A write of SEC_CMD (R354, R358). -/
def secCmd (s : State) (w : Word) : State :=
  let s0 := setF s F.SEC_CMD_OP (bits w 0 3)
  let s1 := if bit w 10 then setF s0 F.SEC_CMD_COLL 0 else s0
  let s2 := if bit w 8 then secStart s1 (bits w 0 3) else s1
  if bit w 9 then secRel s2 else s2

/-- A write of 0x2B64 subindex 1 (R354, R357): an ATTEST in slot 1. -/
def attestNonce (s : State) (nonce : List Byte) : State × Word :=
  if cryptoUp s = false ∨ s.sec.signing then (s, 0x08000022)
  else
    let x := s.sec
    (push { s with sec := { x with nonce := nonce, signing := true, order := x.order ++ [1], at0 := if x.order = [] then s.tb else x.at0 } } .crypto, 0)

end Sys2Proof.Machine
end

