-- ==== Sys2Proof/Machine/Can.lean ====
section
/-! DEFINITION. The CAN node: bus and listen-only, NMT, heartbeat, EMCY, and the frames of the SDO server (R287, R329, R331–R335,
R340). The layout of SDO frames is that of CiA 301 (log entry 24). -/

namespace Sys2Proof.Machine

/-- The node-ID in effect; 0 is taken as 127 (R332, R340). -/
def nodeId (s : State) : Nat := if effF s F.CAN_NODE_ID = 0 then 127 else effF s F.CAN_NODE_ID

/-- A classical frame leaves, unless the controller is not on the bus or is listen-only (R331). -/
def canSend (s : State) (id : Nat) (bs : List Byte) : State :=
  if busOn s ∧ isF s F.CAN_STAT_LISTEN = false then emit s (.can id bs) else s

/-- Whether Chiso takes frames of SDO and Wellhead (R287, R333). -/
def canHears (s : State) : Bool := chisoRuns s && busOn s && nmtServes s

/-- The four bytes that name an entry in an SDO frame, and four bytes of value. -/
def sdoFrame (cs ix sub : Nat) (v : List Byte) : List Byte :=
  [BitVec.ofNat 8 cs] ++ leBytes 2 ix ++ b1 sub ++ (v ++ leBytes 4 0).take 4

/-- The SDO server answers. -/
def sdoSend (s : State) (bs : List Byte) : State := canSend s (0x580 + nodeId s) bs

/-- An SDO abort frame (R329). -/
def sdoFail (s : State) (ix sub : Nat) (code : Word) : State := sdoSend s (sdoFrame 0x80 ix sub (leBytes 4 code.toNat))

/-- The bytes of a classical frame's fields in an SDO request. -/
def fByte (f : BitVec 64) (i : Nat) : Byte := BitVec.ofNat 8 (bits f (8 * i) 8)
def fIndex (f : BitVec 64) : Nat := bits f 8 16
def fSub (f : BitVec 64) : Nat := bits f 24 8
/-- The command specifier of an SDO request: 0 and 3 segments, 1 download, 2 upload, 4 abort; no other is valid. -/
def fCcs (f : BitVec 64) : Nat := bits f 5 3

/-- A request that Chiso serves in its turn (R326). -/
def askDict (s : State) (d : DReq) : State := { s with dictq := s.dictq ++ [d] }

/-- The segmented transfer that runs, or none. -/
def setSdo (s : State) (x : Option SdoXfer) : State := { s with can := { s.can with sdo := x } }

/-- A specifier that is not valid ends in an abort (R329, R334: no block transfer). -/
def sdoBad (s : State) (f : BitVec 64) : State := sdoFail (setSdo s none) (fIndex f) (fSub f) 0x05040001

/-- An SDO download request (R334): expedited, or the start of a segmented one. -/
def sdoDownload (s : State) (f : BitVec 64) : State :=
  if canHears s = false then s
  else if fCcs f ≠ 1 then sdoBad s f
  else if bit f 1 then
    let n := if bit f 0 then 4 - bits f 2 2 else 4
    askDict (setSdo s none) { src := .sdo none, index := fIndex f, sub := fSub f, wr := true, loose := !(bit f 0),
                              data := (leBytes 8 f.toNat).drop 4 |>.take n }
  else
    let x : SdoXfer := { up := false, index := fIndex f, sub := fSub f, size := if bit f 0 then some (bits f 32 32) else none }
    sdoSend (setSdo s (some x)) (sdoFrame 0x60 (fIndex f) (fSub f) [])

/-- An SDO upload request (R334). -/
def sdoUpload (s : State) (f : BitVec 64) : State :=
  if canHears s = false then s
  else if fCcs f ≠ 2 then sdoBad s f
  else askDict (setSdo s none) { src := .sdo none, index := fIndex f, sub := fSub f, wr := false, len := 0x1000000 }

/-- A segment of a download (R334): the last of them completes the write. -/
def sdoDownSeg (s : State) (x : SdoXfer) (f : BitVec 64) : State :=
  let data := x.data ++ ((leBytes 8 f.toNat).drop 1).take (7 - bits f 1 3)
  if bit f 0 = false then
    sdoSend (setSdo s (some { x with data := data, toggle := !x.toggle })) (leBytes 8 (0x20 + 16 * b2n x.toggle))
  else if x.size.isSome ∧ x.size ≠ some data.length then sdoFail (setSdo s none) x.index x.sub 0x06070010
  else askDict (setSdo s none) { src := .sdo (some x.toggle), index := x.index, sub := x.sub, wr := true, data := data }

/-- A segment of an upload (R334). -/
def sdoUpSeg (s : State) (x : SdoXfer) : State :=
  let seg := x.data.take 7
  let rest := x.data.drop 7
  let head : Byte := BitVec.ofNat 8 (16 * b2n x.toggle + 2 * (7 - seg.length) + b2n (decide (rest = [])))
  sdoSend (setSdo s (if rest = [] then none else some { x with data := rest, toggle := !x.toggle })) ((head :: seg ++ leBytes 7 0).take 8)

/-- An SDO segment (R329, R334). -/
def sdoSegment (s : State) (f : BitVec 64) : State :=
  if canHears s = false then s
  else if fCcs f ≠ 0 ∧ fCcs f ≠ 3 then sdoBad s f
  else match s.can.sdo with
    | none => sdoBad s 0
    | some x =>
      if decide (fCcs f = 3) ≠ x.up then sdoFail (setSdo s none) x.index x.sub 0x05040001
      else if bit f 4 ≠ x.toggle then sdoFail (setSdo s none) x.index x.sub 0x05030000
      else if x.up then sdoUpSeg s x
      else sdoDownSeg s x f

def isSdo : DSrc → Bool
  | .sdo _ => true
  | _ => false

def isWell : DSrc → Bool
  | .well _ => true
  | _ => false

/-- The client's abort frame ends the transfer (R329). -/
def sdoAbort (s : State) (f : BitVec 64) : State :=
  if canHears s = false then s
  else if fCcs f ≠ 4 then sdoBad s f
  else { setSdo s none with dictq := dropDict s.dictq isSdo }

/-- A frame reaches the SDO server (R334): its command specifier says what it is; one that is not valid ends in an abort (R329). -/
def sdoArrive (s : State) (f : BitVec 64) : State :=
  if fCcs f = 1 then sdoDownload s f
  else if fCcs f = 2 then sdoUpload s f
  else if fCcs f = 4 then sdoAbort s f
  else sdoSegment s f

/-- No next segment came for 1 s (R334). -/
def sdoTimeout (s : State) : State :=
  match s.can.sdo with
  | none => s
  | some x => sdoFail (flag (setSdo s none) F.CAN_ERR_SDO_TO) x.index x.sub 0x05040000

/-- The SDO server's answer to a request that was served (R329, R334). -/
def sdoDone (s : State) (d : DReq) (seg : Option Bool) (code : Word) (bs : List Byte) : State :=
  if code ≠ 0 then sdoFail s d.index d.sub code
  else if d.wr then
    match seg with
    | some t => sdoSend s (leBytes 8 (0x20 + 16 * b2n t))
    | none => sdoSend s (sdoFrame 0x60 d.index d.sub [])
  else if bs.length ≤ 4 ∧ bs ≠ [] then sdoSend s (sdoFrame (0x43 + 4 * (4 - bs.length)) d.index d.sub bs)
  else
    let x : SdoXfer := { up := true, index := d.index, sub := d.sub, data := bs }
    sdoSend (setSdo s (some x)) (sdoFrame 0x41 d.index d.sub (leBytes 4 bs.length))

/-- The boot-up frame, Pre-operational, and with AUTOSTART Operational (R333). -/
def bootUp (s : State) : State :=
  let s1 := canSend { s with can := { s.can with booted := true } } (0x700 + nodeId s) [0]
  setF s1 F.CAN_STAT_NMT (if effF s F.CAN_CTL_AUTOSTART = 1 then 2 else 1)

/-- The default COB-ID of a TPDO (R336). -/
def cobOf (s : State) (k : Nat) : Word := (nget s.can.cob k).getD (BitVec.ofNat 32 (0x80000180 + 0x100 * k + nodeId s))

/-- The key of an entry in the stored image. -/
def entryKey (ix sub : Nat) : Nat := ix * 256 + sub

/-- The indexes whose stored value the image holds, with that value as a number. -/
def imageMap (img : NMap (List Byte)) (ix sub : Nat) : NMap Nat :=
  (List.range 4).filterMap (fun k => (nget img (entryKey (ix + k) sub)).map (fun v => (k, ofLe v)))

/-- The communication objects take their stored values, or their defaults (R328, R333). -/
def commObjects (s : State) : State :=
  let img := s.journal.image
  let words := fun (k : Nat) => (List.range 8).map (fun i => BitVec.ofNat 32 (((nget img (entryKey (0x1A00 + k) (i + 1))).map ofLe).getD 0))
  { s with can := { s.can with
      heart := BitVec.ofNat 16 (((nget img (entryKey 0x1017 0)).map ofLe).getD 0),
      cob := (imageMap img 0x1800 1).map (fun e => (e.1, BitVec.ofNat 32 e.2)),
      ttype := imageMap img 0x1800 2, inhibit := imageMap img 0x1800 3, timer := imageMap img 0x1800 5,
      mapping := (List.range 4).map (fun k => (k, words k)), mapN := imageMap img 0x1A00 0, due := [], sentTb := [] } }

/-- Every SDO and Wellhead transfer ends (R333). -/
def endTransfers (s : State) : State :=
  { s with can := { s.can with sdo := none, well := none }, dictq := dropDict s.dictq (fun d => isSdo d || isWell d) }

/-- Reset communication (R333). -/
def nmtReset (s : State) : State := bootUp (commObjects (endTransfers s))

/-- The registers of the CAN block that the stored image holds take their stored values and effect, the others their defaults
(R333: reset node). -/
def reloadCan (s : State) : State :=
  [R.CAN_CTL, R.CAN_NODE, R.CAN_RATE, R.CAN_WH].foldl (fun s o =>
    let w := match nget s.journal.image (entryKey 0x2060 ((o - R.CAN_CTL) / 4 + 1)) with
      | some v => BitVec.ofNat 32 (ofLe v)
      | none => resetWord o
    setEff (wr s o w) o w) s

/-- Whether an NMT command reaches the node (R333): booted, on the bus, and addressed to it or to all. -/
def nmtHears (s : State) (node : Nat) : Bool :=
  chisoRuns s && busOn s && s.can.booted && decide (getF s F.CAN_STAT_NMT ≠ 0) && decide (node = 0 ∨ node = nodeId s)

/-- An NMT command that sets the state (R333). -/
def nmtSet (s : State) (node v : Nat) : State := if nmtHears s node then setF s F.CAN_STAT_NMT v else s

def nmtResetCommunication (s : State) (node : Nat) : State := if nmtHears s node then nmtReset s else s
def nmtResetNode (s : State) (node : Nat) : State := if nmtHears s node then nmtReset (reloadCan s) else s

/-- The heartbeat frame (R333). -/
def heartbeat (s : State) : State :=
  let st := getF s F.CAN_STAT_NMT
  if chisoRuns s ∧ s.can.booted ∧ s.can.heart ≠ 0 ∧ st ≠ 0 then
    canSend s (0x700 + nodeId s) [if st = 3 then 0x04 else if st = 2 then 0x05 else 0x7F]
  else s

/-- The first queued EMCY leaves (R335), once the bus and the NMT state let it. -/
def emcySend (s : State) : State :=
  match s.can.emcy with
  | [] => s
  | e :: rest =>
    if canHears s ∧ isF s F.CAN_STAT_LISTEN = false then canSend { s with can := { s.can with emcy := rest } } (0x080 + nodeId s) e
    else s

/-- Bus-off (R331). The counters read a free value while it lasts (log entry 2). -/
def busOff (s : State) : State :=
  if busOn s then
    let w := Config.freeWord s.fresh
    let s1 := setF (setF (freshen s) F.CAN_STAT_TEC (bits w 0 8)) F.CAN_STAT_REC (bits w 8 8)
    flag (setF s1 F.CAN_STAT_BUS 3) F.CAN_ERR_BUSOFF
  else s

/-- The standard recovery has ended (R331): error active, counters zero. -/
def busRecovered (s : State) : State :=
  if getF s F.CAN_STAT_BUS = 3 then setF (setF (setF s F.CAN_STAT_BUS 1) F.CAN_STAT_TEC 0) F.CAN_STAT_REC 0 else s

/-- The reference is TRO and not trimmed: listen-only (R331). -/
def listens (s : State) : Bool := decide (getF s F.CLK_STAT_RREF = 1) && isF s F.CLK_STAT_TRIMMED = false

/-- Chiso starts a CAN trim while listen-only with SRC 0 (R331). -/
def canTrim (s : State) : State :=
  if chisoRuns s ∧ listens s ∧ getF s F.CLK_TRIM_SRC = 0 then
    trimStart (setF s F.CLK_TRIM_CAN_BIT ([800, 400, 200, 100].getD (effF s F.CAN_RATE_NOM) 200))
  else s

end Sys2Proof.Machine
end

