-- ==== Sys2Proof/Machine/Dict.lean ====
section
/-! DEFINITION. The object dictionary: which entries there are, what a read of one gives and what a write of one does, the stored
image, and storing and restoring (R189, R324–R329, R332, R336, R357). -/

namespace Sys2Proof.Machine

/-- The index ranges that map registers: first index, how many indexes, and the CSR offset of the first (R325). -/
def dictBases : List (Nat × Nat × Nat) :=
  [(0x2000, 0x40, 0x0), (0x2040, 0x20, 0xC0000), (0x2060, 0x20, 0xD0000), (0x2180, 0x80, 0x60000), (0x2200, 0x100, 0xB0000),
   (0x2400, 0x80, 0x90000), (0x2480, 1, 0xA0000), (0x2482, 1, 0xA0200), (0x2500, 1, 0xA0100), (0x2700, 0x100, 0x50000),
   (0x2800, 0x100, 0x30000), (0x2900, 0x100, 0x40000), (0x2B00, 0x60, 0x80000), (0x2B80, 0x80, 0x70000), (0x2C00, 0x100, 0xE0000),
   (0x2D00, 0x80, 0x20000), (0x2D80, 0x80, 0x10000)]
    ++ (List.range 6).map (fun n => (0x2300 + 0x20 * n, 0x20, 0x300000 + n * 0x10000))
    ++ (List.range 4).map (fun n => (0x2600 + 0x40 * n, 0x40, 0x400000 + n * 0x40000))
    ++ (List.range 3).map (fun n => (0x2A00 + 0x20 * n, 0x20, 0x380000 + n * 0x10000))
    ++ (List.range 32).map (fun n => (0x3000 + 0x20 * n, 0x20, 0x100000 + n * 0x10000))

/-- The CSR offset of subindex 1 of an index in a block's range (R325, R386). -/
def csrPage (ix : Nat) : Option Nat :=
  (dictBases.find? (fun b => decide (b.1 ≤ ix) && decide (ix < b.1 + b.2.1))).map (fun b => b.2.2 + (ix - b.1) * 256)

/-- The entry of a register (R325). -/
def entryOf (off : Nat) : Nat :=
  match dictBases.find? (fun b => decide (b.2.2 ≤ off) && decide (off < b.2.2 + b.2.1 * 256)) with
  | none => 0
  | some b => entryKey (b.1 + (off - b.2.2) / 256) (off % 256 / 4 + 1)

/-- The register of an entry's key, for a key of the register ranges (R325). -/
def registerOf (key : Nat) : Option Nat :=
  (csrPage (key / 256)).bind (fun o => if 1 ≤ key % 256 ∧ key % 256 ≤ 64 then some (o + (key % 256 - 1) * 4) else none)

/-- What an index and a subindex name (R324, R325, R332, R357). `size` is a fixed length in bytes; none for a DOMAIN, and for a
string. `dom` marks a DOMAIN. -/
inductive Ent where
  | noIndex
  | noSub
  | reg (off : Nat)
  | val (size : Option Nat) (rd wr dom : Bool)
deriving DecidableEq, Repr

def entRo (n : Nat) : Ent := .val (some n) true false false
def entRw (n : Nat) : Ent := .val (some n) true true false
def entWo (n : Nat) : Ent := .val (some n) false true false
def entText : Ent := .val none true false false
def entDom (wr : Bool) : Ent := .val none true wr true

/-- A subindex of an index that has `l` as its entries 1 and up; subindex 0 holds the highest (R324). -/
def subsOf (l : List Ent) (sub : Nat) : Ent := if sub = 0 then entRo 1 else l.getD (sub - 1) .noSub

/-- An index that has subindex 0 alone. -/
def onlyOf (e : Ent) (sub : Nat) : Ent := if sub = 0 then e else .noSub

/-- Chiso's own entries (R332, R357). -/
def chisoEnt (ix sub : Nat) : Ent :=
  if ix = 0x1000 then onlyOf (entRo 4) sub
  else if ix = 0x1001 then onlyOf (entRo 1) sub
  else if 0x1008 ≤ ix ∧ ix ≤ 0x100A then onlyOf entText sub
  else if ix = 0x1010 ∨ ix = 0x1011 then subsOf [entRw 4, entRw 4, entRw 4] sub
  else if ix = 0x1017 then onlyOf (entRw 2) sub
  else if ix = 0x1018 then subsOf [entRo 4, entRo 4, entRo 4, entRo 4] sub
  else if ix = 0x1200 then subsOf [entRo 4, entRo 4] sub
  else if 0x1800 ≤ ix ∧ ix < 0x1804 then subsOf [entRw 4, entRw 1, entRw 2, .noSub, entRw 2] sub
  else if 0x1A00 ≤ ix ∧ ix < 0x1A04 then (if sub = 0 then entRw 1 else if sub ≤ 8 then entRw 4 else .noSub)
  else if ix = 0x2B60 then subsOf [entDom true, entDom true] sub
  else if ix = 0x2B61 then subsOf [entRw 1, entRw 4, entRw 4, entRw 4, entRw 4, entWo 1, entRo 1] sub
  else if ix = 0x2B62 then subsOf [entDom true, entDom true] sub
  else if ix = 0x2B63 then subsOf [entWo 1, entWo 1, entRo 1] sub
  else if ix = 0x2B64 then subsOf [entWo 32, entDom false] sub
  else if ix = 0x2B65 then subsOf [entDom false, entDom false] sub
  else if 0x2B66 ≤ ix ∧ ix < 0x2B80 then .noSub
  else .noIndex

/-- The entry at an index and a subindex. -/
def entAt (ix sub : Nat) : Ent :=
  match csrPage ix with
  | some o =>
    if sub = 0 then entRo 1
    else if 64 < sub then .noSub
    else .reg (o + 4 * (sub - 1))
  | none => chisoEnt ix sub

/-- The highest subindex of an index of Chiso's. -/
def topSub (ix : Nat) : Nat :=
  if ix = 0x1010 ∨ ix = 0x1011 then 3
  else if ix = 0x1018 then 4
  else if ix = 0x1200 then 2
  else if 0x1800 ≤ ix ∧ ix < 0x1804 then 5
  else if ix = 0x2B61 then 7
  else if ix = 0x2B63 then 3
  else 2

/-- The lines a DOMAIN of a boot slot reads, none if one of them is poisoned (R234). -/
def bootRange (s : State) (k off len : Nat) : Option (List Byte) :=
  let n := min len (0x1000000 - off)
  if n = 0 then some []
  else
    let ls := (List.range ((off + n - 1) / 64 - off / 64 + 1)).map (fun i => bootLatest s ((196 + 16 * k) * 16384 + off / 64 + i))
    if ls.any (fun c => c.poison) then none
    else some (((ls.flatMap (fun c => lineBytes c.data 0 64)).drop (off % 64)).take n)

/-- The bytes of "AX6440". -/
def deviceName : List Byte := [0x41, 0x58, 0x36, 0x34, 0x34, 0x30]

/-- The silicon revision, a letter and a digit (R332, R387). -/
def revisionText : List Byte :=
  [0x40 + BitVec.ofNat 8 (bits Config.revision 4 4), 0x30 + BitVec.ofNat 8 (bits Config.revision 0 4)]

/-- The words of a TPDO's mapping. -/
def mapWords (s : State) (k : Nat) : List Word := (nget s.can.mapping k).getD (List.replicate 8 0)
def mapCount (s : State) (k : Nat) : Nat := (nget s.can.mapN k).getD 0
/-- A TPDO's transmission type; 255 where nothing was written (log entry 25). -/
def typeOf (s : State) (k : Nat) : Nat := (nget s.can.ttype k).getD 255

/-- What a read of one of Chiso's entries returns: bytes, poisoned data, or nothing yet. -/
inductive DVal where
  | bytes (bs : List Byte)
  | fails (code : Word)
  | wait
deriving DecidableEq, Repr

/-- A read of one of Chiso's entries (R332, R336, R348, R357). -/
def valRead (s : State) (ix sub off len : Nat) : DVal :=
  let num := fun (n v : Nat) => DVal.bytes (leBytes n v)
  let part := fun (bs : List Byte) => DVal.bytes ((bs.drop off).take len)
  if ix = 0x1000 then num 4 0
  else if ix = 0x1001 then num 1 (errorRegister s).toNat
  else if ix = 0x1008 then .bytes deviceName
  else if ix = 0x1009 then .bytes revisionText
  else if ix = 0x100A then .bytes Config.chisoVersion
  else if ix = 0x1017 then num 2 s.can.heart.toNat
  else if 0x1A00 ≤ ix ∧ ix < 0x1A04 then
    (if sub = 0 then num 1 (mapCount s (ix - 0x1A00)) else num 4 ((mapWords s (ix - 0x1A00)).getD (sub - 1) 0).toNat)
  else if sub = 0 then num 1 (if (csrPage ix).isSome then 64 else topSub ix)
  else if ix = 0x1010 ∨ ix = 0x1011 then num 4 1
  else if ix = 0x1018 then
    num 4 (match sub with
      | 1 => Config.canVendorId.toNat
      | 2 => 0x6440
      | 3 => Config.revision.toNat
      | _ => bits Config.serial 0 32)
  else if ix = 0x1200 then num 4 ((if sub = 1 then 0x600 else 0x580) + nodeId s)
  else if 0x1800 ≤ ix ∧ ix < 0x1804 then
    let k := ix - 0x1800
    match sub with
    | 1 => num 4 (cobOf s k).toNat
    | 2 => num 1 (typeOf s k)
    | 3 => num 2 ((nget s.can.inhibit k).getD 0)
    | _ => num 2 ((nget s.can.timer k).getD 0)
  else if ix = 0x2B60 then
    match bootRange s (sub - 1) off len with
    | some bs => .bytes bs
    | none => .fails 0x06060000
  else if ix = 0x2B61 then
    match sub with
    | 1 => num 1 s.journal.active
    | 2 => num 4 (bootOf s 0).len
    | 3 => num 4 (bootOf s 1).len
    | 4 => num 4 (bootOf s 0).crc.toNat
    | 5 => num 4 (bootOf s 1).crc.toNat
    | _ => num 1 (b2n (bootOf s 0).valid + 2 * b2n (bootOf s 1).valid)
  else if ix = 0x2B62 then part (if (fwLatest s (sub - 1)).shipped then Config.shippedImage else (fwLatest s (sub - 1)).image)
  else if ix = 0x2B63 then
    num 1 (b2n (fwLatest s 0).good + 2 * b2n (fwLatest s 0).tried + 4 * b2n (fwLatest s 1).good + 8 * b2n (fwLatest s 1).tried)
  else if ix = 0x2B64 then
    (if s.sec.signing then .wait else if s.sec.report = [] then .fails 0x08000022 else part s.sec.report)
  else if ix = 0x2B65 then part (if sub = 1 then Config.identityKey else Config.certificate)
  else .fails 0x06020000

/-- The blocks of which there is one, and where each starts (R385). -/
def singleBases : List (Blk × Nat) :=
  [(.gen, 0x0), (.cfg, 0x10000), (.evq, 0x20000), (.clk, 0x30000), (.pmu, 0x40000), (.phu, 0x50000), (.mop, 0x60000),
   (.crc, 0x70000), (.sec, 0x80000), (.cst, 0x90000), (.pmp, 0xA0000), (.dir, 0xB0000), (.pci, 0xC0000), (.can, 0xD0000),
   (.msr, 0xE0000), (.feda, 0x380000)]

/-- The blocks and where each starts (R385). -/
def blockBases : List (Blk × Nat) :=
  singleBases ++ (List.range 32).map (fun n => (Blk.slc, 0x100000 + n * 0x10000))
    ++ (List.range 6).map (fun n => (Blk.apt, 0x300000 + n * 0x10000))
    ++ (List.range 3).map (fun n => (Blk.fed, 0x380000 + n * 0x10000))
    ++ (List.range 4).map (fun n => (Blk.mch, 0x400000 + n * 0x40000))

/-- Whether a row holds an RW field of class P or S (R327). -/
def rowStored (r : RegRow) : Bool := r.flds.any (fun f => decide (f.acc = .rw) && decide (f.app = .p ∨ f.app = .s))

/-- The registers whose entries are stored (R327). -/
def storedRegs : List Nat :=
  (blockBases.flatMap (fun b => ((rowsOf b.1).filter rowStored).flatMap (rowOffs b.2))).filter
      (fun o => decide (o ≠ R.PMP_DRN_CTL ∧ o ≠ R.PMP_PRIME_LIM ∧ o ≠ R.CST_SPLIT))
    ++ [R.MOP_CTL, R.EVQ_CFG, R.EVQ_IRQ_AG, R.EVQ_IRQ_HOST, R.EVQ_IRQ_NET, R.CLK_TRIM, R.CLK_TRIM_CAN]
    ++ (List.range 4).map R.MCH_MARK_CFG

/-- Whether a register belongs to the communication group: the CAN block (R328). -/
def isCanReg (o : Nat) : Bool := decide (0xD0000 ≤ o) && decide (o < 0xE0000)

/-- The communication objects as the image holds them. -/
def commImage (s : State) (img : NMap (List Byte)) : NMap (List Byte) :=
  (List.range 4).foldl (fun img k =>
    let put := fun (img : NMap (List Byte)) (ix sub n v : Nat) => nset img (entryKey (ix + k) sub) (leBytes n v)
    let a := put (put img 0x1800 1 4 (cobOf s k).toNat) 0x1800 2 1 (typeOf s k)
    let b := put (put a 0x1800 3 2 ((nget s.can.inhibit k).getD 0)) 0x1800 5 2 ((nget s.can.timer k).getD 0)
    (List.range 8).foldl (fun img i => put img 0x1A00 (i + 1) 4 ((mapWords s k).getD i 0).toNat) (put b 0x1A00 0 1 (mapCount s k)))
    (nset img (entryKey 0x1017 0) (leBytes 2 s.can.heart.toNat))

/-- The entries that storing a group writes (R328): 1 all, 2 communication, 3 application. An entry whose block is off keeps what the
image holds. -/
def storeImage (s : State) (g : Nat) : NMap (List Byte) :=
  let mine := storedRegs.filter (fun o => (decide (g = 1) || decide (g = 2) == isCanReg o) && blockUp s o)
  let img := mine.foldl (fun img o => nset img (entryOf o) (leBytes 4 (raw s o).toNat)) []
  if g = 3 then img else commImage s img

/-- Every stored entry at its default (R327, R328). -/
def defaultImage (s : State) : NMap (List Byte) :=
  let s0 := commObjects { s with journal := { s.journal with image := [] } }
  commImage s0 (storedRegs.foldl (fun m o => nset m (entryOf o) (leBytes 4 (resetWord o).toNat)) [])

/-- Every stored entry with its stored value, else its default; 0x2B61 subindex 1 is one of them (R327, R353, R357). -/
def storedEntries (s : State) : NMap (List Byte) :=
  nset (s.journal.image.foldl (fun m e => nset m e.1 e.2) (defaultImage s)) (entryKey 0x2B61 1) [BitVec.ofNat 8 s.journal.active]

/-- SEC_ODDG shows the digest of the persistent image (R353). -/
def showOddg (s : State) : State :=
  let d := sha3_256 ((storedEntries s).flatMap (fun e => leBytes 2 (e.1 / 256) ++ leBytes 1 (e.1 % 256) ++ leBytes 2 e.2.length ++ e.2))
  (List.range 8).foldl (fun s k => setF s (F.SEC_ODDG_DG k) (ofLe ((d.drop (4 * k)).take 4))) s

/-- Whether an entry of the image belongs to a group. -/
def keyComm (key : Nat) : Bool := decide (key < 0x200000) || (decide (0x206000 ≤ key) && decide (key < 0x216000))

/-- What the records of a copy of the journal come to (R189, R328, R347): the image, the entries of a batch that has not ended, the active boot
slot, the slots' headers, the locations for fuse spares and the channels' marks. -/
structure Live where
  image  : NMap (List Byte) := []
  batch  : NMap (List Byte) := []
  active : Option Nat := none
  boots  : NMap BootHdr := []
  fuses  : List RepairLoc := []
  marks  : NMap Nat := []
deriving DecidableEq, Repr

/-- The entries of a batch take their values (R328). -/
def putEntries (img batch : NMap (List Byte)) : NMap (List Byte) := batch.foldl (fun (m : NMap (List Byte)) (e : Nat × List Byte) => nset m e.1 e.2) img

/-- One record more: a batch without its end is not applied, and a group marked for its defaults loses what was stored before (R328). -/
def Live.take (x : Live) (v : JVal) : Live :=
  match v with
  | .entry k bs => { x with batch := nset x.batch k bs }
  | .batchEnd => { x with image := putEntries x.image x.batch, batch := [] }
  | .boot k h => { x with boots := nset x.boots k h }
  | .active k => { x with active := some k }
  | .defaults g => { x with image := x.image.filter (fun (e : Nat × List Byte) => keyComm e.1 != decide (g = 2)), active := if g = 3 then none else x.active }
  | .fuse loc => { x with fuses := x.fuses ++ [loc] }
  | .mark i d => { x with marks := match d with
      | some d => nset x.marks i d
      | none => nerase x.marks i }

/-- The records up to the first whose check fails (R189). -/
def JCopy.sound (x : JCopy) : List JRec := x.recs.takeWhile (fun r => r.ok)
def liveOf (l : List JRec) : Live := l.foldl (fun x r => x.take r.val) {}

/-- Every live value, as a snapshot holds them (R189). -/
def Live.vals (x : Live) : List JVal :=
  x.image.map (fun (e : Nat × List Byte) => JVal.entry e.1 e.2) ++ [.batchEnd] ++ x.active.toList.map JVal.active
    ++ x.boots.map (fun (e : Nat × BootHdr) => JVal.boot e.1 e.2) ++ x.fuses.map JVal.fuse ++ x.marks.map (fun (e : Nat × Nat) => JVal.mark e.1 (some e.2))

/-- What a request ends with: an answer, or a wait for another unit. -/
inductive DOut where
  | done (s : State) (code : Word) (bs : List Byte)
  | wait (s : State)
deriving DecidableEq, Repr

/-- Records go to the settings store, and the answer waits until copy B has confirmed them (R189). -/
def journalAsk (s : State) (vals : List JVal) : State :=
  journalTend { freshen s with journal := { s.journal with jobs := s.journal.jobs ++ [{ vals := vals, lines := openLines s 5, answer := true }] } }

/-- A write of 0x1010 (R328): the entries of the group, as one batch. -/
def storeGroup (s : State) (g : Nat) : State := journalAsk s ((storeImage s g).map (fun (e : Nat × List Byte) => JVal.entry e.1 e.2) ++ [.batchEnd])

/-- A write of 0x1011 (R328): the groups that take their defaults at the next start. -/
def restoreGroup (s : State) (g : Nat) : State := journalAsk s (if g = 1 then [.defaults 2, .defaults 3] else [.defaults g])

/-- A write of a TPDO's communication parameters or of its mapping (R336). The valid bit and the count may change while the other is as
the rule asks (log entry 25). -/
def tpdoWrite (s : State) (ix sub v : Nat) : State × Word :=
  let k := ix % 4
  let w : Word := BitVec.ofNat 32 v
  let off := bit (cobOf s k) 31
  if ix < 0x1A00 then
    match sub with
    | 1 =>
      if bits w 0 31 ≠ bits (cobOf s k) 0 31 ∧ ¬ (off = true ∧ mapCount s k = 0) then (s, 0x08000022)
      else ({ s with can := { s.can with cob := nset s.can.cob k w } }, 0)
    | 2 => if v ≠ 254 ∧ v ≠ 255 then (s, 0x06090030) else ({ s with can := { s.can with ttype := nset s.can.ttype k v } }, 0)
    | 3 => ({ s with can := { s.can with inhibit := nset s.can.inhibit k v } }, 0)
    | _ => ({ s with can := { s.can with timer := nset s.can.timer k v } }, 0)
  else if sub = 0 then
    let ws := (mapWords s k).take v
    if off = false then (s, 0x08000022)
    else if 8 < v then (s, 0x06090030)
    else if ws.any (fun m => decide (m = 0)) then (s, 0x06040041)
    else if 64 < sumOf (ws.map (fun m => bits m 0 8)) then (s, 0x06040042)
    else ({ s with can := { s.can with mapN := nset s.can.mapN k v } }, 0)
  else if off = false ∨ mapCount s k ≠ 0 then (s, 0x08000022)
  else match entAt (bits w 16 16) (bits w 8 8) with
    | .noIndex => (s, 0x06020000)
    | .noSub => (s, 0x06090011)
    | .val _ _ _ _ => (s, 0x06040041)
    | _ =>
      if bits w 0 8 ≠ 32 then (s, 0x06070010)
      else ({ s with can := { s.can with mapping := nset s.can.mapping k ((mapWords s k).set (sub - 1) w) } }, 0)

/-- A write of one of Chiso's entries (R328, R332, R336, R346–R348, R357). -/
def valWrite (s : State) (ix sub off : Nat) (bs : List Byte) : DOut :=
  let v := ofLe bs
  let out := fun (r : State × Word) => DOut.done r.1 r.2 []
  let keep := fun (r : State × Word) (f : State → JVal) => if r.2 = 0 then DOut.wait (journalAsk r.1 [f r.1]) else DOut.done r.1 r.2 []
  let header := fun (k : Nat) (h : BootHdr) => DOut.wait (journalAsk (setBoot s k h) [.boot k h])
  if ix = 0x1010 then (if v = 0x65766173 then .wait (storeGroup s sub) else .done s 0x08000020 [])
  else if ix = 0x1011 then (if v = 0x64616F6C then .wait (restoreGroup s sub) else .done s 0x08000020 [])
  else if ix = 0x1017 then .done { s with can := { s.can with heart := BitVec.ofNat 16 v } } 0 []
  else if ix < 0x2000 then out (tpdoWrite s ix sub v)
  else if ix = 0x2B60 then out (bootWrite s (sub - 1) off bs)
  else if ix = 0x2B61 then
    match sub with
    | 1 => keep (bootActive s v) (fun _ => .active v)
    | 2 => if v ≤ 0x1000000 then header 0 { bootOf s 0 with len := v } else .done s 0x06090030 []
    | 3 => if v ≤ 0x1000000 then header 1 { bootOf s 1 with len := v } else .done s 0x06090030 []
    | 4 => header 0 { bootOf s 0 with crc := BitVec.ofNat 32 v }
    | 5 => header 1 { bootOf s 1 with crc := BitVec.ofNat 32 v }
    | _ => keep (bootValidate s v) (fun t => .boot v (bootOf t v))
  else if ix = 0x2B62 then out (firmwareWrite s (sub - 1) off bs)
  else if ix = 0x2B63 then out (if sub = 1 then firmwareActivate s v else rollbackCommit s v)
  else out (attestNonce s bs)

/-- The first check a request fails, 0 for none (R324, R329, R330): the entry, its access, its length, and an offset where the entry is
no DOMAIN. -/
def entCheck (e : Ent) (d : DReq) : Word :=
  match e with
  | .noIndex => 0x06020000
  | .noSub => 0x06090011
  | .val size rd wr dom =>
    if d.wr ∧ wr = false then 0x06010002
    else if d.wr = false ∧ rd = false then 0x06010001
    else if dom = false ∧ d.off ≠ 0 then 0x06090030
    else if d.wr ∧ d.loose = false ∧ size.isSome ∧ size ≠ some d.data.length then 0x06070010
    else 0
  | _ =>
    if d.off ≠ 0 then 0x06090030
    else if d.wr ∧ d.loose = false ∧ d.data.length ≠ 4 then 0x06070010
    else 0

/-- The data of a write, cut to the entry's length where the frame did not say one. -/
def entData (e : Ent) (d : DReq) : List Byte :=
  match e with
  | .val (some n) _ _ _ => d.data.take n
  | _ => d.data

/-- Chiso serves one request of an entry (R326). A register is reached at the CSR root (R325), where an offset without one reads 0 and ignores
writes (R294). -/
def dictEntry (s : State) (d : DReq) : DOut :=
  let e := entAt d.index d.sub
  let c := entCheck e d
  if c ≠ 0 then .done s c []
  else match e with
    | .reg off => .wait (push s (.csr { m := .net, src := .dict, off := off, wr := d.wr, w := BitVec.ofNat 64 (ofLe d.data) }))
    | _ =>
      if d.wr then valWrite s d.index d.sub d.off (entData e d)
      else match valRead s d.index d.sub d.off d.len with
        | .bytes bs => .done s 0 bs
        | .fails c => .done s c []
        | .wait => .wait s

/-- While every slot is refused, the ROM answers on the mailboxes alone, and only these entries (R344). -/
def romEntry (s : State) (d : DReq) : DOut :=
  match d.src with
  | .mbx _ => if d.index = 0x2B62 ∨ (d.index = 0x2B63 ∧ d.sub = 1) then dictEntry s d else .done s 0x08000022 []
  | _ => .wait s

end Sys2Proof.Machine
end

