-- ==== Sys2Proof/Machine/Well.lean ====
section
/-! DEFINITION. The Wellhead sessions, and how Chiso serves dictionary requests one at a time and answers them (R107, R189, R234, R326,
R329, R337, R338). -/

namespace Sys2Proof.Machine

/-- The session that runs, or none. -/
def setWell (s : State) (x : Option Well) : State := { s with can := { s.can with well := x } }

/-- A frame of the node, 64 bytes (R337). -/
def wellSend (s : State) (bs : List Byte) : State :=
  if busOn s ∧ isF s F.CAN_STAT_LISTEN = false then
    emit s (.canFd (effF s F.CAN_WH_BASE + 0x80 + nodeId s) ((bs ++ List.replicate 64 0).take 64))
  else s

/-- A frame that carries a code in bytes 4 to 7: DONE and ABORT. -/
def wellCode (s : State) (op : Nat) (code : Word) : State := wellSend s (b1 op ++ leBytes 3 0 ++ leBytes 4 code.toNat)

/-- An ABORT ends the session (R338). -/
def wellStop (s : State) : State := flag { setWell s none with dictq := dropDict s.dictq isWell } F.CAN_ERR_WH_ABORT
def wellFail (s : State) (code : Word) : State := wellCode (wellStop s) 7 code

/-- The node asks Chiso for the next line that a reading client may be sent (R326, R338). -/
def wellAsk (s : State) (x : Well) : State × Well :=
  if x.left = 0 ∧ x.asked < x.length ∧ x.data.length < 60 * (x.acked + 16) then
    let a := x.addr + x.asked
    let n := min (64 - a % 64) (x.length - x.asked)
    (askDict s { src := .well x.id, index := x.index, sub := x.sub, wr := false, off := a, len := n, memory := x.memory },
     { x with left := 1, asked := x.asked + n })
  else (s, x)

/-- DATA frames leave, 16 unacknowledged at most, each of 60 bytes but the last (R337, R338). -/
def wellData (s : State) (x : Well) : Nat → State × Well
  | 0 => (s, x)
  | n + 1 =>
    let p := (x.data.drop (60 * x.seq)).take 60
    if x.seq < x.acked + 16 ∧ p ≠ [] ∧ (p.length = 60 ∨ x.data.length = x.length) then
      wellData (wellSend s (b1 3 ++ b1 (x.seq % 256) ++ leBytes 2 p.length ++ p)) { x with seq := x.seq + 1 } n
    else (s, x)

/-- A session that reads goes on: END and DONE once everything is acknowledged (R337, R338; log entry 26). -/
def wellPump (s : State) (x : Well) : State :=
  let a := wellAsk s x
  let d := wellData a.1 a.2 16
  if d.2.data.length = d.2.length ∧ d.2.length ≤ 60 * d.2.acked then
    wellCode (wellSend (setWell d.1 none) (b1 5 ++ leBytes 3 0 ++ leBytes 4 (crc32c d.2.data).toNat)) 6 0
  else setWell d.1 (some d.2)

/-- A session that writes ends with DONE once END came and every line is done (R338). -/
def wellFinish (s : State) (x : Well) : State :=
  if x.ending ∧ x.left = 0 then wellCode (setWell s none) 6 x.code else setWell s (some x)

/-- An OP that is not valid (R329). -/
def wellBad (s : State) : State := if s.can.well.isSome then wellFail s 0x05040001 else wellCode s 7 0x05040001

/-- The fields of a frame. -/
def wByte (f : Line) (i : Nat) : Nat := (lineByte f i).toNat
def wOp (f : Line) : Nat := wByte f 0
def wNum (f : Line) (off n : Nat) : Nat := ofLe (lineBytes f off n)

/-- Whether a region may be moved (R29, R338): Normal and Boot are read, Normal is written, Device is neither. -/
def wellRegion (s : State) (wr : Bool) (a : Nat) : Word :=
  match route s a with
  | some (.device, _) => 0x06010000
  | some (.boot, _) => if wr then 0x06010000 else 0
  | _ => 0

/-- The code an OPEN is refused with, 0 for none (R329, R337, R338). -/
def wellRefuse (s : State) (dir kind ix sub addr : Nat) : Word :=
  if 1 < dir ∨ 1 < kind then 0x06090030
  else if kind = 1 then wellRegion s (decide (dir = 1)) addr
  else match entAt ix sub with
    | .noIndex => 0x06020000
    | .noSub => 0x06090011
    | .val _ rd wr true => if dir = 1 ∧ wr = false then 0x06010002 else if dir = 0 ∧ rd = false then 0x06010001 else 0
    | _ => 0x06010000

/-- Whether the node takes Wellhead frames (R333, R340). -/
def wellHears (s : State) : Bool := canHears s && decide (effF s F.CAN_WH_EN = 1)

/-- OPEN (R337, R338). A write queues whole lines; its first is the first that begins in the session. -/
def wellOpen (s : State) (f : Line) : State :=
  if wellHears s = false then s
  else if wOp f ≠ 1 then wellBad s
  else if s.can.well.isSome then wellCode s 7 0x08000022
  else
    let c := wellRefuse s (wByte f 4) (wByte f 5) (wNum f 6 2) (wByte f 8) (wNum f 16 8)
    if c ≠ 0 then wellCode s 7 c
    else
      let wr := decide (wByte f 4 = 1)
      let a := wNum f 16 8
      let n := wNum f 24 4
      let x : Well := { id := s.can.wellNext, wr := wr, memory := decide (wByte f 5 = 1), index := wNum f 6 2, sub := wByte f 8, addr := a,
                        length := n, asked := if wr then min ((64 - a % 64) % 64) n else 0 }
      let s1 := wellSend { s with can := { s.can with wellNext := s.can.wellNext + 1 } } (b1 2 ++ leBytes 3 0 ++ b1 16)
      if wr then setWell s1 (some x) else wellPump s1 x

/-- A run of a session's data goes to Chiso to be written. -/
def wellWrite (s : State) (x : Well) (off n : Nat) : State × Well :=
  if n = 0 then (s, x)
  else (askDict s { src := .well x.id, index := x.index, sub := x.sub, wr := true, off := x.addr + off, memory := x.memory,
                    data := (x.data.drop off).take n }, { x with left := x.left + 1 })

/-- The line that has become complete is written (R338). A frame completes one at most. -/
def wellLines (s : State) (x : Well) : State × Well :=
  if x.asked + 64 ≤ x.data.length then
    let r := wellWrite s x x.asked 64
    (r.1, { r.2 with asked := x.asked + 64 })
  else (s, x)

/-- ACK names the last DATA accepted in order (R337, R338; log entry 26). -/
def wellAck (s : State) (x : Well) : State := wellSend s (b1 4 ++ b1 ((x.seq + 255) % 256))

/-- DATA of a client that writes (R337, R338). -/
def wellTake (s : State) (f : Line) : State :=
  if wellHears s = false then s
  else if wOp f ≠ 3 then wellBad s
  else match s.can.well with
    | none => s
    | some x =>
      let n := wNum f 2 2
      if x.wr = false then wellBad s
      else if wByte f 1 ≠ x.seq % 256 then wellAck s x
      else if n = 0 ∨ 60 < n ∨ x.length < x.data.length + n then wellFail s 0x06070010
      else
        let r := wellLines s { x with data := x.data ++ lineBytes f 4 n, seq := x.seq + 1 }
        let s1 := setWell r.1 (some r.2)
        if r.2.seq % 16 = 0 ∨ r.2.data.length = r.2.length then wellAck s1 r.2 else s1

/-- ACK of a client that reads (R338): what it names is done with, and the frames after it leave again. -/
def wellAcked (s : State) (f : Line) : State :=
  if wellHears s = false then s
  else if wOp f ≠ 4 then wellBad s
  else match s.can.well with
    | none => s
    | some x =>
      let k := (wByte f 1 + 1 + (256 - x.acked % 256)) % 256
      if x.wr then wellBad s
      else if k ≤ x.seq - x.acked then wellPump s { x with acked := x.acked + k, seq := x.acked + k }
      else s

/-- END of a client that writes (R338): the CRC, the partial lines, and DONE when they are done. -/
def wellEnd (s : State) (f : Line) : State :=
  if wellHears s = false then s
  else if wOp f ≠ 5 then wellBad s
  else match s.can.well with
    | none => s
    | some x =>
      if x.wr = false then wellBad s
      else if x.ending then s
      else if (crc32c x.data).toNat ≠ wNum f 4 4 then wellFinish s { x with ending := true, code := 0x08000020 }
      else if x.data.length ≠ x.length then wellFinish s { x with ending := true, code := 0x06070010 }
      else
        let h := min ((64 - x.addr % 64) % 64) x.length
        let r := wellWrite s x 0 h
        let q := wellWrite r.1 r.2 x.asked (x.length - x.asked)
        wellFinish q.1 { q.2 with ending := true }

/-- ABORT of the client (R338). -/
def wellAbort (s : State) (f : Line) : State :=
  if wellHears s = false then s
  else if wOp f ≠ 7 then wellBad s
  else if s.can.well.isSome then wellStop s else s

/-- A frame reaches the Wellhead service (R337): its OP says what it is; one that is not valid ends the session (R329). -/
def wellArrive (s : State) (f : Line) : State :=
  if wOp f = 3 then wellTake s f
  else if wOp f = 4 then wellAcked s f
  else if wOp f = 5 then wellEnd s f
  else if wOp f = 7 then wellAbort s f
  else wellOpen s f

/-- No progress for 1 s (R338). -/
def wellTimeout (s : State) : State := if s.can.well.isSome then wellFail s 0x05040000 else s

/-- Chiso has served a line of a session (R234, R338). Data that ends before the length asked for ends the session there. -/
def wellServed (s : State) (d : DReq) (id : Nat) (code : Word) (bs : List Byte) : State :=
  match s.can.well with
  | none => s
  | some x =>
    if x.id ≠ id then s
    else if code ≠ 0 then wellFail s code
    else if x.wr then wellFinish s { x with left := x.left - 1 }
    else
      let data := x.data ++ bs
      wellPump s { x with data := data, left := 0, length := if bs.length < d.len then data.length else x.length }

/-- Whether a request can be answered: Chiso runs, or the ROM serves the mailboxes (R287, R344). -/
def dictAnswers (s : State) : Bool := chisoRuns s || decide (getF s F.PMU_MCU_STATE = 0)

/-- The request that Chiso serves is answered on its path (R326, R329); during a restart of the controller the answer waits (R24, R287). -/
def dictDone (s : State) (code : Word) (bs : List Byte) : State :=
  match s.dictq with
  | [] => s
  | d :: rest =>
    if dictAnswers s = false then { s with dictq := { d with going := true, answer := some (code, bs) } :: rest } else
    let s1 := { s with dictq := rest }
    match d.src with
    | .sdo seg => sdoDone s1 d seg code bs
    | .mbx b => mbxDone s1 b code (bs.take d.len)
    | .well id => wellServed s1 d id code bs
    | .row => emit s1 (.dict d.index d.sub code bs)
    | .ended => s1

/-- A line of physical memory that a session moves (R107, R338). -/
def dictMemory (s : State) (d : DReq) : DOut :=
  let l : LineAddr := BitVec.ofNat 40 (d.off / 64)
  let c := if 0x400000000000 ≤ d.off then 0x06060000 else wellRegion s d.wr d.off
  if c ≠ 0 then .done s c []
  else if reqClosed s then .done s 0x06060000 []
  else if d.wr then
    .wait (issue s { who := .dict, op := .write, line := l, mask := runMask (d.off % 64) d.data.length,
                     data := BitVec.ofNat 512 ((lineOf d.data).toNat <<< (8 * (d.off % 64))) })
  else .wait (issue s { who := .dict, op := .rdOnce, line := l, arg := BitVec.ofNat 12 (63 * 64) })

/-- Whether Chiso, once it has read the settings store, or the ROM can serve a request now (R287, R301, R344, R363). -/
def dictMay (s : State) (d : DReq) : Bool :=
  if chisoRuns s then s.start.settings && !(d.memory && stalled s (BitVec.ofNat 40 (d.off / 64)))
  else decide (getF s F.PMU_MCU_STATE = 0) && (match d.src with
    | .mbx _ => true
    | _ => false)

/-- Chiso takes the request at the front and answers it, or asks another unit for what it needs (R326, row
DICTIONARY_REQUEST_DONE). -/
def dictServe (s : State) : State :=
  match s.dictq with
  | [] => s
  | d :: rest =>
    if d.going ∨ dictMay s d = false then s
    else
      let s1 := { s with dictq := { d with going := true } :: rest }
      match (if chisoRuns s then (if d.memory then dictMemory s1 d else dictEntry s1 d) else romEntry s1 d) with
      | .done s2 code bs => dictDone s2 code bs
      | .wait s2 => s2

/-- A request that is itself a row of the table: served at once where nothing is before it (R326). -/
def dictRow (s : State) (ix sub : Nat) (wr : Bool) (off len : Nat) (data : List Byte) : State :=
  let s1 := askDict s { src := .row, index := ix, sub := sub, wr := wr, off := off, len := len, data := data }
  if s.dictq = [] then dictServe s1 else s1

/-- An answer that waited for Chiso is given (R287), and an upload of the report that waited for signing to end (R357). -/
def dictTend (s : State) : State :=
  match s.dictq with
  | [] => s
  | d :: _ =>
    if dictAnswers s = false then s
    else match d.answer with
    | some a => dictDone s a.1 a.2
    | none =>
    if d.going ∧ d.index = 0x2B64 ∧ d.sub = 2 ∧ d.wr = false ∧ d.memory = false ∧ s.sec.signing = false then
      match valRead s d.index d.sub d.off d.len with
      | .bytes bs => dictDone s 0 bs
      | .fails c => dictDone s c []
      | .wait => s
    else s

/-- Whether Chiso waits for another unit's answer to the request at the front. -/
def dictWaits (s : State) : Option DReq :=
  match s.dictq with
  | [] => none
  | d :: _ => if d.going && d.answer.isNone then some d else none

/-- The CSR root's answer (R293, R325). -/
def dictCsr (s : State) (w : Word) (cause : Nat) : State :=
  match dictWaits s with
  | none => s
  | some d => if cause ≠ 0 then dictDone s 0x06060000 [] else dictDone s 0 (if d.wr then [] else leBytes 4 w.toNat)

/-- A home's answer (R38, R234). -/
def dictReply (s : State) (m : Msg) : State :=
  match dictWaits s with
  | none => s
  | some d =>
    if d.memory = false then s
    else if d.wr then dictDone s (if m.opc = 0x2C then 0 else 0x06060000) []
    else if m.opc ≠ 0x30 ∨ m.poison then dictDone s 0x06060000 []
    else dictDone s 0 (lineBytes m.data (d.off % 64) d.len)

/-- Both copies switch to the regions that the snapshot fills (R189). -/
def JCopy.switched (x : JCopy) : JCopy :=
  match x.spare with
  | some p => { region := 1 - x.region, recs := p.1, used := p.2 }
  | none => x

/-- Chiso's first write to the settings store is complete in both copies (R189): a batch is in force (R328, R353), a snapshot switches them, and
a region that is 75 % full makes Chiso write a snapshot next. -/
def journalDone (s : State) (j : Job) (rest : List Job) : State :=
  let y := { s.journal with jobs := rest, stage := 0, waiting := false, seq := (s.journal.seq + j.vals.length) % 0x100000000 }
  if j.snap then { s with journal := { y with copyA := y.copyA.switched, copyB := y.copyB.switched } }
  else
    let entries := liveOf (numberRecs 0 (j.vals.filter (fun v => decide (v ≠ .batchEnd))))
    let s1 : State := if j.vals.contains .batchEnd then showOddg { s with journal := { y with image := putEntries y.image entries.batch } } else { s with journal := y }
    if 12288 ≤ s1.journal.copyA.used ∨ 12288 ≤ s1.journal.copyB.used then
      let snap : Job := { vals := (liveOf s1.journal.copyA.recs).vals, lines := openLines s1 6, snap := true }
      { freshen s1 with journal := { s1.journal with jobs := snap :: s1.journal.jobs } }
    else s1

/-- A copy of the journal is confirmed (R189, row SETTINGS_RECORD_CONFIRMED): copy B follows copy A, and then the write is complete. -/
def journalConfirm (s : State) : State :=
  match s.journal.jobs with
  | [] => s
  | j :: rest =>
    if chisoRuns s = false ∨ s.journal.waiting = false then s
    else if s.journal.stage = 1 then
      meter { s with journal := { s.journal with stage := 2, waiting := false } }
        { prio := 3, kind := .settings 2, left := j.lines,
          place := some (storeRegion 2 s.journal.copyB j.snap * 16384 + (if j.snap then 0 else s.journal.copyB.used)) }
    else
      let s1 := journalDone s j rest
      journalTend (if j.answer then dictDone s1 0 [] else s1)

end Sys2Proof.Machine
end

