-- ==== Sys2Proof/Machine/Drain.lean ====
section
/-! DEFINITION. WARN and RESET, and the drain: the gate, the peer reports, the scans, the segments, the passes and the seal
(R193–R204, R206, R209, R281, R299). -/

namespace Sys2Proof.Machine

/-- The slices that can be scanned. -/
def scanSlices (s : State) : List Nat := (List.range 32).filter (sliceUp s)

/-- The non-persistent entries of a port are discarded (R198, R206): one record with the count. -/
def discardEntries (s : State) (p : Nat) : State :=
  let x := port s p
  let k := (x.iwb.filter (fun e => !e.p && !e.atHome)).length
  if k = 0 then s
  else post (setPort s p { x with iwb := x.iwb.filter (fun e => e.p || e.atHome) }) 0x0204 (0x20 + p) (leBytes 4 k)

/-- A port domain whose agent is not UP is shed, once its buffer is empty (R198, R199; log entry 27). -/
def shedPorts (s : State) : State :=
  (List.range 6).foldl (fun s p =>
    if pdOn s (17 + p) ∧ isF s (F.APT_STAT_UP p) = false ∧ (port s p).iwb = [] then domainOff s (17 + p) else s) s

/-- A transfer of the dictionary server that is in progress ends with an error (R198, R329). -/
def dictWarn (s : State) : State :=
  let s1 := if s.can.well.isSome then wellFail s 0x06060000 else s
  match s1.can.sdo with
  | some x => sdoFail (setSdo s1 none) x.index x.sub 0x06060000
  | none => s1

/-- What a trip of WARN puts out at once (R195): SAG_WARN_N, the sag notices, and record 0x0300, whose source sends the Notify, the MSI-X message
and the EMCY. A warm reset's drain is no such trip. -/
def warnSigns (s : State) (reason : Nat) : State :=
  post (if reason = 4 then s else noticeAll { s with supply := { s.supply with sagN := true } } 1 0 0) 0x0300 0x48 (b1 reason)

/-- The drain begins (R195, R198). T_d counts from its start: for reason 1 the HOLD_SENSE crossing, 1 µs before the trip (R193, R204). -/
def drainBegin (s : State) (reason : Nat) : State :=
  let s2 := setF (setF (warnSigns s reason) F.PMP_DRN_STAT_STATE 1) F.PMP_DRN_STAT_REASON reason
  let tb := if reason = 1 then s2.tb - 100 else s2.tb
  let s3 : State := { s2 with drain := { s2.drain with stage := 1, reason := reason, tb := tb, told := [] }, start := { s2.start with running := false, primeQ := [] } }
  let s4 := if reason = 4 then s3 else (List.range 6).foldl discardEntries s3
  let s5 := commitWarn (warnSeqs (dvfsWarn (admitAll (postedWarn s4))))
  let s6 := (List.range 4).foldl mopAbort (ckptEnd s5)
  let s7 := dictWarn (dmaAbort (dmaAbort s6 0 true) 1 true)
  let s8 := (scanSlices s7).foldl (fun s n => push s (.tend n)) (shedPorts s7)
  let s9 := (List.range 6).foldl (fun s p => push s (.port p)) s8
  push (push s9 .inq) .drain

/-- WARN, for a reason (R194–R198, R209): before the new header is written there is nothing to drain; a trip during a warm reset's drain leaves
the drain as it is (R388). -/
def warn (s : State) (reason : Nat) : State :=
  if s.supply.inReset then s
  else if gated s then (if s.drain.reason = 4 ∧ reason ≠ 4 ∧ 1 ≤ s.drain.stage ∧ s.drain.stage ≤ 5 ∧ s.supply.sagN = false then warnSigns s reason else s)
  else
    if s.start.classified then drainBegin s reason
    else
      let s2 := warnSigns s reason
      allOff { s2 with drain := { s2.drain with shedWait := true, reason := reason }, start := { s2.start with running := false },
                       commit := none, mode := none, csrWaits := [], indOut := none, dictq := [] }

/-- A record of the settings store that was partly written when the writes that wait were lost fails its check (R187, R189). -/
def storeTorn (s : State) : State :=
  match s.journal.jobs with
  | [] => s
  | j :: _ =>
    let torn := fun (c : Nat) => s.cis.queue.any (fun g => decide (g.kind = .settings c ∧ g.left < j.lines)) && !j.snap
    let bad : JRec := { val := .batchEnd, seq := (s.journal.seq + 1) % 0x100000000, ok := false }
    let put := fun (x : JCopy) => { x with recs := x.recs ++ [bad] }
    let y := s.journal
    { s with journal := if torn 1 then { y with copyA := put y.copyA } else if torn 2 then { y with copyB := put y.copyB } else y }

/-- RESET (R196, R281): every block outside AON is held in reset, and the agents with it. A drain that has not sealed ends where it
stands. -/
def resetNow (s : State) : State :=
  if s.supply.inReset then s
  else
    let s0 := storeTorn s
    allOff { s0 with supply := { s.supply with inReset := true }, commit := none, mode := none, csrWaits := [], indOut := none, dictq := [],
                     start := { devid := s.start.devid }, drain := {}, mcu := {}, cis := { s.cis with queue := [] } }

/-- The comparators (R193). -/
def warnTrip (s : State) : State := warn (flag { s with supply := { s.supply with warn := true } } F.PMP_DRN_STAT_WARN) 1
def resetTrip (s : State) : State := resetNow { s with supply := { s.supply with rst := true } }
def sagClear (s : State) (isWarn : Bool) : State :=
  if isWarn then setF { s with supply := { s.supply with warn := false } } F.PMP_DRN_STAT_WARN 0
  else { s with supply := { s.supply with rst := false } }

/-- The port entries and the queue pieces that are still to reach a device's homes. -/
def queuedFor (s : State) (d : Nat) : Bool :=
  let mine := fun (l : LineAddr) => decide ((route s (l.toNat * 64)).map (·.2) = some d)
  (List.range 6).any (fun p => (port s p).iwb.any (fun e => mine e.line)) || s.pcie.inq.any (fun p => mine p.line)

/-- This device reports empty queues over each link, once (R200). -/
def reportQueues (s : State) : State :=
  (List.range 3).foldl (fun s l =>
    if isF s (F.FED_LSTAT_UP l) ∧ s.drain.told.contains l = false ∧ queuedFor s (farEnd s l) = false then
      { notice s l 5 0 0 with drain := { s.drain with told := s.drain.told ++ [l] } }
    else s) s

/-- Every present peer whose link is up has reported (R200). -/
def peersReported (s : State) : Bool :=
  (peers s).all (fun d => (vl s (linkTo s d)).noQueue || !(isF s (F.FED_LSTAT_UP (linkTo s d))))

/-- The line address of a logical line of this device's aperture. -/
def pmemAt (s : State) (k : Nat) : LineAddr := BitVec.ofNat 40 ((0x3F0000000000 + self s * 0x10000000) / 64 + k)

/-- A line of this device's PMEM aperture (R200). -/
def ownPmem (s : State) (l : LineAddr) : Bool := isPmem l && decide (pmemAt s (pmemLine l) = l)

/-- The entries a slice lists (R200): the kinds in the order 0, 2, 3 and 1. -/
def scanOf (s : State) (n : Nat) : List MEntry :=
  let x := slice s n
  let mk := fun (k : Nat) (ls : List LineAddr) => (ls.filter (ownPmem s)).map (fun l => ({ kind := k, line := pmemLine l } : MEntry))
  let home := fun (l : LineAddr) => decide (homeOf s l = n)
  let k0 := (x.ways.filter (fun w => w.2.p && w.2.dirty && !w.2.pend)).map (fun w => w.2.line) ++ (x.evb.filter (fun e => e.p)).map (fun e => e.line)
  let k2 := (List.range 6).flatMap (fun p => ((port s p).iwb.filter (fun e => e.p && home e.line)).map (fun e => e.line))
    ++ (s.pcie.inq.filter (fun p => home p.line)).map (fun p => p.line)
  let k3 := x.mshrs.map (fun m => m.req.line)
  let k1 := (x.dir.filter (fun d => decide (d.2.dst = 3 ∨ d.2.dst = 4))).map (fun d => d.2.line)
  mk 0 k0 ++ mk 2 k2 ++ mk 3 k3 ++ mk 1 k1

/-- A slice's scans end (R200, R202): its manifest, and RecallDirty for its KIND 1 entries. -/
def scanDone (s : State) (n : Nat) : State :=
  if s.drain.stage ≠ 2 ∨ sliceUp s n = false ∨ (slice s n).scanned then s
  else
    let m := scanOf s n
    let s1 := setSlice s n { slice s n with manifest := m, scanned := true, passAt := 0 }
    let s2 := (m.filter (fun e => decide (e.kind = 1))).foldl
      (fun s e => push s (.home n { who := .pump, op := .recallDirty, line := pmemAt s e.line, epoch := (slice s n).epoch })) s1
    if (scanSlices s2).all (fun k => (slice s2 k).scanned) then { s2 with drain := { s2.drain with stage := 3 } } else s2

/-- The bytes of a slice's segment (R200, R201): 32 bits an entry, 16 to a line, with unused entries 0xFFFF_FFFF. -/
def segmentBytes (l : List MEntry) : List Byte :=
  l.flatMap (fun e => leBytes 4 (e.kind <<< 22 + e.line)) ++ List.replicate (4 * ((16 - l.length % 16) % 16)) 0xFF

/-- The CRC-32C of all segments (R201), in the order of the slices. -/
def segmentsCrc (a : Area) : Word := crc32c (a.segments.flatMap (fun (e : Nat × List MEntry) => segmentBytes e.2))

/-- The CRC of the Complete record, over its entry counts and the CRC of all segments (R201; log entry 16). -/
def completeCrc (a : Area) : Word :=
  crc32c ((List.range 32).flatMap (fun n => leBytes 4 ((nget a.counts n).getD 0)) ++ leBytes 4 a.crc.toNat)

/-- The Complete record, once every segment is confirmed (R201, R202): the manifest's entries are those PMP_DRN_ENT shows (R214). -/
def completeRecord (s : State) : State :=
  if s.drain.stage = 3 ∧ (scanSlices s).all (fun n => (slice s n).segment) = true then
    let k := sumOf ((scanSlices s).map (fun n => (slice s n).manifest.length))
    let counts : NMap Nat := (scanSlices s).map (fun n => (n, (slice s n).manifest.length))
    let s1 := setF (areaWrite s 1 (fun a => { a with complete := true, entries := k, counts := counts, crc := segmentsCrc a })) F.PMP_DRN_ENT_ENTRIES k
    push { s1 with drain := { s1.drain with stage := 4 }, mdata := { s1.mdata with lastEntries := k } } .drain
  else s

/-- A segment is confirmed (R201, R202). -/
def segmentDone (s : State) (n : Nat) : State :=
  let x := slice s n
  if (s.drain.stage ≠ 2 ∧ s.drain.stage ≠ 3) ∨ x.scanned = false ∨ x.segment then s
  else completeRecord (areaWrite (setSlice s n { x with segment := true }) ((x.manifest.length + 15) / 16) (fun a => { a with segments := nset a.segments n x.manifest }))

/-- Whether a pass waits at an entry (R202). -/
def passWaits (s : State) (n : Nat) (e : MEntry) : Bool :=
  let x := slice s n
  let l := pmemAt s e.line
  let recalls := fun (r : HReq) => decide (r.op = .recallDirty) && decide (r.line = l)
  x.mshrs.any (fun m => decide (m.req.line = l)) || (List.range 6).any (fun p => (port s p).iwb.any (fun v => v.p && decide (v.line = l)))
    || s.pcie.inq.any (fun p => decide (p.line = l))
    || (decide (e.kind = 1) && (queuedHome s n .recallDirty l || x.cq.any recalls || x.held.any recalls))

/-- The line of an entry goes to the Cistern: from the surface, from the eviction buffer, or as the Cistern reads it (R202, R208). -/
def passWrite (s : State) (n : Nat) (e : MEntry) : State :=
  let x := slice s n
  let l := pmemAt s e.line
  match x.ways.find? (fun w => decide (w.2.line = l) && !w.2.pend) with
  | some w => cisHomeWrite s e.line w.2.data w.2.poison
  | none => match evbOf x l with
    | some v => cisHomeWrite s e.line v.data v.poison
    | none =>
      let r := cisRead s e.line 0
      cisHomeWrite r.2 e.line r.1.data r.1.poison

/-- A slice's pass goes on (R202): in order, a progress line after every 256 entries. -/
def passRun (s : State) (n : Nat) : Nat → State
  | 0 => s
  | k + 1 =>
    let x := slice s n
    match x.manifest.drop x.passAt with
    | [] => s
    | e :: _ =>
      if passWaits s n e then s
      else
        let s1 := passWrite s n e
        let s2 := setSlice s1 n { slice s1 n with passAt := x.passAt + 1 }
        passRun (if (x.passAt + 1) % 256 = 0 then areaWrite s2 1 (fun a => { a with progress := nset a.progress n (x.passAt + 1) }) else s2) n k

/-- The drain goes on by itself where it can; in CLOCK-HOLD it waits until TRO is ready (R199). -/
def drainTend (s : State) : State :=
  if gated s = false ∨ s.drain.shedWait ∨ holding s then s
  else
    let s2 := reportQueues (shedPorts s)
    let s3 : State := if s2.drain.stage = 1 ∧ peersReported s2 then { s2 with drain := { s2.drain with stage := 2 } } else s2
    let s4 : State := if s3.drain.stage = 2 ∧ scanSlices s3 = [] then { s3 with drain := { s3.drain with stage := 3 } } else s3
    let s5 := completeRecord s4
    if s5.drain.stage = 4 then (scanSlices s5).foldl (fun s n => passRun s n ((slice s n).manifest.length + 1)) s5 else s5

/-- The wait for the peers' reports has lasted 10 µs (R200). -/
def reportExpiry (s : State) : State :=
  if s.drain.stage = 1 then push { s with drain := { s.drain with stage := 2 } } .drain else s

/-- A forward stays unanswered for 20 µs in a drain (R202). -/
def drainFwdTimeout (s : State) (p tx : Nat) : State := if gated s then fwdTimeout s p tx else s

/-- 50 µs after a warm reset began, the entries that are left and not persistent are discarded (R206). -/
def warmEntries (s : State) : State :=
  if s.drain.stage ≠ 0 ∧ s.drain.reason = 4 then push ((List.range 6).foldl discardEntries s) .drain else s

/-- Whether a channel holds an access (R199). -/
def chanBusy (s : State) (c : Nat) : Bool :=
  let mine := fun (l : LineAddr) => decide (attrOf s l = .dram) && decide (chanOf s l = c)
  s.slices.any (fun e => e.2.mshrs.any (fun m => mine m.req.line && decide (m.wait = .fill ∨ m.wait = .confirm ∨ m.wait = .atomic))
    || e.2.evb.any (fun v => v.writing && mine v.line) || e.2.cleans.any (fun c => !c.p && mine c.line))

/-- A channel without an access is shed (R199). -/
def channelShed (s : State) (c : Nat) : State :=
  if s.drain.stage ≠ 0 ∧ s.drain.stage < 6 ∧ pdOn s (23 + c) ∧ chanBusy s c = false then domainOff s (23 + c) else s

/-- The PMEM lines in the newest ways of a set, oldest first (R210). -/
def heatOfSet (x : Slice) (set k : Nat) : List Nat :=
  let m := (nget x.ages set).getD 0
  let here := x.ways.filter (fun e => decide (e.1 / 16 = set))
  let newerThan := fun (e : Nat × Way) => (here.filter (fun f => decide (f.1 ≠ e.1) && newer m (f.1 % 16) (e.1 % 16))).length
  let pick := fun (i : Nat) => here.filter (fun e => decide (newerThan e = i))
  (((List.range k).reverse.flatMap pick).filter (fun e => isPmem e.2.line)).map (fun e => pmemLine e.2.line)

/-- The heat list (R210). -/
def heatList (s : State) : List Nat :=
  let k := min 2 (effF s F.PMP_DRN_CTL_HEATW)
  s.slices.flatMap (fun e => ((e.2.ways.map (fun w => w.1 / 16)).eraseDups).flatMap (fun set => heatOfSet e.2 set k))

/-- Whether a persistent entry or a PCIe queue entry has still to reach its home, here or at a peer (R198, R202). -/
def entriesLeft (s : State) : Bool := s.ports.any (fun e => e.2.iwb.any (fun v => v.p)) || !(s.pcie.inq.isEmpty)

/-- Every pass is confirmed (R202): the heat list, 16 lines' numbers to a line (log entry 16), the wear record and the seal are written. -/
def passDone (s : State) : State :=
  if s.drain.stage ≠ 4 ∨ entriesLeft s ∨ (scanSlices s).any (fun n => decide ((slice s n).passAt < (slice s n).manifest.length)) then s
  else
    let heat := heatList s
    let s1 := areaWrite s ((heat.length + 15) / 16) (fun a => { a with heat := heat })
    let s2 := meter s1 { prio := 3, kind := .lines, left := openLines s1 0, place := some (wearPlace (s1.mdata.wears.turn WearRec.no)) }
    let s3 := configRecord (wearPut (freshen s2) s2.cis.map)
    let s4 := areaWrite s3 1 (fun a =>
      { a with tbStart := s.drain.tb, tbSeal := s.tb, reason := s.drain.reason, sealCrc := completeCrc a, heatN := heat.length,
               bootSlot := s.start.bootSlot, primeEn := decide (effF s F.PMP_DRN_CTL_PRIME_EN = 1),
               primeWait := decide (effF s F.PMP_DRN_CTL_PRIME_WAIT = 1), heatw := min 2 (effF s F.PMP_DRN_CTL_HEATW),
               primeLim := effF s F.PMP_PRIME_LIM_LINES })
    { s4 with drain := { s4.drain with stage := 5 } }

/-- The seal is confirmed (R197, R202, R204): the record 0x0301, and every domain but AON goes off. -/
def sealed (s : State) : State :=
  if s.drain.stage ≠ 5 then s
  else
    let td := min 0xFFFF ((s.tb - s.drain.tb).toNat / 100)
    let i := areaIx s
    let a := areaOf s i
    let s1 := setArea s i { a with sealOk := true, time := td, sealGen := a.gen }
    let s2 := { s1 with mdata := { s1.mdata with lastReason := a.reason, lastTime := td } }
    let s3 := setF (setF s2 F.PMP_DRN_LAST_TIME td) F.PMP_DRN_STAT_STATE 2
    let s4 := post s3 0x0301 0x48 (leBytes 4 td ++ leBytes 4 a.entries)
    allOff { s4 with drain := { s4.drain with stage := 6 }, csrWaits := [], indOut := none, dictq := [] }

end Sys2Proof.Machine
end

