-- ==== Sys2Proof/Machine/Fed.lean ====
section
/-! DEFINITION. The federation: the settings digest, identities, the coordinator, epochs, leaves and joins, the notices between devices, and
the warm reset (R203, R206, R210, R367–R382, R388). -/

namespace Sys2Proof.Machine

/-- The registers of the settings digest, in order (R372). -/
def digestRegs : List Nat := (List.range 4).map R.DIR_DRNG ++ [R.DIR_ILV, R.DIR_ILV_CFG, R.DIR_BOOT, R.FED_CFG, R.FED_WAIT]

/-- The settings digest over some values of those registers (R372): "AXFED1" and 4 bytes each. -/
def digestOf (val : Nat → Word) : List Byte :=
  sha3_256 ([0x41, 0x58, 0x46, 0x45, 0x44, 0x31] ++ digestRegs.flatMap (fun o => leBytes 4 (val o).toNat))

/-- FED_DIGEST shows the digest. -/
def showDigest (s : State) (val : Nat → Word) : State :=
  let d := digestOf val
  (List.range 8).foldl (fun s k => setF s (F.FED_DIGEST_DIGEST k) (ofLe ((d.drop (4 * k)).take 4))) s

/-- A new Ident on every link that carries one (R369, R372). -/
def identAll (s : State) : State :=
  (List.range 3).foldl (fun s l => if ltssm s (vlS l) = 5 ∨ ltssm s (vlS l) = 6 then sendIdent s l else s) s

/-- REDO (R372): the digest from the written values, and new Idents. -/
def fedRedo (s : State) : State := push (identAll (showDigest s (raw s))) .fed

/-- Whether a peer's digest is this device's (R376). -/
def digestAgrees (s : State) (l : Nat) : Bool :=
  (List.range 8).all (fun k => decide (getF s (F.FED_PDG_DIGEST l k) = getF s (F.FED_DIGEST_DIGEST k)))

/-- The devices FED_CFG.EXPECT names, and whether one is recorded absent (R374). -/
def expected (s : State) (d : Nat) : Bool := (effF s F.FED_CFG_EXPECT).testBit d
def isAbsent (s : State) (d : Nat) : Bool := (getF s F.FED_STAT_ABSENT).testBit d
def linkUp (s : State) (d : Nat) : Bool := isF s (F.FED_LSTAT_UP (linkTo s d))
def known (s : State) (d : Nat) : Bool := (vl s (linkTo s d)).identified

/-- The set of devices expected and not recorded absent, as bits; this device is one of them. -/
def candidates (s : State) : List Nat := (List.range 4).filter (fun d => decide (d = self s) || (expected s d && !(isAbsent s d)))
def maskOf (l : List Nat) : Nat := sumOf (l.map (fun d => 1 <<< d))

/-- A waiting device judges another (R373, R374): reasons 1 and 2. -/
def judge (s : State) (d : Nat) : State :=
  if d = self s ∨ expected s d = false ∨ isAbsent s d then s
  else if s.fed.waitDone ∧ known s d = false then recordAbsent s d 1
  else if s.fed.readyTo.contains d ∧ known s d ∧ isF s (F.FED_LSTAT_PREADY (linkTo s d)) = false then recordAbsent s d 2
  else s

/-- Two candidates that do not name each other in LINKED (R374). -/
def unlinked (s : State) (a b : Nat) : Bool :=
  !((vl s (linkTo s a)).pLinked.testBit b && (vl s (linkTo s b)).pLinked.testBit a)

/-- The highest candidate above the coordinator that stands in an unlinked pair as the higher of the two (R374: reason 3). -/
def worstPair (s : State) : Option Nat :=
  let c := (candidates s).filter (fun d => decide (d ≠ self s))
  (c.reverse).find? (fun d => c.any (fun e => decide (e < d) && unlinked s e d))

/-- The pairs are judged until every pair is linked, once FED_WAIT has passed (R374; log entry 28). -/
def judgePairs (s : State) : Nat → State
  | 0 => s
  | n + 1 => match worstPair s with
    | some d => judgePairs (recordAbsent s d 3) n
    | none => s

/-- Whether this device coordinates (R373): nobody below it is left, and it knows no member of a standing federation. -/
def coordinates (s : State) : Bool :=
  (List.range (self s)).all (fun d => !(expected s d) || isAbsent s d)
    && !((List.range 3).any (fun l => (vl s l).identified && isF s (F.FED_LSTAT_PMEMBER l)))

/-- The remote list's addresses whose homes are present go to them, at the start of the federation and before any agent is released (R203); the
others stay on the list. -/
def remoteSend (s : State) : State :=
  let go := s.drain.remote.filter (fun r => present s r.1)
  let s1 := go.foldl (fun s r => emit s (.remotePoison r.1 r.2)) s
  if go = [] then s1
  else areaWrite { s1 with drain := { s1.drain with remote := s1.drain.remote.filter (fun r => !(present s r.1)) } } 1
    (fun a => { a with remote := a.remote.filter (fun r => !(go.contains r)) })

/-- The epoch stands (R364, R374, R375, R382): record 0x0804; the first one since the start is the start of the federation for this device. -/
def fedStand (s : State) (e p kind state : Nat) : State :=
  let s1 := setF (setF (setF s F.DIR_PRESENT_DEV p) F.FED_STAT_EPOCH e) F.FED_STAT_STATE state
  let s2 := post (flag { s1 with fed := { s1.fed with prepared := false, acks := [] } } F.FED_SSTAT_FED) 0x0804 0x50 (b1 e ++ b1 p ++ b1 kind)
  push (if isF s F.FED_SSTAT_FED then s2 else remoteSend s2) .start

/-- The devices that were present and leave with this epoch are absent for reason 4 (R379). -/
def leaveOthers (s : State) (p : Nat) : State :=
  ((List.range 4).filter (fun d => present s d && !(p.testBit d))).foldl (fun s d => recordAbsent s d 4) s

/-- PREPARE (R375): the present set and the epoch; a device that joins is present from Stand on (R381; log entry 28). -/
def fedPrepare (s : State) (e p kind coord : Nat) : State :=
  let s1 := if kind = 2 then leaveOthers s p else s
  let s2 := if kind = 1 then s1 else setF s1 F.DIR_PRESENT_DEV p
  setF (setF (setF { s2 with fed := { s2.fed with set := p, kind := kind } } F.FED_STAT_EPOCH e) F.FED_STAT_STATE 2) F.FED_STAT_COORD coord

/-- The coordinator issues an epoch (R375): Epoch to each other member; alone, it stands at once. -/
def fedIssue (s : State) (e p kind : Nat) : State :=
  let s1 := fedPrepare s e p kind (self s)
  let others := (List.range 4).filter (fun d => p.testBit d && decide (d ≠ self s))
  if others = [] then fedStand s1 e p kind 3
  else
    others.foldl (fun s d => lctl s (vlS (linkTo s d)) 6 (lineOf (b1 e ++ b1 p ++ b1 kind ++ b1 (self s))))
      { s1 with fed := { s1.fed with prepared := true, acks := [] } }

/-- The members that the epoch being issued still waits for. -/
def unacked (s : State) : List Nat := (List.range 4).filter (fun d => s.fed.set.testBit d && decide (d ≠ self s) && !(s.fed.acks.contains d))

/-- A member is lost while an epoch is issued (R375): absent with reason 2, and the epoch is issued again without it. -/
def fedDrop (s : State) (d : Nat) : State :=
  let p := s.fed.set - (if s.fed.set.testBit d then 1 <<< d else 0)
  fedIssue (if isAbsent s d then s else recordAbsent s d 2) (getF s F.FED_STAT_EPOCH) p s.fed.kind

/-- The digests of the devices identified (R376): MISM, record 0x0802 for each new difference, MISMATCH. -/
def fedDigests (s : State) : State :=
  let bad := ((candidates s).filter (fun d => decide (d ≠ self s) && known s d && !(digestAgrees s (linkTo s d))))
  let old := getF s F.FED_STAT_MISM
  let s1 := setF (setF s F.FED_STAT_MISM (maskOf bad)) F.FED_STAT_STATE (if bad = [] then 1 else 4)
  (bad.filter (fun d => !(old.testBit d))).foldl (fun s d => post s 0x0802 0x50 (b1 (linkTo s d) ++ b1 d)) s1

/-- The coordinator of a start (R374–R376): the epoch is issued once every pair is linked, everyone is ready and the digests agree. -/
def fedForm (s : State) : State :=
  let s1 := (List.range 4).foldl judge s
  let s2 := if s1.fed.waitDone then judgePairs s1 4 else s1
  let s3 := fedDigests s2
  let c := (candidates s3).filter (fun d => decide (d ≠ self s3))
  if getF s3 F.FED_STAT_STATE = 1 ∧ readyHere s3 ∧ (worstPair s3).isNone ∧ c.all (fun d => known s3 d && linkUp s3 d && isF s3 (F.FED_LSTAT_PREADY (linkTo s3 d))) = true then
    fedIssue s3 1 (maskOf (candidates s3)) 0
  else s3

/-- The members of the standing federation, this device among them. -/
def members (s : State) : List Nat := (List.range 4).filter (fun d => present s d)

/-- Why a device may not join, 0 where it may (R381). A member's taint that this device does not hold itself counts against every
joiner (log entry 28). -/
def joinCause (s : State) (d : Nat) : Nat :=
  let l := linkTo s d
  let own := getF s F.FED_STAT_TAINT
  if digestAgrees s l = false then 1
  else if own.testBit d ∨ (own = 0 ∧ (peers s).any (fun m => (vl s (linkTo s m)).pTaint)) then 2
  else if (members s).any (fun m => !((vl s l).pLinked.testBit m)) then 3
  else if isF s (F.FED_LSTAT_PREADY l) = false then 4
  else 0

/-- A join is refused: record 0x0806, once for each reason; 4 once the ready timeout has passed (R374, R381; log entry 28). -/
def refuseJoin (s : State) (d c : Nat) : State :=
  if nget s.fed.refused d = some c ∨ (c = 4 ∧ s.fed.readyTo.contains d = false) then s
  else post { s with fed := { s.fed with refused := nset s.fed.refused d c } } 0x0806 0x50 (b1 d ++ b1 c)

/-- The coordinator of a standing federation meets a device that is not a member (R381). -/
def fedJoin (s : State) (d : Nat) : State :=
  if present s d ∨ expected s d = false ∨ known s d = false ∨ linkUp s d = false ∨ isF s (F.FED_LSTAT_PMEMBER (linkTo s d)) ∨ s.fed.prepared
      ∨ s.fed.leaving then s
  else
    let c := joinCause s d
    if c ≠ 0 then refuseJoin s d c
    else
      let s1 := setF s F.FED_STAT_ABSENT (getF s F.FED_STAT_ABSENT &&& (15 - 1 <<< d))
      fedIssue s1 ((getF s1 F.FED_STAT_EPOCH + 1) % 256) (maskOf (members s1) + 1 <<< d) 1

/-- A peer that has left is gone (R379): the coordinator, or the lowest that remains where it coordinated, issues the epoch without
it. -/
def fedLeft (s : State) : State :=
  let gone := (peers s).filter (fun d => (vl s (linkTo s d)).walked && !(linkUp s d))
  let rest := (members s).filter (fun d => !(gone.contains d))
  let head := if gone.contains (getF s F.FED_STAT_COORD) then decide (rest.head? = some (self s)) else decide (getF s F.FED_STAT_COORD = self s)
  if gone = [] ∨ head = false ∨ s.fed.prepared ∨ s.fed.leaving ∨ gated s then s
  else fedIssue s ((getF s F.FED_STAT_EPOCH + 1) % 256) (maskOf rest) 2

/-- Whether a requester's queues still hold something for a device's homes (R379). -/
def leaveQueued (s : State) (d : Nat) : Bool := if d = self s then (List.range 6).any (fun p => (port s p).iwb ≠ []) else queuedFor s d

/-- The entries of a slice that a leave of a device still has to serve (R379): for the leaving device every entry; for its peers
those that name an agent of it or carry its SHR bit. -/
def leaveLeft (s : State) (n d : Nat) : List LineAddr :=
  let x := slice s n
  let mine := fun (e : Dir) => decide (d = self s) || bit e.shr (6 + linkTo s d) || (match e.hld with
    | some h => decide (h.dev = d)
    | none => false)
  (x.dir.filter (fun e => mine e.2 && decide (e.2.dst ≠ 0))).map (fun e => e.2.line)

/-- The walk of a leave sends its requests (R379). -/
def leaveWalk (s : State) (d : Nat) : State :=
  ((List.range 32).filter (sliceUp s)).foldl (fun s n => (leaveLeft s n d).foldl (fun s l =>
    if queuedHome s n (.leave d) l ∨ (slice s n).mshrs.any (fun m => decide (m.req.line = l ∧ m.req.op = .leave d)) = true then s
    else push s (.home n { who := .pump, op := .leave d, line := l, epoch := (slice s n).epoch })) s) s

/-- Whether the walk has nothing left (R379). -/
def leaveClear (s : State) (d : Nat) : Bool :=
  ((List.range 32).filter (sliceUp s)).all (fun n => decide (leaveLeft s n d = []) &&
    !((slice s n).mshrs.any (fun m => decide (m.req.op = .leave d)))) && !(leaveQueued s d)

/-- The leaving device has every peer's word and its own walk has ended (R379): the drain of its warm reset. -/
def leaveDrain (s : State) : State :=
  if s.fed.leaving ∧ s.fed.ownWalk ∧ (peers s).all (fun d => s.fed.leftBy.contains d) = true then warn s 4 else s

/-- A walk of a leave ends where nothing is left of it; else it goes on (R379, row LEAVE_WALK_DONE). -/
def leaveWalkDone (s : State) : State :=
  let s1 := (List.range 3).foldl (fun s l =>
    let x := vl s l
    if x.leaving = false ∨ x.walked then s
    else if leaveClear s (farEnd s l) then notice (setVl s l { x with walked := true }) l 4 0 0
    else leaveWalk s (farEnd s l)) s
  if s1.fed.leaving = false ∨ s1.fed.ownWalk then s1
  else if leaveClear s1 (self s1) then leaveDrain { s1 with fed := { s1.fed with ownWalk := true } }
  else leaveWalk s1 (self s1)

/-- A leave begins (R379). -/
def leaveBegin (s : State) : State :=
  let s1 := setF { s with fed := { s.fed with leaving := true, leftBy := [], ownWalk := false } } F.FED_STAT_STATE 5
  leaveWalk ((peers s1).foldl (fun s d => notice s (linkTo s d) 3 0 0) s1) (self s1)

/-- A keyed write of GEN_RST (R206, R210, R379, R388). -/
def warmReset (s : State) (w : Word) : State :=
  if w ≠ 0x57520001 ∨ pumpState s ≠ 0 ∨ gated s ∨ s.fed.leaving then flag s F.GEN_RST_ERR_IGN
  else
    let s1 := snapPut (meter s { prio := 3, kind := .lines, left := snapLines (snapshotNow s), place := some (snapPlace (s.mdata.snaps.turn Snap.no)) })
    if peers s1 ≠ [] then leaveBegin s1 else warn s1 4

/-- The federation goes on by what it knows now (R373–R381). -/
def fedTend (s : State) : State :=
  if s.start.profile = false ∨ gated s then s
  else if isF s F.FED_SSTAT_FED ∧ s.fed.prepared = false then
    (if getF s F.FED_STAT_STATE ≠ 3 then leaveDrain s
     else
       let s1 := fedLeft s
       if getF s1 F.FED_STAT_COORD = self s1 then (List.range 4).foldl fedJoin s1 else s1)
  else if s.fed.prepared then
    match (unacked s).find? (fun d => !(linkUp s d)) with
    | some d => fedDrop s d
    | none => s
  else if maskOf (candidates s) = 1 <<< self s ∧ effF s F.FED_CFG_EXPECT &&& (15 - 1 <<< self s) = 0 then
    fedStand s 1 (1 <<< self s) 0 0
  else if getF s F.FED_STAT_STATE = 2 then s
  else if (List.range 3).any (fun l => (vl s l).identified && isF s (F.FED_LSTAT_PMEMBER l)) then setF s F.FED_STAT_STATE 6
  else
    let s1 := if getF s F.FED_STAT_STATE = 4 then s else setF s F.FED_STAT_STATE 1
    let s2 := (List.range (self s)).foldl judge s1
    if coordinates s2 then fedForm s2 else s2

/-- What FLAGS and LINKED of an Ident, and the links, say now: a change sends an Ident and wakes the federation (R369). -/
def fedWord (s : State) : Nat := identFlags s + 8 * linkedMask s
def fedUps (s : State) : Nat := sumOf ((List.range 3).map (fun l => b2n (isF s (F.FED_LSTAT_UP l)) <<< l))

/-- Whether an LCTL flit is heard on a link that is UP (R49, R369): a good check value, and no Nak outstanding. -/
def lctlUp (s : State) (l : Nat) (f : Flit) : Bool :=
  decide (ltssm s (vlS l) = 6) && goodCheck (vlS l) f && !(vl s l).lnk.nakked

/-- Whether an LCTL flit is heard on a link in CAP or ACTIVE (R49, R369). -/
def lctlOn (s : State) (l : Nat) (f : Flit) : Bool :=
  lctlUp s l f || (decide (ltssm s (vlS l) = 5) && goodCheck (vlS l) f)

/-- What a bad check value does to an LCTL flit; otherwise nothing (R49). -/
def lctlElse (s : State) (l : Nat) (f : Flit) : State :=
  if (ltssm s (vlS l) = 5 ∨ ltssm s (vlS l) = 6) ∧ goodCheck (vlS l) f = false then badCheck s (vlS l) else s

/-- A link whose exchange is complete becomes ACTIVE (R368, R369). -/
def tryLink (s : State) (l : Nat) : State :=
  let k := (vl s l).lnk
  if ltssm s (vlS l) = 5 ∧ k.capSeen ∧ k.capAck then push (enterActive s (vlS l) (vl s l).pCr (64, 64, 64, 64)) .fed else s

/-- An Ident (R367, R369, R370, R382): a wiring fault, or the peer's identity and its IdentAck. -/
def recvIdent (s : State) (l : Nat) (f : Flit) : State :=
  if lctlOn s l f = false then lctlElse s l f
  else
    let b := fun (i : Nat) => (lineByte f.data i).toNat
    if b 1 ≠ farEnd s l then
      let s1 := post (flag s (F.FED_LERR_WIRE l)) 0x0805 0x50 (b1 l ++ b1 (b 1))
      if ltssm s (vlS l) = 6 then linkDown s1 l 8 else setF s1 (F.FED_LSTAT_LTSSM l) 8
    else
      let x := vl s l
      let fl := b 48
      let s1 := setF (setF (setF s (F.FED_LSTAT_PDEV l) (b 1)) (F.FED_LSTAT_PREADY l) (fl % 2)) (F.FED_LSTAT_PMEMBER l) (fl / 2 % 2)
      let s2 := setF (setF s1 (F.FED_PSER_LO_SERIAL l) (bits f.data 64 32)) (F.FED_PSER_HI_SERIAL l) (bits f.data 96 32)
      let s3 := (List.range 8).foldl (fun s k => setF s (F.FED_PDG_DIGEST l k) (bits f.data (128 + 32 * k) 32)) s2
      let y : Vl := { x with identified := true, pExpect := b 2, pLinked := b 3, pTaint := bit f.data 386, pEpoch := b 49, pCoord := b 50,
                             pCr := (b 4, b 5, b 6, b 7), lnk := { x.lnk with capSeen := true },
                             leaving := x.leaving && x.identified, walked := x.walked && x.identified, noQueue := x.noQueue && x.identified }
      let s4 := if x.identified then setVl s3 l y else post (setVl s3 l y) 0x0801 0x50 (b1 l ++ b1 (b 1))
      push (tryLink (lctl s4 (vlS l) 5 0) l) .fed

/-- An IdentAck (R369). -/
def recvIdentAck (s : State) (l : Nat) (f : Flit) : State :=
  if lctlOn s l f = false then lctlElse s l f
  else tryLink (setVl s l { vl s l with lnk := { (vl s l).lnk with capAck := true } }) l

/-- 1 µs passes in CAP without an IdentAck (R369). -/
def identResend (s : State) (l : Nat) : State :=
  if ltssm s (vlS l) = 5 ∧ (vl s l).lnk.capAck = false then sendIdent s l else s

/-- An Epoch (R375, R379): PREPARE, and its answer. -/
def recvEpoch (s : State) (l : Nat) (f : Flit) : State :=
  if lctlUp s l f = false then lctlElse s l f
  else
    let b := fun (i : Nat) => (lineByte f.data i).toNat
    lctl (fedPrepare s (b 0) (b 1 % 16) (b 2) (b 3 % 4)) (vlS l) 7 0

/-- An EpochAck reaches the coordinator (R375): with the last one, Stand goes out. -/
def recvEpochAck (s : State) (l : Nat) (f : Flit) : State :=
  if lctlUp s l f = false then lctlElse s l f
  else if s.fed.prepared = false then s
  else
    let d := farEnd s l
    let s1 := { s with fed := { s.fed with acks := d :: s.fed.acks.filter (fun a => decide (a ≠ d)) } }
    if unacked s1 ≠ [] then s1
    else
      let others := (List.range 4).filter (fun d => s1.fed.set.testBit d && decide (d ≠ self s1))
      let s2 := others.foldl (fun s d => lctl s (vlS (linkTo s d)) 8 0) s1
      fedStand s2 (getF s2 F.FED_STAT_EPOCH) s2.fed.set s2.fed.kind 3

/-- No EpochAck within 1 ms (R375). -/
def epochAckTimeout (s : State) (d : Nat) : State :=
  if s.fed.prepared ∧ (unacked s).contains d then fedDrop s d else s

/-- Stand (R375). -/
def recvStand (s : State) (l : Nat) (f : Flit) : State :=
  if lctlUp s l f = false then lctlElse s l f
  else if getF s F.FED_STAT_STATE = 2 ∧ s.fed.prepared = false then fedStand s (getF s F.FED_STAT_EPOCH) s.fed.set s.fed.kind 3
  else s

/-- The notices (R23, R130, R200, R371, R379). -/
def recvSag (s : State) (l : Nat) (f : Flit) : State :=
  if lctlUp s l f = false then lctlElse s l f else warn s 3

def recvDead (s : State) (l : Nat) (f : Flit) : State :=
  if lctlUp s l f = false then lctlElse s l f
  else peerDead s l { dev := (lineByte f.data 1).toNat % 4, port := (lineByte f.data 2).toNat % 8 }

def recvLeave (s : State) (l : Nat) (f : Flit) : State :=
  if lctlUp s l f = false then lctlElse s l f
  else leaveWalk (setVl s l { vl s l with leaving := true, walked := false }) (farEnd s l)

def recvLeft (s : State) (l : Nat) (f : Flit) : State :=
  if lctlUp s l f = false then lctlElse s l f
  else if s.fed.leaving = false then s
  else leaveDrain { s with fed := { s.fed with leftBy := s.fed.leftBy ++ [farEnd s l] } }

def recvNoQueue (s : State) (l : Nat) (f : Flit) : State :=
  if lctlUp s l f = false then lctlElse s l f
  else push (setVl s l { vl s l with noQueue := true }) .drain

/-- FED_WAIT passes (R373, R374). -/
def fedWaitExpiry (s : State) : State :=
  if pdOn s 29 ∧ s.start.profile ∧ isF s F.FED_SSTAT_FED = false then push { s with fed := { s.fed with waitDone := true } } .fed else s

/-- A device is identified and still not READY after RDY_TO (R374). -/
def readyTimeout (s : State) (d : Nat) : State :=
  if d ≠ self s ∧ known s d ∧ isF s (F.FED_LSTAT_PREADY (linkTo s d)) = false then
    push { s with fed := { s.fed with readyTo := if s.fed.readyTo.contains d then s.fed.readyTo else s.fed.readyTo ++ [d] } } .fed
  else s

/-- A link leaves service (R134, R380). -/
def linkLost (s : State) (l : Nat) : State := if ltssm s (vlS l) = 0 then s else push (linkDown s l 0) .fed

/-- An address of a peer's remote list arrives at its home (R203): the line is poisoned as R133 poisons one; origin 8, with the device
that recorded it (R306). -/
def remoteArrives (s : State) (line : LineAddr) (dev : Nat) : State :=
  if ownPmem s line ∧ s.start.classified ∧ sliceUp s (homeOf s line) then
    let p := poisonNow s (homeOf s line) line 8 dev 0xFF
    setF p F.PMP_RST_POIS_POISONED (bump 0xFFFFFFFF (getF p F.PMP_RST_POIS_POISONED) 1)
  else s

end Sys2Proof.Machine
end

