-- ==== Sys2Proof/Machine/Write.lean ====
section
/-! DEFINITION. A write of one register: its fields by their access codes, and what the write does beside that (R6, R8, R296,
R304, R310, and the register tables of the blocks). -/

namespace Sys2Proof.Machine

/-- A register's word after a write, field by field (R6, R8, R294): RW and RWS take the value, in its range or not, W1C clears what is
written as 1, RO, WO and reserved fields stay. -/
def RegRow.merged (r : RegRow) (old w : Word) : Word :=
  r.flds.foldl (fun a f => match f.acc with
    | .rw => putBits a f.lo f.w (bits w f.lo f.w)
    | .rws => putBits a f.lo f.w (bits w f.lo f.w)
    | .w1c => a &&& ~~~(putBits 0 f.lo f.w (bits w f.lo f.w))
    | .ro => a
    | .wo => a) old

/-- The word that a write leaves in a register; nothing lies at an offset without one. -/
def mergedAt (s : State) (off : Nat) (w : Word) : Word :=
  match rowAt off with
  | some r => r.merged (raw s off) w
  | none => raw s off

/-- The register takes the merged word. -/
def putReg (s : State) (off : Nat) (w : Word) : State := wr s off (mergedAt s off w)

/-- A write that may clear LATCHED of a notice: PEAK then holds the current level (R192, R304). -/
def putNotice (s : State) (off : Nat) (w : Word) (f : Float) (level : Nat) : State :=
  let s1 := putReg s off w
  if isF s f.latched ∧ isF s1 f.latched = false then setF s1 f.peak (f.units level) else s1

/-- What WGV_FN.LOWEST takes when its notice is cleared (R192): the level in units of 2^24 lines. -/
def wgvUnits (s : State) : Nat := if s.cis.level ≤ 0 then 0 else s.cis.level.toNat / 16777216

/-- A write of EVQ_IRQ_STAT (R309, R310): a source cleared while its vector is masked takes its pending bit with it. -/
def writeIrqStat (s : State) (w : Word) : State :=
  let gone := setBits 16 (getF s F.EVQ_IRQ_STAT_SRC &&& w.toNat)
  let s1 := putReg s R.EVQ_IRQ_STAT w
  refreshErr (gone.foldl (fun s v =>
    if vectorMasked s v then { s with pcie := { s.pcie with pba := clrBit s.pcie.pba v } } else s) s1)

/-- The sources that a write of an enable register enables while their bits are set (R312). -/
def newlyOn (s s1 : State) (f : Fld) : List Nat :=
  (setBits 16 (getF s1 F.EVQ_IRQ_STAT_SRC)).filter (fun v => (getF s1 f).testBit v && !((getF s f).testBit v))

/-- The sources that go to a port a write newly names: pending, and enabled before it and after (R310, R312). Source 1 has gone to
every UP port already. -/
def stillOn (s s1 : State) : List Nat :=
  (setBits 16 (getF s1 F.EVQ_IRQ_STAT_SRC)).filter
    (fun v => decide (v ≠ 1) && (getF s1 F.EVQ_IRQ_AG_EN).testBit v && (getF s F.EVQ_IRQ_AG_EN).testBit v)

/-- A write of one of the three enable registers (R310, R312). DEDUCED (log entry 30): a port newly named enables, toward it, the
sources enabled already. -/
def writeIrqAg (s : State) (w : Word) : State :=
  let s1 := putReg s R.EVQ_IRQ_AG w
  let fresh := (setBits 6 (getF s1 F.EVQ_IRQ_AG_PORTS)).filter (fun p => !((getF s F.EVQ_IRQ_AG_PORTS).testBit p))
  let s2 := (newlyOn s s1 F.EVQ_IRQ_AG_EN).foldl notifyAgents s1
  (stillOn s s1).foldl (fun s v => fresh.foldl (fun s p => notify s v p) s) s2
def writeIrqHost (s : State) (w : Word) : State :=
  let s1 := putReg s R.EVQ_IRQ_HOST w
  (newlyOn s s1 F.EVQ_IRQ_HOST_EN).foldl notifyHost s1
def writeIrqNet (s : State) (w : Word) : State :=
  let s1 := putReg s R.EVQ_IRQ_NET w
  (newlyOn s s1 F.EVQ_IRQ_NET_EN).foldl emcyFor s1

/-- ACCEPT (R208, R214): the suspect state ends, here and in this run's header. -/
def acceptSuspect (s : State) : State :=
  if isF s F.PMP_RST_STAT_SUSPECT then
    areaWrite (setF (setF s F.PMP_RST_STAT_SUSPECT 0) F.PMP_RST_STAT_GS 0) 1 (fun a => { a with suspect := false, gs := 0 })
  else s

/-- A write in the blocks of AON (R39, R214, R240, R272, R290, R311, R384, R387, R388). -/
def writeGen (s : State) (o off : Nat) (w : Word) : State :=
  if o = 0x20 then warmReset s w else putReg s off w
def writeCfg (s : State) (o off : Nat) (w : Word) : State :=
  if o = 0 then commitStart s w else putReg s off w
def writeEvq (s : State) (o off : Nat) (w : Word) : State :=
  if o = 0x28 then putNotice s off w floatEvq s.evq.recs.length
  else if o = 0x40 then writeIrqStat s w
  else if o = 0x44 then writeIrqAg s w
  else if o = 0x48 then writeIrqHost s w
  else if o = 0x4C then writeIrqNet s w
  else putReg s off w
def writeClk (s : State) (o off : Nat) (w : Word) : State :=
  let s1 := putReg s off w
  if o = 0x40 ∧ bit w 14 then trimStart s1 else s1
def writePmu (s : State) (o off : Nat) (w : Word) : State :=
  let s1 := putReg s off w
  if o = 0x20 ∧ bit w 0 then mcuRestart s1 else s1
def writeCst (s : State) (o off : Nat) (w : Word) : State :=
  if o = 0x44 then rmSet s (rmIndex s) w
  else
    let s1 := putReg s off w
    if o = 0x20 then regionSnap s1 (getF s1 F.CST_RIDX_PREG) else s1
def writeCkpt (s : State) (w : Word) : State :=
  let s1 := putReg s R.PMP_CKPT w
  let s2 := if bit w 0 then ckptStart s1 else s1
  if bit w 1 then ckptRel s2 else s2
/-- A register whose fields are kept to their ranges when they are written (R191). -/
def putClipped (s : State) (off : Nat) (w : Word) : State :=
  match rowAt off with
  | some r => wr s off (r.flds.foldl (fun a f => putBits a f.lo f.w (f.clip (bits a f.lo f.w))) (r.merged (raw s off) w))
  | none => s
def writePmp (s : State) (o off : Nat) (w : Word) : State :=
  if o ≤ 8 then putClipped s off w
  else if o = 0x14 then putNotice s off w floatPdq (pdqLevel s)
  else if o = 0x24 then putNotice s off w floatOwn (ownLevel s)
  else if o = 0x40 then writeCkpt s w
  else if o = 0x114 then putNotice s off w floatWgv (wgvUnits s * 16777216)
  else if o = 0x220 then (if bit w 0 then acceptSuspect (putReg s off w) else putReg s off w)
  else putReg s off w
def writeFeda (s : State) (o off : Nat) (w : Word) : State :=
  let s1 := putReg s off w
  if o = 0x1008 ∧ bit w 0 then fedRedo s1
  else if o = 0x1018 then push s1 .start
  else s1

/-- A write of MOP_Sk_CMD (R157, R160, R161): the fields, then START, ABORT and REL. -/
def writeMopCmd (s : State) (k : Nat) (w : Word) : State :=
  let s0 := putReg s (R.MOP_S_CMD k) w
  let s1 := if bit w 8 then mopStart s0 k else s0
  let s2 := if bit w 9 then mopAbort s1 k else s1
  if bit w 10 then mopRel s2 k else s2
def writeMop (s : State) (o off : Nat) (w : Word) : State :=
  if 0x100 ≤ o ∧ o < 0x200 ∧ o % 0x40 = 0 then writeMopCmd s ((o - 0x100) / 0x40) w else putReg s off w

/-- A write of the CRC block (R356, R359). -/
def writeCrc (s : State) (o off : Nat) (w : Word) : State :=
  let u := o / 0x40
  if 4 ≤ u then putReg s off w
  else match o % 0x40 with
  | 0x0 => crcCtl s u w
  | 0xC => crcFeed s u (leBytes 1 w.toNat)
  | 0x10 => crcFeed s u (leBytes 2 w.toNat)
  | 0x14 => crcFeed s u (leBytes 4 w.toNat)
  | _ => putReg s off w

/-- A write of the SEC block (R354, R358): while slot 0 is BUSY its operands are not written. -/
def writeSec (s : State) (o off : Nat) (w : Word) : State :=
  if o = 0x100 then secCmd s w
  else if s.sec.phase = 1 then s
  else putReg s off w

/-- A write of a DMA channel's registers (R321, R323, R339): the ring stands while the channel is not IDLE. -/
def writeDma (s : State) (c o off : Nat) (w : Word) : State :=
  if o = 0 then dmaCtl s c w
  else if o = 0x18 then push (putReg s off w) (.dma c)
  else if getF s (F.PCI_DMA_STAT_STATE c) ≠ 0 then s
  else putReg s off w
def writePci (s : State) (o off : Nat) (w : Word) : State :=
  if o = 0x400 then mbxStart s .pci w
  else if o = 0x40C then mbxCtl s .pci w
  else if 0x100 ≤ o ∧ o < 0x180 then writeDma s ((o - 0x100) / 0x40) (o % 0x40) off w
  else putReg s off w
def writeCan (s : State) (o off : Nat) (w : Word) : State :=
  if o = 0x400 then mbxStart s .csr w
  else if o = 0x40C then mbxCtl s .csr w
  else putReg s off w

/-- A write of the MSR block (R389–R393). -/
def writeMsr (s : State) (o off : Nat) (w : Word) : State :=
  let v := mergedAt s off w
  if o = 0 then msrCtl s w
  else if 0x10 ≤ o ∧ o < 0x30 then msrEvsel s ((o - 0x10) / 4) v
  else if o = 0x40 then msrCidx s v
  else if o = 0x50 then msrHcfg s v
  else if o = 0x54 then msrHidx s v
  else putReg s off w

/-- A write of a slice's block (R89, R95, R231). -/
def writeSlc (s : State) (n o off : Nat) (w : Word) : State :=
  let s1 := putReg s off w
  if 0x20 ≤ o ∧ o < 0x50 then setF s1 (F.SLC_STAT_APEND n) (b2n (allotPends s1 n))
  else if o = 0x54 then putNotice s off w (floatMshr n) (slice s n).mshrs.length
  else if o = 0x64 then putNotice s off w (floatEvb n) (slice s n).evb.length
  else if o = 0x80 then debugSnap s1 n (getF s1 (F.SLC_DBG_IDX_SET n)) (getF s1 (F.SLC_DBG_IDX_WAY n))
  else if 0xC0 ≤ o ∧ o < 0xE0 then rmapWrite s n ((o - 0xC0) / 4) w
  else s1

/-- A write of a port's block (R43, R50, R66, R67). -/
def writeAptCtl (s : State) (p : Nat) (w : Word) : State :=
  let s0 := putReg s (R.APT_CTL p) w
  let s1 := if bit w 5 then recover s0 (apS p) true else s0
  if bit w 4 then portReset s1 p else s1
def writeApt (s : State) (p o off : Nat) (w : Word) : State :=
  if o = 0 then writeAptCtl s p w
  else if o = 0x44 then putNotice s off w (floatIwb p) (port s p).iwb.length
  else putReg s off w

/-- A write of a link's block (R50, R383). -/
def writeFed (s : State) (l o off : Nat) (w : Word) : State :=
  let s1 := putReg s off w
  if o = 0 ∧ bit w 5 then recover s1 (vlS l) true else s1

/-- A write of a channel's block (R224, R225, R238): CHMODE is a field of MCH 0 alone. -/
def writeMch (s : State) (c o off : Nat) (w : Word) : State :=
  if 0x20 ≤ o ∧ o < 0x40 then markWrite s c ((o - 0x20) / 4) w
  else if o = 8 ∧ c ≠ 0 then s
  else
    let s1 := putReg s off w
    if o = 0x40 then cidxSnap s1 c w else s1

/-- A write of one register of this device, with everything it does. -/
def regWrite (s : State) (off : Nat) (w : Word) : State :=
  match place off with
  | none => s
  | some (b, n, o) =>
    match b with
    | .gen => writeGen s o off w
    | .cfg => writeCfg s o off w
    | .evq => writeEvq s o off w
    | .clk => writeClk s o off w
    | .pmu => writePmu s o off w
    | .phu => putReg s off w
    | .mop => writeMop s o off w
    | .crc => writeCrc s o off w
    | .sec => writeSec s o off w
    | .cst => writeCst s o off w
    | .pmp => writePmp s o off w
    | .dir => putReg s off w
    | .pci => writePci s o off w
    | .can => writeCan s o off w
    | .msr => writeMsr s o off w
    | .slc => writeSlc s n o off w
    | .apt => writeApt s n o off w
    | .fed => writeFed s n o off w
    | .feda => writeFeda s o off w
    | .mch => writeMch s n o off w

end Sys2Proof.Machine
end

