-- ==== Sys2Proof/Machine/Start.lean ====
section
/-! DEFINITION. The start: what it resets and keeps, its steps, restart classification, priming, and the release of the agents
(R9, R172, R184, R186, R203, R206–R213, R360–R366, R394–R399). -/

namespace Sys2Proof.Machine

/-- The fields of AON registers that a start does not reset (R395), and those it restores (R214). -/
def keptFields : List Fld :=
  [F.CLK_HOLD_T_LAST, F.CLK_HOLD_T_COUNT, F.GEN_SCRATCH_DATA, F.GEN_STAT_FATAL, F.PMU_MCU_COUNT, F.PMU_MCU_FALLBK, F.CLK_CFG_COMPAT,
   F.CLK_TRIM_CODE, F.MSR_SNAP_T_LO_TBASE, F.MSR_SNAP_T_HI_TBASE, F.MSR_SNAP_PH_PHASE, F.PMP_DRN_STAT_REASON, F.PMP_DRN_STAT_GEN,
   F.PMP_RST_STAT_SUSPECT, F.PMP_RST_STAT_GS, F.PMP_DRN_LAST_TIME, F.PMP_DRN_ENT_ENTRIES]
def restoredFields : List Fld :=
  [F.PMP_DRN_CTL_PRIME_EN, F.PMP_DRN_CTL_PRIME_WAIT, F.PMP_DRN_CTL_HEATW, F.PMP_PRIME_LIM_LINES, F.CST_SPLIT_PMEM]

/-- A field's written and effective value. -/
def setBoth (s : State) (f : Fld) (v : Nat) : State :=
  let s1 := setF s f v
  setEff s1 f.off (putBits (effWord s1 f.off) f.lo f.w v)

/-- What a journal holds without power: its two copies, whose spare regions a start does not take (R189). -/
def Journal.kept (j : Journal) : Journal := { copyA := { j.copyA with spare := none }, copyB := { j.copyB with spare := none } }

/-- Step 1 of a start (R7, R395): what lies in AON takes its reset value but for what is kept; every other unit is off and holds
nothing. The Cistern, the records in it and the fuses stay. -/
def aonReset (s : State) : State :=
  let s0 : State :=
    { pending := s.pending, out := s.out, fresh := s.fresh, tb := s.tb, mdata := s.mdata, journal := s.journal.kept, fws := s.fws,
      cis := { s.cis with queue := [], tier := [], remaps := [], locs := [] }, supply := s.supply,
      start := { devid := s.start.devid }, clk := { vcore := s.clk.vcore }, evq := { recs := s.evq.recs, lost := s.evq.lost },
      sec := { fuses := s.sec.fuses }, msr := s.msr, ckpt := { next := nextSeq (((s.mdata.wears.latest WearRec.no).map (fun (r : WearRec) => r.seq)).getD 0) } }
  let s1 := keptFields.foldl (fun a f => setF a f (getF s f)) s0
  let s2 := restoredFields.foldl (fun a f => setBoth a f (getF s f)) s1
  setF s2 F.CST_STAT_PMEM_EFF (getF s F.CST_STAT_PMEM_EFF)

/-- A start begins (R360, R394, R395). `cause` is GEN_STAT.START (R387). -/
def startBegin (s : State) (cause : Nat) : State :=
  let s1 := aonReset s
  let s2 : State := { s1 with supply := { s1.supply with inReset := false, aonLost := false },
                              start := { running := true, cause := cause, tb := s.tb, devid := s.start.devid } }
  let s3 := setF (setF s2 F.DIR_PRESENT_SELF s.start.devid) F.DIR_PRESENT_DEV (1 <<< s.start.devid)
  push (setF (setBoth s3 F.FED_CFG_EXPECT (1 <<< s.start.devid)) F.GEN_STAT_START cause) .start

/-- The supply lets a start begin (R196, R360, R399): PWRGD_IN asserted, neither comparator tripped, and no monitor awaited. -/
def supplyOk (s : State) : Bool := s.supply.pwrgd && !s.supply.warn && !s.supply.rst && !s.supply.railWait

/-- A start from reset, where the supply allows one. -/
def startIf (s : State) : State :=
  if s.supply.inReset ∧ supplyOk s = true then startBegin s (if s.supply.aonLost then 0 else 1) else s

/-- PWRGD_IN is asserted, with what the DEVID straps read (R360): with a monitor below its limit, step 1 waits (R399). -/
def pwrgdOn (s : State) (devid : Nat) : State :=
  let s1 := { s with supply := { s.supply with pwrgd := true, railWait := if s.supply.pwrgd then s.supply.railWait else decide (s.supply.low ≠ []) } }
  if s.supply.inReset then startIf { s1 with start := { s1.start with devid := devid } } else s1

/-- PWRGD_IN is deasserted (R196, R398, R399): the device is in reset. -/
def pwrgdOff (s : State) : State := resetNow { s with supply := { s.supply with pwrgd := false, railWait := false } }

/-- Every monitor reads good: a start that waited for them begins (R399). -/
def railsGood (s : State) : State :=
  if s.supply.railWait ∧ s.supply.low = [] then startIf { s with supply := { s.supply with railWait := false } } else s

/-- A comparator clears (R193, R196): a start that waited for it begins. -/
def comparatorClear (s : State) (isWarn : Bool) : State := startIf (sagClear s isWarn)

/-- The supply has been good for 10 ms after a seal, or after a WARN that drained nothing (R197, R206, R209). -/
def supplyGood (s : State) : State :=
  if (s.drain.stage = 6 ∨ s.drain.shedWait) ∧ s.supply.warn = false ∧ s.supply.inReset = false then
    startBegin s (if s.drain.stage = 6 ∧ s.drain.reason = 4 then 3 else 2)
  else s

/-- AON is powered (R277, R394, R398): nothing is left but what does not need power. -/
def aonOn (s : State) : State :=
  { pending := s.pending, out := s.out, fresh := s.fresh, mdata := s.mdata, journal := (storeTorn s).journal.kept, fws := s.fws,
    cis := { lines := s.cis.lines, map := s.cis.map, regions := s.cis.regions, moves := s.cis.moves, zeroed := s.cis.zeroed },
    sec := { fuses := s.sec.fuses } }

/-- The last sequence number of a copy's sound records, none where it has none (R189). -/
def JCopy.lastSeq (x : JCopy) : Option Nat := x.sound.getLast?.map (fun (r : JRec) => r.seq)

/-- The copy of the journal that a start takes (R189): the one with the higher last sequence number. -/
def Journal.best (j : Journal) : JCopy :=
  match j.copyA.lastSeq, j.copyB.lastSeq with
  | some a, some b => if a < b then j.copyB else j.copyA
  | none, some _ => j.copyB
  | _, none => j.copyA

/-- Whether a copy cannot be read: it has records, and the first fails its check (R189, R365). A store that was never written is readable
(R411). -/
def JCopy.unreadable (x : JCopy) : Bool := decide (x.recs ≠ []) && decide (x.sound = [])

/-- A copy that differs from the one taken is written anew from it, metered (R187, R189). -/
def repairCopy (s : State) (c : Nat) (best : JCopy) : State :=
  let x := if c = 1 then s.journal.copyA else s.journal.copyB
  let y : JCopy := { region := x.region, recs := best.sound, used := best.used }
  let s1 : State := { s with journal := if c = 1 then { s.journal with copyA := y } else { s.journal with copyB := y } }
  if x.recs = best.sound then s1
  else meter s1 { prio := 3, kind := .lines, left := best.used, place := some (storeRegion c y false * 16384) }

/-- The journal is read and repaired (R189, R224, R230, R328, R347): what its records come to is in force. -/
def storeRead (s : State) : State :=
  let b := s.journal.best
  let v := liveOf b.sound
  let s1 := repairCopy (repairCopy s 1 b) 2 b
  { s1 with boots := v.boots, journal := { s1.journal with image := v.image, active := v.active.getD 0, fuses := v.fuses, marks := v.marks, seq := b.lastSeq.getD 0 } }

/-- The written value of a register in the stored image, else as it stands. -/
def imageWord (s : State) (off : Nat) : Word :=
  match nget s.journal.image (entryOf off) with
  | some v => BitVec.ofNat 32 (ofLe v)
  | none => raw s off

/-- Step 4 (R189, R328, R331, R347, R353, R361, R365, R372, row SETTINGS_STORE_READ_DONE). -/
def settingsRead (s : State) : State :=
  if s.start.running = false ∨ chisoRuns s = false ∨ s.start.settings then s
  else
    let best := s.journal.best.sound
    let blank := decide ((liveOf best).image = []) && (liveOf best).active.isNone
    let s0 := storeRead s
    let s1 : State := { s0 with start := { s0.start with settings := true, blank := blank, bootSlot := s0.journal.active } }
    let s2 := if s.journal.copyA.unreadable && s.journal.copyB.unreadable then startFault s1 4 else s1
    let s3 := setF s2 F.FED_SSTAT_KIND (if blank then 2 else b2n (decide ((lastConf s).trained = [])))
    push (canTrim (showOddg (commObjects (showDigest s3 (imageWord s3))))) .start

/-- The later of two valid headers (R207): generations are counted modulo 2^24. -/
def laterArea (m : Meta) : Option Nat :=
  match m.area0.header, m.area1.header with
  | false, false => none
  | true, false => some 0
  | false, true => some 1
  | true, true => some (if (m.area1.gen + 2 ^ 24 - m.area0.gen) % 2 ^ 24 < 2 ^ 23 then 1 else 0)

/-- Whether the Complete record of an area stands with its check, and a seal of the same run beside it (R201, R207). -/
def Area.whole (a : Area) : Bool := a.complete && decide (a.crc = segmentsCrc a)
def Area.sealed (a : Area) : Bool := a.sealOk && decide (a.sealGen = a.gen) && decide (a.sealCrc = completeCrc a)

/-- The class of an area (R207). -/
def classOf (a : Area) : Nat := if a.whole then (if a.sealed then 1 else 2) else 3

/-- The lines that UNSEALED poisons (R207), rising: no progress line covers them, or what was written is not of that run. -/
def unsealedLines (s : State) (a : Area) : List Nat :=
  let bad := fun (n i : Nat) (e : MEntry) => decide ((nget a.progress n).getD 0 ≤ i) || decide ((cisGet s e.line).seq ≠ a.gen)
  let each := fun (n : Nat) (es : List MEntry) => ((es.zipIdx).filter (fun p => bad n p.2 p.1)).map (fun p => p.1.line)
  let ls : List Nat := a.segments.flatMap (fun (e : Nat × List MEntry) => each e.1 e.2)
  let found : NMap Bool := ls.foldl (fun (m : NMap Bool) (l : Nat) => nset m l true) []
  found.map (fun (e : Nat × Bool) => e.1)

/-- One of those lines (R207): its data stays, with POISON and the new GEN, by a metered write (R187); record 0x0400. -/
def classPoison (gen : Nat) (s : State) (n : Nat) : State :=
  let s1 := meter (cisSet s n { data := (cisGet s n).data, poison := true, seq := gen }) { prio := 3, kind := .lines, place := some n }
  postPoison s1 0x48 (pmemAt s n) 7 (self s) 0xFF

/-- The wear state as the record gives it (R184, R186): a region whose START or GAP moved since is recovered, a move begins again. -/
def wearRestore (s : State) : State :=
  let r := s.mdata.wears.latest WearRec.no
  let regsOf := (r.map (fun (q : WearRec) => q.regs)).getD []
  let recOf := fun (p : Nat) => (nget regsOf p).getD {}
  let c := lastConf s
  let moved := s.cis.regions.any (fun e => decide ((recOf e.1).start ≠ e.2.start ∨ (recOf e.1).gap ≠ e.2.gap))
  let regs : NMap Region := s.cis.regions.map (fun (e : Nat × Region) => (e.1, { e.2 with wear := (recOf e.1).wear, since := 0, owed := 0 }))
  let lvl := (r.map (fun (q : WearRec) => q.level)).getD (govFloor s)
  let s1 := { s with cis := { s.cis with regions := regs, moves := s.cis.moves.map (fun (e : Nat × Move) => (e.1, { e.2 with next := 0, copied := false, recorded := false })),
                                         map := (r.map (fun (q : WearRec) => q.map)).getD [], level := lvl, frac := 0,
                                         total := c.total, drain := c.drain, compared := c.total.toNat / 0x100000 } }
  let s2 := s1.cis.moves.foldl (fun s e => flag s (if e.1 = 0 then F.CST_STAT_MOVE_A else F.CST_STAT_MOVE_B)) s1
  if moved then flag s2 F.CST_ERR_REGREC else s2

/-- The recorded split takes effect (R172): regions that leave PMEM lose their contents, those that join it are zeroed. -/
def applySplit (s : State) : State :=
  let old := s.mdata.split
  let new := (lastConf s).split
  let s1 := setF (setBoth { s with mdata := { s.mdata with split := new } } F.CST_SPLIT_PMEM new) F.CST_STAT_PMEM_EFF new
  if old = new then s1
  else
    let lo := min old new
    let hi := max old new
    let c := s1.cis
    let s2 : State := { s1 with cis := { c with lines := nclear c.lines (lo * 65536) (hi * 65536), zeroed := nclear c.zeroed (lo * 4) (hi * 4) } }
    let s3 := post s2 0x0303 0x47 (b1 old ++ b1 new)
    if new < old then s3
    else
      let join := (List.range (hi * 4)).drop (lo * 4)
      join.foldl (fun s r =>
        let s4 := { s with cis := { s.cis with zeroed := nset s.cis.zeroed r (genNow s) } }
        meter s4 { prio := 3, kind := .lines, left := 16384, place := some (r * 16384) }) s3

/-- The priming settings of a start (R211), in force from here on. -/
def primeSettings (s : State) (cur : Area) (cls : Nat) (other : Area) : State :=
  let a : Area := if cls = 1 then cur else if other.header ∧ other.sealed then other else {}
  let s1 := setBoth (setBoth s F.PMP_DRN_CTL_PRIME_EN (b2n a.primeEn)) F.PMP_DRN_CTL_PRIME_WAIT (b2n a.primeWait)
  setBoth (setBoth s1 F.PMP_DRN_CTL_HEATW a.heatw) F.PMP_PRIME_LIM_LINES a.primeLim

/-- What priming takes, in order (R35, R210, R211): boot image, heat list, snapshot. The classified area is the one of the run before. -/
def primeSources (s : State) : List LineAddr :=
  let cls := getF s F.PMP_RST_STAT_CLASS
  let heat := (areaOf s (1 - areaIx s)).heat
  let k := s.start.bootSlot
  let h := bootOf s k
  let boot := if h.valid then (List.range ((h.len + 63) / 64)).map (fun i => BitVec.ofNat 40 (effF s F.DIR_BOOT_BASE * 0x40000 + i)) else []
  boot ++ (if cls = 1 then heat.map (pmemAt s) else []) ++ (if cls = 1 ∨ cls = 2 then (lastSnap s).lines.map (pmemAt s) else [])

/-- Step 5 (R184, R186, R203, R207–R211, R230, R365, row RESTART_CLASSIFICATION_DONE): the wear state restored, the fuse spares
programmed, the later area classified, its lines poisoned, the other area's header written. -/
def classify (s : State) : State :=
  if s.start.running = false ∨ s.start.settings = false ∨ s.start.classified then s
  else if cisUp s = false then (if s.start.faults.contains 5 then s else startFault s 5)
  else
    let s0 := fuseSpares (wearRestore s)
    let m := s0.mdata
    let at' := laterArea m
    let cur : Area := match at' with
      | some 0 => m.area0
      | some _ => m.area1
      | none => {}
    let other : Area := match at' with
      | some 0 => m.area1
      | _ => m.area0
    let cls := if at'.isNone then 0 else classOf cur
    let gen := if at'.isNone then 1 else (cur.gen + 1) % 2 ^ 24
    let bad := if cls = 2 then unsealedLines s0 cur else []
    let s1 := bad.foldl (classPoison gen) s0
    let suspect := cur.suspect || decide (cls = 3)
    let gs := if cur.suspect then cur.gs else if cls = 3 then gen else 0
    let s2 := setArea s1 (if at' = some 0 then 1 else 0) { header := true, gen := gen, suspect := suspect, gs := gs }
    let s3 := setF (setF (setF s2 F.PMP_DRN_STAT_GEN gen) F.PMP_DRN_STAT_REASON m.lastReason) F.PMP_DRN_STAT_STATE (if s.start.blank then 0 else 4)
    let s4 := setF (setF (setF s3 F.PMP_RST_STAT_CLASS cls) F.PMP_RST_STAT_SUSPECT (b2n suspect)) F.PMP_RST_STAT_GS gs
    let s5 := setF (setF (setF s4 F.PMP_RST_POIS_POISONED bad.length) F.PMP_DRN_LAST_TIME m.lastTime) F.PMP_DRN_ENT_ENTRIES m.lastEntries
    let s6 := post (areaWrite s5 (1 + cur.remote.length) (fun a => { a with remote := cur.remote })) 0x0302 0x48 (b1 cls ++ leBytes 3 gen ++ leBytes 4 bad.length)
    let s7 : State := { s6 with drain := { s6.drain with remote := cur.remote }, start := { s6.start with classified := true } }
    let s8 := primeSettings (applySplit s7) cur cls other
    push s8 .start

/-- The profile is written to the blocks of AON, or to those outside it that are up (R327, R362, R363). -/
def profileWrite (s : State) (aon : Bool) : State :=
  s.journal.image.foldl (fun s e => match registerOf e.1 with
    | some o => if (rowAt o).isSome ∧ (domainAt o).isNone = aon ∧ blockUp s o = true then regWrite s o (BitVec.ofNat 32 (ofLe e.2)) else s
    | none => s) s

/-- The block mask of the second commit of step 6: every block that is up (R298, R363). -/
def profileMask (s : State) : Word :=
  let up := fun (bitOf n base size : Nat) => sumOf ((List.range n).map (fun k => if blockUp s (base + k * size) then 1 <<< (bitOf + k) else 0))
  BitVec.ofNat 32 (0x537 + up 6 1 0xC0000 0x10000 + up 7 1 0xD0000 0x10000 + up 3 1 0x90000 0x10000 + up 9 1 0x80100 0x10000
    + up 12 6 0x300000 0x10000 + up 20 3 0x380000 0x10000 + up 24 4 0x400000 0x40000 + 0x80000000)

/-- A block refused by the profile's commits is a fault of step 6 (R365). -/
def profileFault (s : State) : State :=
  if raw s R.CFG_COMMIT_REF ≠ 0 ∧ s.start.faults.contains 6 = false then startFault s 6 else s

/-- Step 6 (R363; two commits, because a register of a domain that is off cannot be written). -/
def profileRun (s : State) : State :=
  let st := s.start
  if st.running = false ∨ st.settings = false ∨ st.classified = false ∨ st.blank ∨ s.commit.isSome ∨ clocksRun s = false then s
  else match st.phase with
  | 0 =>
    let s1 := profileWrite s true
    let s2 := if getF s1 F.FED_CFG_EXPECT &&& (15 - 1 <<< self s1) ≠ 0 then setF s1 F.PMU_PD_CTL_ON (getF s1 F.PMU_PD_CTL_ON ||| 1 <<< 28) else s1
    commitStart { s2 with start := { s2.start with phase := 1 } } 3
  | 1 =>
    let s1 := profileWrite (profileFault s) false
    let ups := sumOf ((List.range 32).map (fun n => if sliceUp s1 n then 1 <<< n else 0))
    let s2 := setF s1 F.CFG_CSLC_SLICES ups
    commitStart { s2 with start := { s2.start with phase := 2 } } (profileMask s2)
  | 2 =>
    let s1 := profileFault s
    let q := if effF s1 F.PMP_DRN_CTL_PRIME_EN = 1 then primeSources s1 else []
    push { s1 with start := { s1.start with phase := 3, profile := true, primeQ := q } } .fed
  | _ => s

/-- Step 7 (R218, R363, R365): every channel that is enabled reads READY or FAILED. -/
def channelsTend (s : State) : State :=
  if s.start.profile = false ∨ isF s F.FED_SSTAT_MEM then s
  else
    let on := (List.range 4).filter (fun c => decide (effF s (F.MCH_CTL_EN c) = 1))
    let s1 := on.foldl (fun s c =>
      if getF s (F.MCH_STAT_STATE c) = 3 ∧ s.start.memFail.contains c = false then
        startFault { s with start := { s.start with memFail := s.start.memFail ++ [c] } } 7
      else s) s
    if on.all (fun c => decide (2 ≤ getF s1 (F.MCH_STAT_STATE c))) then push (flag s1 F.FED_SSTAT_MEM) .fed else s1

/-- Priming goes on (R211): 16 fills outstanding, no more lines than the limit; background work once the agents run. -/
def primeIssue (s : State) : Nat → State
  | 0 => s
  | k + 1 =>
    match s.start.primeQ with
    | [] => s
    | l :: rest =>
      if 16 ≤ s.start.primeOut ∨ effF s F.PMP_PRIME_LIM_LINES ≤ getF s F.PMP_PRIME_STAT_LINES + s.start.primeOut ∨ stalled s l
          ∨ (s.start.released ∧ quiet s) then s
      else
        let s1 : State := { s with start := { s.start with primeQ := rest, primeOut := s.start.primeOut + 1 } }
        primeIssue (issue s1 { who := .prime, op := .primeFill, line := l }) k

/-- At the limit nothing is left to prime. -/
def primeTend (s : State) : State :=
  if s.start.profile = false ∨ gated s then s
  else
    let s1 := primeIssue s 16
    if effF s1 F.PMP_PRIME_LIM_LINES ≤ getF s1 F.PMP_PRIME_STAT_LINES then { s1 with start := { s1.start with primeQ := [] } } else s1

/-- A home answers a fill of priming (R211): 1 primed, 2 it would displace a valid line, else the line is skipped. -/
def primeReply (s : State) (m : Msg) : State :=
  let s1 : State := { s with start := { s.start with primeOut := s.start.primeOut - 1 } }
  let ok := decide (m.opc = 0x2C)
  let s2 := if ok ∧ m.arg = 1 then setF s1 F.PMP_PRIME_STAT_LINES (getF s1 F.PMP_PRIME_STAT_LINES + 1) else s1
  push (if ok ∧ m.arg = 2 then { s2 with start := { s2.start with primeQ := [] } } else s2) .start

/-- Step 9 ends (R211, R214, row PRIMING_DONE). -/
def primingDone (s : State) : State :=
  if s.start.profile = false ∨ s.start.primeQ ≠ [] ∨ s.start.primeOut ≠ 0 ∨ isF s F.FED_SSTAT_PRIME ∨ gated s then s
  else
    let s1 := flag (flag s F.FED_SSTAT_PRIME) F.PMP_RST_STAT_PRIMED
    push (push (if pumpState s1 = 4 then setF s1 F.PMP_DRN_STAT_STATE 0 else s1) .start) .fed

/-- Whether AGENT_RST_N[k] is to be driven (R364, R366). -/
def pinWanted (s : State) (k : Nat) : Bool :=
  s.start.released && !s.supply.inReset && pdOn s (17 + k) && decide (effF s (F.APT_CTL_EN k) = 1) && !((getF s F.FED_ARST_HOLD).testBit k)

/-- The pins follow their conditions (R364, R366): undriven at once, driven again 10 µs after that at the earliest. -/
def pinsTend (s : State) : State :=
  (List.range 6).foldl (fun s k =>
    let d := getF s F.FED_ARST_DRIVEN
    if pinWanted s k then (if d.testBit k ∨ s.start.cooling.contains k then s else setF s F.FED_ARST_DRIVEN (d ||| 1 <<< k))
    else if d.testBit k then { setF s F.FED_ARST_DRIVEN (d - 1 <<< k) with start := { s.start with cooling := s.start.cooling ++ [k] } }
    else s) s

/-- 10 µs have passed since a pin stopped being driven (R366, row ARST_DRIVE_DELAY). -/
def pinCooled (s : State) (k : Nat) : State :=
  push { s with start := { s.start with cooling := s.start.cooling.filter (fun p => decide (p ≠ k)) } } .start

/-- Step 10 (R364, R366, R382, row AGENT_RELEASE). -/
def agentRelease (s : State) : State :=
  let primed := isF s F.FED_SSTAT_PRIME || decide (effF s F.PMP_DRN_CTL_PRIME_WAIT = 0)
  if s.start.running = false ∨ s.start.profile = false ∨ isF s F.FED_SSTAT_MEM = false ∨ isF s F.FED_SSTAT_FED = false ∨ primed = false
      ∨ chisoRuns s = false ∨ gated s then s
  else
    let us := (s.tb - s.start.tb).toNat / 100
    let s1 : State := { s with start := { s.start with released := true, running := false }, supply := { s.supply with sagN := false } }
    let s2 := setF (setF s1 F.FED_TREL_US us) F.FED_SSTAT_STEP 10
    push (post s2 0x0800 0x50 (leBytes 4 us ++ b1 (getF s2 F.FED_SSTAT_KIND))) .start

/-- The start domains and their enables (R362): PD27, PD28 and PD30; CSTA, CSTB, PCIE, CAN and CRYPTO. -/
def startDomains (s : State) : State :=
  let pd := 1 <<< 26 + 1 <<< 27 + 1 <<< 29
  let en := BitVec.ofNat 32 (1 <<< 10 + 1 <<< 11 + 1 <<< 15 + 1 <<< 16 + 1 <<< 17)
  let s1 := setBoth { s with start := { s.start with domains := true } } F.PMU_PD_CTL_ON pd
  startOns (setEff (wr s1 R.CLK_EN_DEV en) R.CLK_EN_DEV en) [27, 28, 30]

/-- The CAN controller follows its domain, its clock and CAN_CTL.EN (R331, R333, R340), and Chiso sends the boot-up frame. -/
def canTend (s : State) : State :=
  let up := blockUp s 0xD0000 && decide (effF s F.CAN_CTL_EN = 1) && clocksRun s
  let b := getF s F.CAN_STAT_BUS
  let s1 := if up ∧ b = 0 then setF s F.CAN_STAT_BUS 1 else if up = false ∧ b ≠ 0 then setF s F.CAN_STAT_BUS 0 else s
  let l := up && listens s1
  let s2 := if isF s1 F.CAN_STAT_LISTEN = l then s1 else setF s1 F.CAN_STAT_LISTEN (b2n l)
  if chisoRuns s2 ∧ s2.start.settings ∧ busOn s2 ∧ l = false ∧ s2.can.booted = false then bootUp s2 else s2

/-- The step in progress (R363, R384). -/
def stepNow (s : State) : Nat :=
  let st := s.start
  if clocksRun s = false ∧ st.domains = false then 2
  else if chisoRuns s = false ∧ st.settings = false then 3
  else if st.settings = false then 4
  else if st.classified = false ∨ st.blank then 5
  else if st.profile = false then 6
  else if isF s F.FED_SSTAT_MEM = false then 7
  else if isF s F.FED_SSTAT_FED = false then 8
  else if isF s F.FED_SSTAT_PRIME = false ∧ effF s F.PMP_DRN_CTL_PRIME_WAIT = 1 then 9
  else 10

/-- Chiso copies an error record into the health log, a ring of 6,144 lines (R171, R187, R237), and sends its EMCY where R310 has sent none (R224). -/
def healthPut (s : State) (r : List Word) (emcy : Bool) : State :=
  let m := s.mdata
  let ring := if m.health.length < 6144 then m.health else m.health.drop 1
  let s1 := meter { s with mdata := { m with health := ring ++ [r], healthNo := m.healthNo + 1 } }
    { prio := 3, kind := .lines, place := some (metaLine (0x7A0000 + 64 * (m.healthNo % 6144))) }
  let w := (r.headD 0).toNat
  let src := irqOf (w % 0x10000)
  if emcy ∧ busOn s1 ∧ nmtServes s1 = true then
    queueEmcy s1 (leBytes 2 (emcyCode src) ++ [errorRegister s1, BitVec.ofNat 8 src] ++ leBytes 2 (w % 0x10000) ++ [BitVec.ofNat 8 (w / 0x10000), 0])
  else s1

/-- An error record reaches Chiso; during a restart it waits (R287). -/
def healthTake (s : State) (r : List Word) (emcy : Bool) : State :=
  if chisoRuns s ∧ cisUp s = true then healthPut s r emcy else { s with mcu := { s.mcu with owed := s.mcu.owed ++ [(r, emcy)] } }

/-- What waited for Chiso is done once it runs. -/
def healthFlush (s : State) : State :=
  if chisoRuns s = false ∨ cisUp s = false then s else s.mcu.owed.foldl (fun s e => healthPut s e.1 e.2) { s with mcu := { s.mcu with owed := [] } }

/-- The start goes on by what has happened (R362–R366), and so do the units that follow the domains and the clocks. -/
def startTend (s : State) : State :=
  let s0 := railsGood s
  let s1 := if s0.start.running ∧ clocksRun s0 ∧ s0.start.domains = false then startDomains s0 else s0
  let s2 := if s1.start.running ∧ s1.start.rom = false ∧ cryptoUp s1 ∧ cisUp s1 then romBegin { s1 with start := { s1.start with rom := true } } 1 else s1
  let s3 := primeTend (channelsTend (profileRun s2))
  let s4 := canTend (pinsTend ((List.range 4).foldl channelEnable s3))
  let s5 := if s4.start.running ∧ getF s4 F.FED_SSTAT_STEP ≠ stepNow s4 then setF s4 F.FED_SSTAT_STEP (stepNow s4) else s4
  healthFlush (journalTend (ckptWalk s5))

end Sys2Proof.Machine
end

