-- ==== Sys2Proof/Machine/Csr.lean ====
section
/-! DEFINITION. The CSR root: what a read of each register returns, direct and indirect accesses, accesses that wait for a
clock, the pop of the event queue, and the outcome on each path (R6, R27, R34, R38, R39, R273, R292–R295, R308). -/

namespace Sys2Proof.Machine

/-- 4 bytes of a number, from byte 4 k up. -/
def wordAt (v k : Nat) : Word := BitVec.ofNat 32 (v >>> (32 * k))

/-- What registers of AON read beside their stored values (R268, R308, R311, R358, R387). -/
def readGen (s : State) (o off : Nat) : Word :=
  if o = 0 then BitVec.ofNat 32 (0x6440 + Config.revision.toNat <<< 16)
  else if o = 4 then wordAt Config.serial.toNat 0
  else if o = 8 then wordAt Config.serial.toNat 1
  else if o = 0x10 then
    let st := pumpState s
    BitVec.ofNat 32 (getF s F.GEN_STAT_FATAL + 4 * getF s F.GEN_STAT_START + 16 * b2n s.start.released + 32 * b2n (decide (st = 1 ∨ st = 2))
      + 64 * b2n (holding s) + 128 * getF s F.PMP_RST_STAT_SUSPECT + 256 * b2n (decide (getF s F.PMU_MCU_STATE = 0)))
  else raw s off
def readCfg (s : State) (o off : Nat) : Word :=
  if 0x20 ≤ o ∧ o < 0x40 then
    BitVec.ofNat 32 (ofLe ((List.range 4).map (fun k => BitVec.ofNat 8 (slice s (o - 0x20 + k)).epoch)))
  else raw s off
def readEvq (s : State) (m : Master) (o off : Nat) : Word :=
  if 4 ≤ o ∧ o < 0x20 then ((nget s.evq.latches (masterIx m)).getD []).getD (o / 4) 0
  else if o = 0x20 then BitVec.ofNat 32 (s.evq.recs.length + s.evq.lost <<< 16)
  else raw s off
def readClk (s : State) (o off : Nat) : Word :=
  if o = 0x60 then wordAt s.tb.toNat 0 else if o = 0x64 then wordAt s.tb.toNat 1 else raw s off
def readPhu (s : State) (o off : Nat) : Word :=
  if o = 4 then (if fallback s then setBit (raw s off) 7 else clrBit (raw s off) 7) else if o = 8 then phaseWord s else raw s off
def readSec (s : State) (o off : Nat) : Word :=
  if o = 0 then putBits (raw s off) 0 16 Config.romVersion.toNat
  else if o = 4 then BitVec.ofNat 32 (s.sec.fuses + 256 + 512 * b2n Config.rootKeyFused)
  else if 0x10 ≤ o ∧ o < 0x30 then wordAt Config.rootKeyHash.toNat ((o - 0x10) / 4)
  else if s.sec.phase = 1 ∧ ((0x120 ≤ o ∧ o < 0x140) ∨ (0x1000 ≤ o ∧ o < 0x2000)) then 0
  else raw s off

/-- The governor's level as 40 bits of two's complement (R192). -/
def levelBits (s : State) : Nat := (BitVec.ofInt 40 s.cis.level).toNat
def readPmp (s : State) (o off : Nat) : Word :=
  match o with
  | 0x10 => BitVec.ofNat 32 (pdqLevel s)
  | 0x20 => BitVec.ofNat 32 (ownLevel s)
  | 0x108 => wordAt (levelBits s) 0
  | 0x10C => wordAt (levelBits s) 1
  | 0x110 => if s.cis.queue = [] then raw s off else setBit (raw s off) 0
  | 0x120 => wordAt s.cis.total.toNat 0
  | 0x124 => wordAt s.cis.total.toNat 1
  | 0x128 => wordAt s.cis.drain.toNat 0
  | 0x12C => wordAt s.cis.drain.toNat 1
  | _ => raw s off

/-- The same of the blocks outside AON, and of DIR (R37, R40, R95, R291, R313, R339). -/
def readDir (s : State) (o off : Nat) : Word :=
  if 0x800 ≤ o ∧ o < 0xC00 then BitVec.ofNat 32 (homeSlice s ((o - 0x800) / 4)) else raw s off
def readPci (s : State) (o off : Nat) : Word :=
  if o = 4 then
    let up := pcieUp s
    BitVec.ofNat 32 (b2n up + (if up then 2 * bits Config.hostLink 0 2 + 8 * bits Config.hostLink 2 2 else 0)
      + 32 * (if s.pcie.d3hot then 3 else 0) + 128 * b2n s.pcie.bme)
  else if o = 0x10 then BitVec.ofNat 32 s.pcie.inq.length
  else if o = 0x14 then putBits (raw s off) 0 16 Config.vendorId.toNat
  else raw s off
def readSlc (s : State) (n o off : Nat) : Word :=
  let x := slice s n
  match o with
  | 0x8 => BitVec.ofNat 32 (pdirty x + lockedWays x <<< 16)
  | 0x50 => BitVec.ofNat 32 x.mshrs.length
  | 0x60 => BitVec.ofNat 32 x.evb.length
  | 0x120 => BitVec.ofNat 32 (evacLeft s n + b2n x.evacOn <<< 17 + b2n (isF s (F.SLC_EVAC_STAT_EMPTY n) && !(evacHolds s n)) <<< 18)
  | _ => raw s off
def readApt (s : State) (p o off : Nat) : Word := if o = 0x40 then BitVec.ofNat 32 (port s p).iwb.length else raw s off

/-- What a register holds as its source has it now. -/
def liveReg (s : State) (m : Master) (off : Nat) : Word :=
  match place off with
  | none => 0
  | some (b, n, o) =>
    match b with
    | .gen => readGen s o off
    | .cfg => readCfg s o off
    | .evq => readEvq s m o off
    | .clk => readClk s o off
    | .phu => readPhu s o off
    | .sec => readSec s o off
    | .cst => if o = 0x44 then rmWord s else raw s off
    | .pmp => readPmp s o off
    | .dir => readDir s o off
    | .pci => readPci s o off
    | .msr => raw s off
    | .slc => readSlc s n o off
    | .apt => readApt s n o off
    | .pmu => raw s off
    | .mop => raw s off
    | .crc => raw s off
    | .can => raw s off
    | .fed => raw s off
    | .feda => raw s off
    | .mch => raw s off

/-- The low register of a value in two registers that moves by itself (R273). -/
def pairLow (off : Nat) : Bool :=
  match place off with
  | none => false
  | some (b, _, o) =>
    match b with
    | .evq => decide (o = 0x2C)
    | .clk => decide (o = 0x60)
    | .mop => decide (0x100 ≤ o ∧ o < 0x200 ∧ o % 0x40 = 0x34)
    | .pmp => [0x18, 0x28, 0x108, 0x118, 0x120, 0x128].contains o
    | .msr => decide (o = 0xC0 ∨ o = 0xC8)
    | .slc => decide (o = 0x58 ∨ o = 0x68)
    | .apt => decide (o = 0x48)
    | _ => false

/-- A read of a register (R6, R273, R294): the upper half of a pair is that of the last snapshot. -/
def readReg (s : State) (m : Master) (off : Nat) : Word :=
  if 4 ≤ off ∧ pairLow (off - 4) then (nget s.snaps off).getD (liveReg s m off) else liveReg s m off

/-- A read of a low register takes the snapshot (R273). -/
def noteRead (s : State) (m : Master) (off : Nat) : State :=
  if pairLow off then { s with snaps := nset s.snaps (off + 4) (liveReg s m (off + 4)) } else s

/-- The physical address of a register of this device (R34). -/
def csrAddr (s : State) (off : Nat) : Nat := 0x3FFE00000000 + self s * 0x1000000 + off

/-- CFG_IND_k_DATA: which pair an offset is the data register of (R295, R311). -/
def indPair (off : Nat) : Option Nat :=
  if 0x10044 ≤ off ∧ off < 0x10064 ∧ off % 8 = 4 then some ((off - 0x10044) / 8) else none

/-- The outcome of an access goes back on its path (R38, R292, R293). -/
def csrDeliver (s : State) (a : CsrAcc) (w : BitVec 64) (cause : Nat) : State :=
  match a.src with
  | .cmd => emit (if cause ≠ 0 ∧ a.m = .host then aer (pciErr s F.PCI_ERR_CA) 1 else s) (.regDone a.m a.off w cause)
  | .req r =>
    if cause ≠ 0 then push s (.reply r { opc := 0x2D, cls := 2, tx := r.tx, line := r.line, arg := BitVec.ofNat 12 cause })
    else if a.wr then cmp s r 0
    else finish s r 0x30 3 0 (BitVec.ofNat 512 (w.toNat <<< (8 * (a.off % 64)))) false
  | .tag t => npDone s t (fun q => if cause ≠ 0 then { q with failed := true } else { q with bytes := leBytes a.len w.toNat })
  | .dict => dictCsr s (BitVec.ofNat 32 w.toNat) cause

/-- An access ends in error; causes 1 to 6 are recorded (R38, R39, R295). -/
def csrFail (s : State) (a : CsrAcc) (cause : Nat) : State :=
  csrDeliver (if cause ≤ 6 then failAccess s (csrAddr s a.off) cause (masterIx a.m) else s) a 0 cause

/-- The offset of the register that an access is at: the second of an 8-byte access once the first is done (R292). -/
def CsrAcc.at (a : CsrAcc) : Nat := if a.low.isSome then a.off + 4 else a.off

/-- The word that an access writes there. -/
def CsrAcc.word (a : CsrAcc) : Word := wordAt a.w.toNat (if a.low.isSome then 1 else 0)

/-- A pair advances after an access that completed without error (R295). -/
def indAdvance (s : State) (off : Nat) : State :=
  match indPair off with
  | none => s
  | some k =>
    if isF s (F.CFG_IND_ADDR_INC k) then setF s (F.CFG_IND_ADDR_OFF k) (getF s (F.CFG_IND_ADDR_OFF k) + 1) else s

/-- A pop takes the oldest record into its master's latch and returns word 0 (R308); what was lost is recorded once there is room (R307). -/
def popNow (s : State) (m : Master) (r : List Word) (rest : List (List Word)) : State :=
  let s1 : State := { s with evq := { s.evq with recs := rest, latches := nset s.evq.latches (masterIx m) r } }
  if s1.evq.lost ≠ 0 then enterLost s1 else s1

/-- The empty token, and a latch of zeros (R308). -/
def popEmpty (s : State) (m : Master) : State :=
  { s with evq := { s.evq with latches := nset s.evq.latches (masterIx m) (List.replicate 8 0) } }
def emptyToken : Word := 0x80000000

/-- What an access to one register of this device comes to: done with a value, in error, or not yet. -/
inductive Served where
  | done (s : State) (w : Word)
  | fail (cause : Nat)
  | wait (s : State)

/-- An access to one register of this device (R34, R38, R293, R308): a stopped clock holds it at the root, an empty queue lets it wait
outside. -/
def csrAt (s : State) (a : CsrAcc) (o : Nat) : Served :=
  if (place o).isNone ∨ blockUp s o = false then .fail 6
  else if (domainAt o).isSome ∧ clocksRun s = false then .wait { s with csrWaits := a :: s.csrWaits }
  else if a.wr then .done (regWrite s o a.word) 0
  else if o = R.EVQ_POP then
    match s.evq.recs with
    | r :: rest => .done (popNow s a.m r rest) (r.headD 0)
    | [] =>
      if getF s F.EVQ_CFG_STALL = 0 then .done (popEmpty s a.m) emptyToken
      else .wait { s with evq := { s.evq with waiters := s.evq.waiters ++ [a] } }
  else .done (noteRead s a.m o) (readReg s a.m o)

/-- An access through a pair (R295): to this device's register, or over the link to a peer's. -/
def indAt (s : State) (a : CsrAcc) (k : Nat) : Served :=
  let off := getF s (F.CFG_IND_ADDR_OFF k) * 4
  let dev := getF s (F.CFG_IND_ADDR_DEV k)
  if present s dev = false then .fail 2
  else if (indPair off).isSome then .fail 6
  else if dev = self s then csrAt s a off
  else
    let id := s.fresh
    let b := off % 64
    let r : HReq := { who := .csr (masterIx a.m) id, op := if a.wr then .write else .rdOnce,
                      line := BitVec.ofNat 40 ((0x3FFE00000000 + dev * 0x1000000 + off) / 64), mask := runMask b 4, arg := BitVec.ofNat 12 (b + 3 <<< 6),
                      data := BitVec.ofNat 512 (a.word.toNat <<< (8 * b)) }
    .wait (sendRemote { freshen s with indOut := some { a with ind := some id } } dev r)

/-- The root serves an access (R292): a register, or two of them with nothing between. -/
def csrRun (s : State) (a : CsrAcc) : Nat → State
  | 0 => s
  | n + 1 =>
    let r := match indPair a.at with
      | some k => indAt s a k
      | none => csrAt s a a.at
    match r with
    | .wait s1 => s1
    | .fail c => csrFail s a c
    | .done s1 w =>
      let s2 := indAdvance s1 a.at
      match a.low with
      | some v => csrDeliver s2 a (BitVec.ofNat 64 (v.toNat + w.toNat <<< 32)) 0
      | none => if a.len = 8 then csrRun s2 { a with low := some w } n else csrDeliver s2 a (BitVec.ofNat 64 w.toNat) 0

/-- An access whose register answered later goes on (R292, R308). -/
def csrAnswered (s : State) (a : CsrAcc) (w : Word) : State :=
  let s1 := indAdvance s a.at
  match a.low with
  | some v => csrDeliver s1 a (BitVec.ofNat 64 (v.toNat + w.toNat <<< 32)) 0
  | none => if a.len = 8 then csrRun s1 { a with low := some w } 2 else csrDeliver s1 a (BitVec.ofNat 64 w.toNat) 0

/-- An access arrives at the root (R27, R293): while the root holds one, it waits in order. -/
def csrArrive (s : State) (a : CsrAcc) : State :=
  if s.csrWaits = [] ∧ s.indOut.isNone then csrRun s a 2 else { s with csrWaits := s.csrWaits ++ [a] }

/-- The accesses at the root go on in their order, up to one that is held again. -/
def csrResume (s : State) : Nat → State
  | 0 => s
  | n + 1 =>
    if s.indOut.isSome then s
    else match s.csrWaits with
    | [] => s
    | a :: rest =>
      let s1 := csrRun { s with csrWaits := rest } a 2
      if s1.csrWaits.length ≤ rest.length then csrResume s1 n else s1
def csrTend (s : State) : State := csrResume s (s.csrWaits.length + 1)

/-- The master of a request of Device memory, and the access it makes (R34, R57). -/
def masterFor (r : HReq) : Master :=
  match r.link with
  | some l => .vl (Fin.ofNat 3 l)
  | none => match r.who with
    | .agent a => .ap (Fin.ofNat 6 a.port)
    | .host => .host
    | _ => .chiso
def accOf (r : HReq) : CsrAcc :=
  let first := ((List.range 64).find? (fun i => bit r.mask i)).getD 0
  let off := if r.op = .write then first else argOff r.arg
  let len := if r.op = .write then popcount r.mask else argLen r.arg
  { m := masterFor r, src := .req r, off := (r.line.toNat * 64 + off) % 0x1000000, len := len, wr := decide (r.op = .write),
    w := BitVec.ofNat 64 (r.data.toNat >>> (8 * off)) }

/-- A request of Device memory arrives (R34, R56, R57): a poisoned write is refused. -/
def deviceArrive (s : State) (r : HReq) : State :=
  if r.op = .write ∧ r.poison then failReq s r 9 else csrArrive s (accOf r)

/-- A peer answers an indirect access (R295). -/
def csrReply (s : State) (id : Nat) (m : Msg) : State :=
  match s.indOut with
  | none => s
  | some a =>
    if a.ind ≠ some id then s
    else
      let s1 := { s with indOut := none }
      let s2 := if m.opc = 0x2D then csrDeliver s1 a 0 m.arg.toNat
        else csrAnswered s1 a (if a.wr then 0 else BitVec.ofNat 32 (m.data.toNat >>> (8 * ((getF s (F.CFG_IND_ADDR_OFF (((indPair a.at).getD 0))) * 4) % 64))))
      csrTend s2

/-- The device and offset that an access is for, as CFG_ERR reports them (R293, R311). -/
def csrTarget (s : State) (a : CsrAcc) : Nat × Nat :=
  match indPair a.at with
  | some k => (getF s (F.CFG_IND_ADDR_DEV k), getF s (F.CFG_IND_ADDR_OFF k) * 4)
  | none => (self s, a.at)

/-- An access ends for want of an answer (R293): the first is kept in CFG_ERR, record 0x0101. -/
def csrLate (s : State) (a : CsrAcc) : State :=
  let t := csrTarget s a
  let s1 := if isF s F.CFG_ERR_CSR_TO then s
    else setF (setF (setF (flag s F.CFG_ERR_CSR_TO) F.CFG_ERR_DEV t.1) F.CFG_ERR_MASTER (masterIx a.m)) F.CFG_ERR_OFF t.2
  csrDeliver (post s1 0x0101 0x40 (leBytes 4 t.2 ++ b1 t.1 ++ b1 (masterIx a.m))) a 0 8

/-- 4 µs have passed without an answer (R293, row CSR_TIMEOUT). -/
def csrTimedOut (s : State) : State :=
  match s.indOut with
  | some a => csrTend (csrLate { s with indOut := none } a)
  | none => match s.csrWaits with
    | [] => s
    | a :: rest => csrTend (csrLate { s with csrWaits := rest } a)

/-- STALL passes for the oldest waiting pop of a master (R308, row EVQ_POP_STALL). -/
def popStall (s : State) (m : Master) : State :=
  match s.evq.waiters.find? (fun a => decide (a.m = m)) with
  | none => s
  | some a =>
    let s1 : State := { s with evq := { s.evq with waiters := dropOne (fun b => decide (b.m = m)) s.evq.waiters } }
    csrAnswered (popEmpty s1 m) a emptyToken

/-- A write of one register by a master that names it by its offset, as the rows of the table make it; one that is not aligned ends in error and
reaches no register (R292). -/
def csrPut (s : State) (m : Master) (off : Nat) (w : Word) : State :=
  if off % 4 ≠ 0 then csrDeliver s { m := m, off := off, wr := true } 0 4
  else csrArrive s { m := m, off := off, wr := true, w := BitVec.ofNat 64 w.toNat }

/-- A read of one register. -/
def csrGet (s : State) (m : Master) (off : Nat) : State := csrArrive s { m := m, off := off }

end Sys2Proof.Machine
end

