-- ==== Sys2Proof/Machine/Fabric.lean ====
section
/-! DEFINITION. What is in flight between the units and how it goes on until nothing more happens by itself, what the units notice when
another changes, the TPDOs, and a tick of TBASE (R14, R71, R190, R266, R268, R304, R336, R369). -/

namespace Sys2Proof.Machine

/-- One mapped entry of a TPDO as the node reads it at the trigger (R336); bytes that nothing gives are a free value (log entry 25). -/
def tpdoRead (acc : State × List Byte) (w : Word) : State × List Byte :=
  let s := acc.1
  let free := (freshen s, acc.2 ++ leBytes 4 (Config.freeWord s.fresh).toNat)
  match registerOf (bits w 8 24) with
  | none => free
  | some off =>
    match csrAt s { m := .net, off := off } off with
    | .done s1 v => (s1, acc.2 ++ leBytes 4 v.toNat)
    | .fail _ => free
    | .wait _ => free

/-- Whether TPDO `k` can be sent (R331, R333, R336). -/
def tpdoMay (s : State) (k : Nat) : Bool :=
  chisoRuns s && busOn s && decide (getF s F.CAN_STAT_NMT = 2) && !(bit (cobOf s k) 31) && !(isF s F.CAN_STAT_LISTEN)

/-- Whether the inhibit time of a TPDO has passed (R336): units of 100 µs. -/
def tpdoFree (s : State) (k : Nat) : Bool :=
  match nget s.can.sentTb k with
  | none => true
  | some t => decide (((nget s.can.inhibit k).getD 0) * 10000 ≤ (s.tb - t).toNat)

/-- A TPDO leaves: the mapped entries in order, one classical frame (R336). -/
def tpdoSend (s : State) (k : Nat) : State :=
  let r := ((mapWords s k).take (mapCount s k)).foldl tpdoRead (s, [])
  let s1 := canSend r.1 (bits (cobOf s k) 0 29) r.2
  { s1 with can := { s1.can with sentTb := nset s1.can.sentTb k s1.tb, due := s1.can.due.filter (fun q => decide (q ≠ k)) } }

/-- The trigger of a TPDO: sent, or once the inhibit time has passed (R336). -/
def tpdoTrigger (s : State) (k : Nat) : State :=
  if tpdoMay s k = false then s
  else if tpdoFree s k then tpdoSend s k
  else if s.can.due.contains k then s
  else { s with can := { s.can with due := s.can.due ++ [k] } }

/-- A measurement snapshot triggers the TPDOs of type 254 (R249, R336). -/
def tpdoSnap (s : State) : State := ((List.range 4).filter (fun k => decide (typeOf s k = 254))).foldl tpdoTrigger s

/-- The event timer of a TPDO passes (R336, row TPDO_EVENT_TIMER). -/
def tpdoTimer (s : State) (k : Nat) : State := if (nget s.can.timer k).getD 0 = 0 then s else tpdoTrigger s k

/-- The TPDOs that waited for their inhibit time. -/
def tpdoDue (s : State) : State :=
  s.can.due.foldl (fun s k => if tpdoFree s k then (if tpdoMay s k then tpdoSend s k else { s with can := { s.can with due := s.can.due.filter (fun q => decide (q ≠ k)) } }) else s) s

/-- A completion reaches its requester, over a link or here. -/
def replyTo (s : State) (r : HReq) (m : Msg) : State :=
  match r.link with
  | some l => linkReply s l r m
  | none => match r.who with
    | .agent a => portReply s a.port r m
    | .host => hostReply s r m
    | .dma c => dmaReply s c r m
    | .dict => dictReply s m
    | .crypto => cryptoReply s r m
    | .mop k => mopReply s k r m
    | .pump => pumpReply s r
    | .prime => primeReply s m
    | .csr _ id => csrReply s id m

/-- A buffered write has been taken, or ended in error. -/
def takenBy (s : State) (r : HReq) (cause : Nat) : State :=
  match r.who with
  | .agent a => entryGone s a.port r cause
  | .host => pieceGone s r cause
  | _ => s

/-- One unit of work is done by the unit it is for. -/
def flowStep (s : State) (f : Flow) : State :=
  match f with
  | .home n r => homeArrive s n r
  | .reenter n r => h1 (count s n 1) n r
  | .answer n a => takeAnswer s n a
  | .wbData n a => takeWb s n a
  | .tend n => tend s n
  | .port p => portTend s p
  | .link l => linkPump s l
  | .egress side => egressRun s side 1000
  | .fwd t m n => deliverFwd s t m n
  | .peerFwd l m => deliverPeer s l m
  | .send t m => sendPulled s t m
  | .reply r m => replyTo s r m
  | .taken r c => takenBy s r c
  | .rx side g => takeMsg s side g
  | .boundary => Sys2Proof.Machine.applyBoundary s
  | .csr a => csrArrive s a
  | .csrDone a w _ => csrAnswered s a (BitVec.ofNat 32 w.toNat)
  | .device r => deviceArrive s r
  | .mop k => mopTend s k
  | .inq => inqTend s
  | .dma c => dmaTend s c
  | .dict => dictTend s
  | .crypto => secTend s
  | .tpdo => tpdoSnap s
  | .drain => drainTend s
  | .start => csrTend (startTend s)
  | .fed => fedTend s
  | .commit => commitRun s 8
  | .fixed l => fixedDone s l
  | .health r e => healthTake s r e
  | .breach side code hdr => takeBreach s side code hdr

/-- Work of units that stand still in CLOCK-HOLD (R266). -/
def Flow.switched : Flow → Bool
  | .csr _ => false
  | .csrDone _ _ _ => false
  | .boundary => false
  | .drain => false
  | .start => false
  | .fed => false
  | .commit => false
  | .dict => false
  | .mop _ => false
  | .egress _ => false
  | _ => true

/-- What other units notice of a change: the levels that have notices, what an Ident says, and what the start, the pins, the CAN controller
and the CSR root wait for. -/
structure Seen where
  iwbs   : List (Nat × Nat)
  mshrs  : List (Nat × Nat)
  evbs   : List (Nat × Nat)
  pdq    : Nat
  own    : Nat
  ident  : Nat
  ups    : Nat
  words  : List Word
  out    : Bool
deriving DecidableEq, Repr

def seenRegs : List Nat :=
  [R.CLK_STAT, R.PMU_PD_STAT, R.CLK_EN_DEV_EFF, R.CST_STAT, R.PMU_MCU, R.FED_ARST] ++ (List.range 4).map R.MCH_STAT
def seenEffs : List Nat := (List.range 6).map R.APT_CTL ++ (List.range 4).map R.MCH_CTL ++ [R.CAN_CTL, R.PMP_DRN_CTL]

def seen (s : State) : Seen :=
  { iwbs := s.ports.map (fun e => (e.1, e.2.iwb.length)), mshrs := s.slices.map (fun e => (e.1, e.2.mshrs.length)),
    evbs := s.slices.map (fun e => (e.1, e.2.evb.length)), pdq := pdqLevel s, own := ownLevel s, ident := fedWord s, ups := fedUps s,
    words := seenRegs.map (raw s) ++ seenEffs.map (effWord s), out := s.start.released && !s.supply.inReset }

/-- A level of a family moved (R304). -/
def moveEach (f : Nat → Float) (old new : List (Nat × Nat)) (s : State) : State :=
  new.foldl (fun s e => let o := (nget old e.1).getD 0
                        if o = e.2 then s else floatMove s (f e.1) o e.2) s

/-- The units act on what changed (R190, R304, R369). -/
def react (s0 s : State) : State :=
  let a := seen s0
  let b := seen s
  if a = b then s
  else
    let s1 := moveEach floatIwb a.iwbs b.iwbs s
    let s2 := moveEach floatEvb a.evbs b.evbs (moveEach floatMshr a.mshrs b.mshrs s1)
    let s3 := if a.pdq = b.pdq then s2 else floatMove s2 floatPdq a.pdq b.pdq
    let s4 := if a.own = b.own then s3 else floatMove s3 floatOwn a.own b.own
    let s5 := if a.ident = b.ident ∧ a.ups = b.ups then s4 else push (identAll s4) .fed
    if a.words = b.words ∧ a.out = b.out then s5 else push s5 .start

/-- The slice whose H0 a unit of work waits at (R71, R72). -/
def Flow.atHome : Flow → Option Nat
  | .home n _ => some n
  | .reenter n _ => some n
  | .answer n _ => some n
  | .wbData n _ => some n
  | _ => none

/-- Whether a request is background work (R72, R159, R188, R211): priming fills, a checkpoint's walk, and a MOP command with PRIO = 0 that is no
ADDR command. -/
def background (s : State) (r : HReq) : Bool :=
  match r.who with
  | .prime => true
  | .pump => decide (r.op = .maint 0 ∨ r.op = .maint 3)
  | .mop k => let m := mopOf s k
              !m.prio && decide (m.scope ≠ 0)
  | _ => false

/-- Whether a request of a critical port names a line in a way of its fenced allotment (R72, R88, R91). -/
def critical (s : State) (n : Nat) (r : HReq) : Bool :=
  match r.link, r.who with
  | none, .agent a =>
    (getF s (F.SLC_CRIT_PORTS n)).testBit a.port && decide (r.op = .rdShared ∨ r.op = .rdOnce ∨ r.op = .rdOwn)
      && bit (allotWord s n r.epoch (R.SLC_AMASK n (allotOf s n r.epoch a.port))) 16
      && (match findWay (slice s n) r.line with
        | some k => inMask s n r (k % 16)
        | none => false)
  | _, _ => false

/-- The source of a request in the round robin of R72: AP0–AP5, VL0–VL2, the host with its DMA channels, the dictionary server, the MOP engine, and
the pump; 13 is the slice's own walks. -/
def rrSource (r : HReq) : Nat :=
  match r.link, r.who with
  | some l, _ => 6 + l
  | none, .agent a => a.port
  | none, .host => 9
  | none, .dma _ => 9
  | none, .dict => 10
  | none, .crypto => 10
  | none, .mop _ => 11
  | none, _ => match r.op with
    | .evacuate => 13
    | .leave _ => 13
    | _ => 12

/-- The step of R72 at which H0 grants a unit of work. -/
def grantStep (s : State) (n : Nat) (f : Flow) : Nat :=
  match f with
  | .wbData _ _ => 1
  | .answer _ a => if 0x30 ≤ a.opc then 1 else 2
  | .reenter _ _ => 3
  | .home _ r => if background s r then 6 else if critical s n r then 4 else 5
  | _ => 5

/-- Where a unit of work stands among those that are ready (R72): by its step, and at steps 4 and 5 by the distance of its source from the round-robin
pointer. -/
def grantKey (s : State) (n : Nat) (f : Flow) : Nat :=
  let k := grantStep s n f
  16 * k + (match f with
    | .home _ r => if k = 4 ∨ k = 5 then (rrSource r + 14 - (slice s n).source % 14) % 14 else 0
    | _ => 0)

/-- The first of a list with the least key. -/
def leastBy (key : Flow → Nat) : List Flow → Option Flow
  | [] => none
  | f :: r => match leastBy key r with
    | some g => some (if key g < key f then g else f)
    | none => some f

/-- What H0 of a slice grants next (R72): background work not at all inside a quiet window, but for a drain, or for priming while the agents are held
(R211). -/
def grantNext (s : State) (n : Nat) (l : List Flow) : Option Flow :=
  let idle := fun (f : Flow) => match f with
    | .home _ r => background s r && quiet s && !(gated s) && !(decide (r.who = .prime) && !s.start.released)
    | _ => false
  leastBy (grantKey s n) (l.filter (fun f => decide (f.atHome = some n) && !(idle f)))

/-- The pointer advances one place past the source it grants (R72). -/
def grantPast (s : State) (n : Nat) (f : Flow) : State :=
  match f with
  | .home _ r => if grantStep s n f = 4 ∨ grantStep s n f = 5 then setSlice s n { slice s n with source := (rrSource r + 1) % 14 } else s
  | _ => s

/-- The next unit of work that can be done, and what is in flight beside it: in order of arrival, but at a slice's H0 by R72. -/
def nextFlow (s : State) (hold : Bool) (before : List Flow) : List Flow → Option (State × Flow)
  | [] => none
  | f :: r =>
    if hold && f.switched then nextFlow s hold (before ++ [f]) r
    else match f.atHome with
    | none => some ({ s with fabric := before ++ r }, f)
    | some n => match grantNext s n (f :: r) with
      | some g => some ({ grantPast s n g with fabric := before ++ dropOne (fun h => decide (h = g)) (f :: r) }, g)
      | none => nextFlow s hold (before ++ [f]) r

/-- A drain under way looks again at what it waits for whenever another unit has worked (R200, R202). -/
def drainWake (s : State) : State :=
  if 1 ≤ s.drain.stage ∧ s.drain.stage ≤ 4 ∧ s.fabric.contains .drain = false then push s .drain else s

/-- What is in flight goes on until nothing is left that can (R14): at most `n` units of work. -/
def settle (s : State) : Nat → State
  | 0 => s
  | n + 1 =>
    match nextFlow s (holding s) [] s.fabric with
    | none => s
    | some (s1, f) =>
      let s2 := react s1 (flowStep s1 f)
      settle (if f = .drain then s2 else drainWake s2) n

/-- A command's effect, and what follows from it by itself; the commands that wait are not touched. -/
def after (s s1 : State) : Host.Outcome State Fault Refusal := .next { settle (drainWake (react s s1)) 1000000 with pending := s.pending }

/-- A tick of TBASE (R268): what time alone drives. -/
def tick (s : State) : State :=
  let s1 := { s with tb := s.tb + (if getF s F.CLK_STAT_TBSRC = 0 then 25 else 1) }
  tpdoDue (msrTick (phaseTick (accrue (takePhu s1))))

end Sys2Proof.Machine
end

