-- ==== Sys2Proof/WellFormed.lean ====
section
/-! DEFINITION. Which terms stand for something that can reach the block: a flit that carries what its row names, a register
offset, a read or write that a bus can carry. A row's flit with a bad check value is well formed: it is discarded (R49). -/

namespace Sys2Proof

/-- FTYPE of a flit (R45). -/
def Flit.ftype (f : Flit) : Nat := f.hdr.toNat % 4
/-- OPC of a flit (R45). -/
def Flit.opc (f : Flit) : Nat := f.hdr.toNat / 2 ^ 24 % 64
/-- ARG of a flit (R45). -/
def Flit.argNum (f : Flit) : Nat := f.hdr.toNat / 2 ^ 84 % 4096

/-- An MSG or MSGD flit. -/
def Flit.message (f : Flit) : Bool := decide (f.ftype = 1) || decide (f.ftype = 2)

/-- A flit on a side: at an agent port it has no route word (R45, R368). -/
def Flit.on (f : Flit) : Side → Bool
  | .ap _ => decide (f.route = 0)
  | .vl _ => true

/-- A flit that carries one of some messages. -/
def Flit.msg (f : Flit) (side : Side) (ops : List Nat) : Bool := f.on side && f.message && ops.contains f.opc

/-- A Maint of one operation (R57). -/
def Flit.maint (f : Flit) (side : Side) (mopc : Nat) : Bool := f.msg side [0x0F] && decide (f.argNum % 16 = mopc)

/-- A Fence of one kind (R57), at a port. -/
def Flit.fence (f : Flit) (p : Fin 6) (kind : Nat) : Bool := f.msg (.ap p) [0x0E] && decide (f.argNum % 4 = kind)

/-- A message that no row names on its side: a reserved opcode or a breach of direction, a Maint of a reserved operation, a Fence
without a kind (R56, R57, R64, R368). -/
def Flit.stray (f : Flit) (side : Side) : Bool :=
  let o := f.opc
  f.on side && f.message &&
    (decide (0x11 ≤ o ∧ o < 0x20) || decide (0x26 ≤ o ∧ o < 0x28) || decide (o = 0x2F) || decide (0x33 ≤ o)
      || (decide (o = 0x0F) && decide (6 < f.argNum % 16))
      || (match side with
          | .ap _ => decide (0x20 ≤ o ∧ o < 0x26) || decide (0x2C ≤ o ∧ o < 0x2F) || (decide (o = 0x0E) && decide (f.argNum % 4 = 0))
          | .vl _ => decide (o = 0x0E) || decide (o = 0x2E)))

/-- A link control flit of one subtype. -/
def Flit.control (f : Flit) (side : Side) (sub : Nat) : Bool := f.on side && decide (f.ftype = 3) && decide (f.opc = sub)

/-- A link control flit of a reserved subtype (R51, R369). -/
def Flit.reserved (f : Flit) (side : Side) : Bool :=
  f.on side && decide (f.ftype = 3) && (match side with
    | .ap _ => decide (f.opc = 0) || decide (3 < f.opc)
    | .vl _ => decide (f.opc = 0) || decide (f.opc = 2) || decide (f.opc = 3) || decide (9 < f.opc))

/-- A Notice of one kind (R371). -/
def Flit.notice (f : Flit) (l : Fin 3) (kind : Nat) : Bool := f.control (.vl l) 9 && decide (f.data.toNat % 256 = kind)

/-- An SDO request of one of some command specifiers, or of one that is not valid (R334). -/
def sdoIs (frame : BitVec 64) (own : List Nat) : Bool :=
  let c := frame.toNat / 32 % 8
  own.contains c || decide (5 ≤ c)

/-- A Wellhead frame of an OP, or of one that is not valid (R337). -/
def wellIs (frame : Line) (op : Nat) : Bool :=
  let o := frame.toNat % 256
  decide (o = op) || decide (o = 0) || decide (o = 2) || decide (o = 6) || decide (7 < o)

/-- A run of bytes of a TLP that lies within a window; only a read of BAR2 may be of no bytes (R315). -/
def tlp (off len size : Nat) : Bool := decide (0 < len) && decide (len ≤ 4096) && decide (off + len ≤ size)

/-- Whether a command can reach the block. -/
def Instr.wf : Instr → Bool
  | .rdShared side f _ => f.msg side [1]
  | .rdOwn side f => f.msg side [2]
  | .rdOnce side f => f.msg side [3]
  | .upgrade side f => f.msg side [4]
  | .itom side f => f.msg side [5]
  | .wrPtl side f => f.msg side [6]
  | .wrLine side f => f.msg side [7]
  | .stashWr side f => f.msg side [8]
  | .evict side f => f.msg side [9]
  | .atomHome side f => f.msg side [0x0A]
  | .atomMem side f => f.msg side [0x0B]
  | .rsvLd side f => f.msg side [0x0C]
  | .condSt side f => f.msg side [0x0D]
  | .fenceLb p f => f.fence p 1
  | .fenceSb p f => f.fence p 2
  | .fenceFb p f => f.fence p 3
  | .maintClean side f => f.maint side 0
  | .maintInvalidate side f => f.maint side 1
  | .maintCleanAndInvalidate side f => f.maint side 2
  | .maintPersist side f => f.maint side 3
  | .maintPreloadLock side f => f.maint side 4
  | .maintUnlock side f => f.maint side 5
  | .zeroLine side f => f.maint side 6
  | .linkKeep side f => f.msg side [0x10]
  | .null side f => f.msg side [0] || f.stray side
  | .rspI side f => f.msg side [0x28]
  | .rspS side f => f.msg side [0x29]
  | .rspF side f => f.msg side [0x2A]
  | .rspWbPending side f => f.msg side [0x2B]
  | .datClean side f => f.msg side [0x30]
  | .datDirty side f => f.msg side [0x31]
  | .wbData side f => f.msg side [0x32]
  | .nak side f => f.control side 1 || f.reserved side
  | .cap p f => f.control (.ap p) 2
  | .capAck p f => f.control (.ap p) 3
  | .badCheckValue _ => true
  | .ackDue _ => true
  | .replayTimeout _ => true
  | .blockLockLoss _ => true
  | .retrain _ _ => true
  | .recoveryTimeout _ => true
  | .ltssmAdvance _ _ _ => true
  | .trainingTimeout _ => true
  | .capResend _ => true
  | .linkkeepInterval _ => true
  | .heartbeatTimeout _ => true
  | .forwardTimeout _ _ => true
  | .portReset _ _ => true
  | .deadAgentScanDone _ _ _ => true
  | .reclamationDone _ => true
  | .fill _ _ _ => true
  | .repairAction _ => true
  | .conflictQueueLeave _ => true
  | .evictionIssue _ _ => true
  | .evictionConfirm _ _ => true
  | .atomMemCompletion _ _ _ => true
  | .iwbAgeExpiry _ _ => true
  | .iwbEntryTaken _ _ => true
  | .inboundPieceTaken => true
  | .sliceInitDone _ => true
  | .drainingWalkDone _ => true
  | .evacuationEmpty _ => true
  | .cleaningConfirm _ _ => true
  | .mopClean _ _ _ _ => true
  | .mopInvalidate _ _ _ _ => true
  | .mopCleanAndInvalidate _ _ _ _ => true
  | .mopPersist _ _ _ _ => true
  | .mopPreloadLock _ _ _ _ => true
  | .mopUnlock _ _ _ _ => true
  | .mopZeroLine _ _ _ _ => true
  | .mopSweep _ _ _ _ => true
  | .mopAbort _ _ => true
  | .mopRel _ _ => true
  | .mopLinePerformed _ => true
  | .sweepGapExpiry _ => true
  | .slcRmapWrite _ _ _ _ => true
  | .wayRemapDone _ _ => true
  | .cstRmdatWrite _ _ => true
  | .cisternRemapCopyDone _ _ => true
  | .cstRmidxWrite _ _ => true
  | .cstRidxWrite _ _ => true
  | .slcDbgIdxWrite _ _ _ => true
  | .gapMove _ => true
  | .wearCompare => true
  | .regionCopyDone _ => true
  | .regionMapConfirmed _ => true
  | .governorAdmit => true
  | .checkpointGo _ => true
  | .checkpointRel _ => true
  | .checkpointWritesConfirmed => true
  | .checkpointRecordConfirmed => true
  | .settingsRecordConfirmed => true
  | .warnTrip => true
  | .resetTrip => true
  | .sagComparatorClear _ => true
  | .railMonitorTrip _ => true
  | .railBelowMinimum _ => true
  | .channelShed _ => true
  | .peerReportWaitExpiry => true
  | .drainScanDone _ => true
  | .segmentConfirmed _ => true
  | .drainForwardTimeout _ _ => true
  | .drainPassDone => true
  | .sealConfirmed => true
  | .supplyRecovery => true
  | .warmReset _ _ => true
  | .warmResetEntryTimeout => true
  | .suspectAccept _ _ => true
  | .primingDone => true
  | .refresh _ => true
  | .caParityAlert _ _ _ _ => true
  | .channelTrainingDone _ _ => true
  | .markLeak _ => true
  | .mchMarkWrite _ _ _ _ => true
  | .mchCidxWrite _ _ _ => true
  | .phaseAEdge _ => true
  | .phaseZEdge _ => true
  | .quadCount _ => true
  | .coastedBoundary => true
  | .quadNoEdgeTimeout => true
  | .openQuietWindow _ => true
  | .closeQuietWindow _ => true
  | .quietWindowMax => true
  | .applyBoundary _ => true
  | .slotCheckpoint _ => true
  | .measurementSnapshot _ => true
  | .raiseEvent _ => true
  | .troReady => true
  | .xtalReady => true
  | .xtalTimeout => true
  | .rootLock => true
  | .spllLock => true
  | .referenceChange => true
  | .rampDwell => true
  | .xmonTrip => true
  | .tmonTrip => true
  | .rmonTrip => true
  | .troRestartTimeout => true
  | .holdEnd => true
  | .troFailedHoldEnd => true
  | .trimGo _ => true
  | .trimAutoInterval => true
  | .trimPassDone _ => true
  | .trimPassTimeout => true
  | .vcoreReached => true
  | .voltageTimeout => true
  | .dvfsMStep => true
  | .thermalStep => true
  | .sensorSample _ _ => true
  | .railSample _ _ => true
  | .commit _ _ => true
  | .modeChangeAck _ => true
  | .modeChangeTimeout => true
  | .domainOnDone _ => true
  | .domainOffDone _ => true
  | .mcuRestart _ => true
  | .chisoRun => true
  | .mcuFallback => true
  | .csrWrite _ off _ => decide (off.toNat % 4 = 0)
  | .csrTimeout => true
  | .indDataRead _ _ => true
  | .indDataWrite _ _ _ => true
  | .evqPop _ => true
  | .evqPopStall _ => true
  | .msixUnmask _ => true
  | .bar0Read off len _ => tlp off.toNat len 0x1000000
  | .bar0Write off bytes _ => tlp off.toNat bytes.length 0x1000000
  | .bar2Read off len _ => decide (len ≤ 4096) && decide (off.toNat + len ≤ 0x10000000)
  | .bar2Write off bytes _ _ _ => tlp off.toNat bytes.length 0x10000000
  | .bar4Write off _ => decide (off.toNat % 4 = 0)
  | .pcieCompletionTimeout _ => true
  | .functionLevelReset => true
  | .hotReset => true
  | .pciePerst => true
  | .dmaTailWrite _ _ _ => true
  | .dmaEnable _ _ => true
  | .dmaAbort _ _ => true
  | .dmaHostCompletion _ _ bytes _ _ => decide (bytes.length ≤ 4096)
  | .dmaDescriptorDone _ => true
  | .mbxStart _ _ _ => true
  | .mbxRel _ _ => true
  | .dictionaryRequestDone => true
  | .nmtOperational _ => true
  | .nmtStopped _ => true
  | .nmtPreOperational _ => true
  | .nmtResetNode _ => true
  | .nmtResetCommunication _ => true
  | .sdoDownload frame => sdoIs frame [1]
  | .sdoUpload frame => sdoIs frame [2]
  | .sdoSegment frame => sdoIs frame [0, 3]
  | .sdoAbort frame => decide (frame.toNat / 32 % 8 = 4)
  | .sdoTimeout => true
  | .wellheadOpen frame => wellIs frame 1
  | .wellheadData frame => wellIs frame 3
  | .wellheadAck frame => wellIs frame 4
  | .wellheadEnd frame => wellIs frame 5
  | .wellheadAbort frame => decide (frame.toNat % 256 = 7)
  | .wellheadTimeout => true
  | .heartbeatProducer => true
  | .tpdoEventTimer _ => true
  | .emcySend => true
  | .busOff => true
  | .canTrimRetry => true
  | .storeParameters _ _ => true
  | .restoreDefaultParameters _ _ => true
  | .bootSlotWrite _ _ _ => true
  | .bootSlotValidate _ => true
  | .bootActiveWrite _ => true
  | .firmwareImageWrite _ _ _ => true
  | .firmwareActivate _ => true
  | .rollbackCommit _ => true
  | .attestNonce _ => true
  | .attestReportRead => true
  | .bootRomVerifyDone => true
  | .secDigest _ => true
  | .secVerify _ => true
  | .secAttest _ => true
  | .secRel _ => true
  | .secOperationDone => true
  | .crcStart _ _ _ => true
  | .crcFeedD8 _ _ _ => true
  | .crcFeedD16 _ _ _ => true
  | .crcFeedD32 _ _ _ => true
  | .crcFin _ _ => true
  | .crcRel _ _ => true
  | .pwrgdIn _ => true
  | .settingsStoreReadDone => true
  | .agentRelease => true
  | .fedArstHoldWrite _ _ => true
  | .arstDriveDelay _ => true
  | .vrAlert => true
  | .ident l f => f.control (.vl l) 4
  | .identAck l f => f.control (.vl l) 5
  | .identResend _ => true
  | .epoch l f => f.control (.vl l) 6
  | .epochAck l f => f.control (.vl l) 7
  | .epochAckTimeout _ => true
  | .stand l f => f.control (.vl l) 8
  | .noticeSag l f => f.notice l 1
  | .noticeDeadAgent l f => f.notice l 2
  | .noticeLeaveRequest l f => f.notice l 3
  | .noticeLeaveDone l f => f.notice l 4
  | .noticeNoQueueEntries l f => f.notice l 5
  | .leaveWalkDone => true
  | .fedWaitExpiry => true
  | .readyTimeout _ => true
  | .fedRedo _ => true
  | .linkOutOfService _ => true
  | .msrSnap _ => true
  | .msrClr _ => true
  | .msrEvselWrite _ _ _ => true
  | .msrHcfgWrite _ _ => true
  | .msrCidxWrite _ _ => true
  | .msrHidxWrite _ _ => true
  | .idleFlit side f => f.on side && decide (f.ftype = 0)
  | .linkDeliveryFromPeerHome l f => f.msg (.vl l) [0x20, 0x21, 0x22, 0x23, 0x24, 0x25, 0x2C, 0x2D, 0x30, 0x31]
  | .peerScanComplete _ _ _ => true
  | .remoteListDelivery _ _ => true
  | .restartClassificationDone => true
  | .aonPowerOn => true
  | .pwrgdInDeassert => true
  | .pcieConfigWrite _ => true
  | .dmaCompletionTimeout _ => true
  | .busOffRecovery => true

end Sys2Proof
end

