-- ==== Sys2Proof/Machine/Rows.lean ====
section
/-! DEFINITION. What the rows of the table share: where work stands still, the words that rows write into a register, and the small
events of the links that have no other home (R48, R49, R51, R61, R84, R135, R194, R228, R266, R397). -/

namespace Sys2Proof.Machine

/-- Work of units that stand still in CLOCK-HOLD (R266): none then. -/
def running (s s1 : State) : State := if holding s then s else s1

/-- Work of a slice: none while it is off, without its clock, or in CLOCK-HOLD (R266, R271, R276). -/
def atSlice (s : State) (n : Nat) (s1 : State) : State := if holding s ∨ sliceUp s n = false then s else s1

/-- Work of a memory channel. -/
def atChannel (s : State) (c : Nat) (s1 : State) : State := if holding s ∨ chanUp s c = false then s else s1

/-- Work of the Cistern dies (R25). -/
def onDies (s s1 : State) : State := if holding s ∨ cisUp s = false then s else s1

/-- Bits of slice storage upset before a request of a line homed here reads them (R227, R228). -/
def upset (s : State) (l : LineAddr) (u : Option Flip) : State :=
  match u with
  | none => s
  | some u =>
    if homedHere s l ∧ sliceUp s (homeOf s l) then
      let n := homeOf s l
      setSlice s n { slice s n with upsets := (slice s n).upsets ++ [u] }
    else s

/-- A link control flit reaches a side (R51, R369): its subtype says what it is; a reserved one is not acted on (R64, R369). -/
def recvLctl (s : State) (side : Side) (f : Flit) : State :=
  match side with
  | .ap p =>
    if f.opc = 1 then recvNak s side f else if f.opc = 2 then recvCap s p f else if f.opc = 3 then recvCapAck s p f else reservedLctl s side f
  | .vl l =>
    match f.opc with
    | 1 => recvNak s side f
    | 4 => recvIdent s l f
    | 5 => recvIdentAck s l f
    | 6 => recvEpoch s l f
    | 7 => recvEpochAck s l f
    | 8 => recvStand s l f
    | 9 => match f.data.toNat % 256 with
      | 1 => recvSag s l f
      | 2 => recvDead s l f
      | 3 => recvLeave s l f
      | 4 => recvLeft s l f
      | 5 => recvNoQueue s l f
      | _ => lctlElse s l f
    | _ => reservedLctl s side f

/-- The flit as it is on a side: an agent port carries no route word (R45, R368). -/
def flitOn (f : Flit) (side : Side) : Flit :=
  match side with
  | .ap _ => { f with route := 0 }
  | .vl _ => f

/-- A flit reaches a side (R45): its FTYPE says what it carries. -/
def recvFlit (s : State) (side : Side) (f : Flit) : State :=
  let g := flitOn f side
  match g.ftype with
  | 0 => recvIdle s side g
  | 3 => recvLctl s side g
  | _ => recvMsg s side g

/-- The control register of a side (R67, R383). -/
def ctlOf : Side → Nat
  | .ap p => R.APT_CTL p
  | .vl l => R.FED_LCTL l

/-- The word that leaves some fields of a register as they are and writes one strobe. -/
def cmdBit (s : State) (off : Nat) (keep : Nat) (b : Nat) : Word := BitVec.ofNat 32 (Nat.land (raw s off).toNat keep + 2 ^ b)

/-- The word of MOP_Sk_CMD that starts an operation (R157). -/
def mopWord (op : Nat) (scope : BitVec 3) (prio : Bool) : Word := BitVec.ofNat 32 (op + 16 * scope.toNat + 128 * b2n prio + 256)

/-- MBX_CMD and MBX_CTL of a mailbox (R330). -/
def mbxCmdReg : Mbx → Nat
  | .pci => R.PCI_MBX_CMD
  | .csr => R.CAN_MBX_CMD
def mbxCtlReg : Mbx → Nat
  | .pci => R.PCI_MBX_CTL
  | .csr => R.CAN_MBX_CTL

/-- The ACK of a replay buffer that holds flits has not advanced for 1 µs (R49). -/
def replayAgain (s : State) (side : Side) : State := if ltssm s side = 6 then resendAll s side else s

/-- 1 µs passes in CAP without a CapAck (R51). -/
def capAgain (s : State) (p : Nat) : State := if ltssm s (apS p) = 5 ∧ (port s p).lnk.capAck = false then sendCap s p else s

/-- The port or the link sends LinkKeep (R61). -/
def keepAlive (s : State) (side : Side) : State := if ltssm s side = 6 then egress s side { opc := 0x10, cls := 4 } else s

/-- An ingress entry reaches its age (R84). -/
def entryAged (s : State) (p id : Nat) : State :=
  let x := port s p
  push (setPort s p { x with iwb := updOne (fun e => decide (e.id = id)) (fun e => { e with aged := true }) x.iwb }) (.port p)

/-- A peer's slices have ended their scans for an agent of this device (R135). -/
def peerScanned (s : State) (l d p : Nat) : State :=
  let x := port s p
  if d = self s ∧ isF s (F.FED_LSTAT_UP l) ∧ isF s (F.APT_STAT_RECLAIM p) ∧ x.peersDone.contains l = false then
    setPort s p { x with peersDone := x.peersDone ++ [l] }
  else s

/-- The domains a monitored rail feeds; 0 stands for AON, which never goes off (R11, R397). -/
def railDomains (k : Nat) : List Nat :=
  match k with
  | 3 => [23, 24, 25, 26]
  | 4 => [17, 18, 19, 20, 21, 22, 29, 30]
  | 5 => [17, 18, 19, 20, 21, 22, 29, 30]
  | 6 => [27, 28]
  | _ => [0]

/-- Whether a rail feeds a domain that is on (R397). -/
def railLive (s : State) (k : Nat) : Bool := (railDomains k).any (fun d => decide (d = 0) || pdOn s d)

/-- The rails that switched domains draw from: all but VAON and VIO18 (R11, R397). -/
def railSwitched (k : Nat) : Bool := decide (k ≠ 1 ∧ k ≠ 2)

/-- A monitor of a switched rail trips (R194, R397). -/
def railTrip (s : State) (k : Nat) : State := if railSwitched k && railLive s k then warn s 2 else s

/-- A rail falls below its absolute minimum (R194, R397). -/
def railOut (s : State) (k : Nat) : State := if railLive s k then resetNow s else s


end Sys2Proof.Machine
end

