-- ==== Sys2Proof/Machine/Boots.lean ====
section
/-! DEFINITION. The rows of the table: boot slots, firmware slots, attestation, the crypto engine and the CRC units (R341–R359). -/

namespace Sys2Proof.Machine

/-- BOOT_SLOT_WRITE (R348): A write to entry 0x2B60 writes a boot slot and clears its VALID. -/
def execBootSlotWrite (slot : Fin 2) (off : Nat) (bytes : List Byte) (s : State) : Host.Outcome State Fault Refusal :=
  after s (dictRow s 0x2B60 (slot.val + 1) true off bytes.length bytes)

/-- BOOT_SLOT_VALIDATE (R348): A write to 0x2B61 subindex 6 checks a slot's CRC and sets VALID on a match. -/
def execBootSlotValidate (v : Byte) (s : State) : Host.Outcome State Fault Refusal :=
  after s (dictRow s 0x2B61 6 true 0 1 [v])

/-- BOOT_ACTIVE_WRITE (R347): A write to 0x2B61 subindex 1 names the boot slot for the next start. -/
def execBootActiveWrite (v : Byte) (s : State) : Host.Outcome State Fault Refusal :=
  after s (dictRow s 0x2B61 1 true 0 1 [v])

/-- FIRMWARE_IMAGE_WRITE (R357): A write to entry 0x2B62 writes a firmware slot image. -/
def execFirmwareImageWrite (slot : Fin 2) (off : Nat) (bytes : List Byte) (s : State) : Host.Outcome State Fault Refusal :=
  after s (dictRow s 0x2B62 (slot.val + 1) true off bytes.length bytes)

/-- FIRMWARE_ACTIVATE (R357): A write to 0x2B63 subindex 1 activates a firmware slot and restarts the controller. -/
def execFirmwareActivate (v : Byte) (s : State) : Host.Outcome State Fault Refusal :=
  after s (dictRow s 0x2B63 1 true 0 1 [v])

/-- ROLLBACK_COMMIT (R346): A write to 0x2B63 subindex 2 blows rollback fuses up to the written count. -/
def execRollbackCommit (v : Byte) (s : State) : Host.Outcome State Fault Refusal :=
  after s (dictRow s 0x2B63 2 true 0 1 [v])

/-- ATTEST_NONCE (R357): A write of a nonce to 0x2B64 subindex 1 starts a dictionary attestation. -/
def execAttestNonce (nonce : BitVec 256) (s : State) : Host.Outcome State Fault Refusal :=
  after s (dictRow s 0x2B64 1 true 0 32 (leBytes 32 nonce.toNat))

/-- ATTEST_REPORT_READ (R357): an upload of 0x2B64 subindex 2 returns the latest report, after signing ends. -/
def execAttestReportRead (s : State) : Host.Outcome State Fault Refusal :=
  after s (dictRow s 0x2B64 2 false 0 0x1000 [])

/-- BOOT_ROM_VERIFY_DONE (R343): the boot ROM finishes checking a firmware slot and starts Chiso or moves to the next slot. -/
def execBootRomVerifyDone (s : State) : Host.Outcome State Fault Refusal :=
  after s (romVerified s)

/-- SEC_DIGEST (R354): A START with OP 1 hashes a memory range with SHA3-256. -/
def execSecDigest (m : Master) (s : State) : Host.Outcome State Fault Refusal :=
  after s (csrPut s m R.SEC_CMD 0x101)

/-- SEC_VERIFY (R354): A START with OP 2 verifies an ML-DSA-44 signature from SEC_BUF. -/
def execSecVerify (m : Master) (s : State) : Host.Outcome State Fault Refusal :=
  after s (csrPut s m R.SEC_CMD 0x102)

/-- SEC_ATTEST (R354): A START with OP 3 signs an attestation report with the identity key. -/
def execSecAttest (m : Master) (s : State) : Host.Outcome State Fault Refusal :=
  after s (csrPut s m R.SEC_CMD 0x103)

/-- SEC_REL (R303): A write of SEC_CMD.REL frees slot 0's result. -/
def execSecRel (m : Master) (s : State) : Host.Outcome State Fault Refusal :=
  after s (csrPut s m R.SEC_CMD (cmdBit s R.SEC_CMD 7 9))

/-- SEC_OPERATION_DONE (R354): A crypto operation ends, its result becomes VALID and source 5 is raised. -/
def execSecOperationDone (s : State) : Host.Outcome State Fault Refusal :=
  after s (running s (secDone s))

/-- CRC_START (R356): A write of CRC_Un_CTL.START loads the initial value and enters FEED. -/
def execCrcStart (m : Master) (u : Fin 4) (w : Word) (s : State) : Host.Outcome State Fault Refusal :=
  after s (csrPut s m (R.CRC_U_CTL u) (w ||| 0x100))

/-- CRC_FEED_D8 (R356): A write of CRC_Un_D8 feeds one byte. -/
def execCrcFeedD8 (m : Master) (u : Fin 4) (w : Word) (s : State) : Host.Outcome State Fault Refusal :=
  after s (csrPut s m (R.CRC_U_D8 u) w)

/-- CRC_FEED_D16 (R356): A write of CRC_Un_D16 feeds two bytes. -/
def execCrcFeedD16 (m : Master) (u : Fin 4) (w : Word) (s : State) : Host.Outcome State Fault Refusal :=
  after s (csrPut s m (R.CRC_U_D16 u) w)

/-- CRC_FEED_D32 (R356): A write of CRC_Un_D32 feeds four bytes. -/
def execCrcFeedD32 (m : Master) (u : Fin 4) (w : Word) (s : State) : Host.Outcome State Fault Refusal :=
  after s (csrPut s m (R.CRC_U_D32 u) w)

/-- CRC_FIN (R356): A write of FIN moves FEED to DONE with the final result. -/
def execCrcFin (m : Master) (u : Fin 4) (s : State) : Host.Outcome State Fault Refusal :=
  after s (csrPut s m (R.CRC_U_CTL u) (cmdBit s (R.CRC_U_CTL u) 7 9))

/-- CRC_REL (R356): A write of REL moves DONE to IDLE. -/
def execCrcRel (m : Master) (u : Fin 4) (s : State) : Host.Outcome State Fault Refusal :=
  after s (csrPut s m (R.CRC_U_CTL u) (cmdBit s (R.CRC_U_CTL u) 7 10))

end Sys2Proof.Machine
end

