-- ==== Sys2Proof/Machine/Channels.lean ====
section
/-! DEFINITION. The rows of the table: the memory channels (R217, R218, R224, R225, R238). -/

namespace Sys2Proof.Machine

/-- REFRESH (R217): the refresh interval passes and the controller issues REFsb. -/
def execRefresh (c : Fin 4) (s : State) : Host.Outcome State Fault Refusal :=
  after s (atChannel s c (refreshBank s c))

/-- CA_PARITY_ALERT (R217): ALERT_n for command/address parity makes the controller retry the sequence up to three times. -/
def execCaParityAlert (c : Fin 4) (sub : BitVec 1) (rank : BitVec 2) (retryOk : Bool) (s : State) : Host.Outcome State Fault Refusal :=
  after s (atChannel s c (caParity s c sub.toNat rank.toNat retryOk))

/-- CHANNEL_TRAINING_DONE (R218): A channel's training or restore ends and the channel reads READY or FAILED. -/
def execChannelTrainingDone (c : Fin 4) (ok : Bool) (s : State) : Host.Outcome State Fault Refusal :=
  after s (atChannel s c (channelTrained s c ok))

/-- MARK_LEAK (R224): LEAK seconds pass and each leaky counter loses one. -/
def execMarkLeak (c : Fin 4) (s : State) : Host.Outcome State Fault Refusal :=
  after s (atChannel s c (leak s c))

/-- MCH_MARK_WRITE (R225): A write of MCH_MARK sets or clears a device mark for later bursts. -/
def execMchMarkWrite (m : Master) (c : Fin 4) (k : Fin 8) (w : Word) (s : State) : Host.Outcome State Fault Refusal :=
  after s (csrPut s m (R.MCH_MARK c k) w)

/-- MCH_CIDX_WRITE (R238): A write of MCH_CIDX snapshots the selected device counters. -/
def execMchCidxWrite (m : Master) (c : Fin 4) (w : Word) (s : State) : Host.Outcome State Fault Refusal :=
  after s (csrPut s m (R.MCH_CIDX c) w)

end Sys2Proof.Machine
end

