-- ==== Sys2Proof/Machine/Clocks.lean ====
section
/-! DEFINITION. The rows of the table: the clock unit and its sequencers (R255–R275, R391). -/

namespace Sys2Proof.Machine

/-- TRO_READY (R255): two KEEP windows measure TRO in range, TRO_RDY sets and MCLK may move to TRO. -/
def execTroReady (s : State) : Host.Outcome State Fault Refusal :=
  after s (Sys2Proof.Machine.troReady s)

/-- XTAL_READY (R255): the amplitude detector and four windows find XTAL good and ROOT may start on it. -/
def execXtalReady (s : State) : Host.Outcome State Fault Refusal :=
  after s (Sys2Proof.Machine.xtalReady s)

/-- XTAL_TIMEOUT (R255): XTO passes without XTAL ready, XNS is set and ROOT uses TRO. -/
def execXtalTimeout (s : State) : Host.Outcome State Fault Refusal :=
  after s (Sys2Proof.Machine.xtalTimeout s)

/-- ROOT_LOCK (R256): ROOT locks and the dividers start together at ROOT/40. -/
def execRootLock (s : State) : Host.Outcome State Fault Refusal :=
  after s (Sys2Proof.Machine.rootLock s)

/-- SPLL_LOCK (R256): SPLL locks and SLCK may move to it in service mode. -/
def execSpllLock (s : State) : Host.Outcome State Fault Refusal :=
  after s (Sys2Proof.Machine.spllLock s)

/-- REFERENCE_CHANGE (R256): A pending ROOT reference change becomes allowed and is made without loss of lock. -/
def execReferenceChange (s : State) : Host.Outcome State Fault Refusal :=
  after s (Sys2Proof.Machine.referenceChange s)

/-- RAMP_DWELL (R259): DWELL passes and a ramping divider moves one entry along its list. -/
def execRampDwell (s : State) : Host.Outcome State Fault Refusal :=
  after s (Sys2Proof.Machine.rampDwell s)

/-- XMON_TRIP (R265): XMON trips and the device enters CLOCK-HOLD or marks XTAL not ready. -/
def execXmonTrip (s : State) : Host.Outcome State Fault Refusal :=
  after s (Sys2Proof.Machine.xmonTrip s)

/-- TMON_TRIP (R265): TMON trips, TRO_RDY and TRIMMED clear and TRO restarts. -/
def execTmonTrip (s : State) : Host.Outcome State Fault Refusal :=
  after s (Sys2Proof.Machine.tmonTrip s)

/-- RMON_TRIP (R265): RMON trips and every ROOT-derived clock stops, entering CLOCK-HOLD. -/
def execRmonTrip (s : State) : Host.Outcome State Fault Refusal :=
  after s (Sys2Proof.Machine.rmonTrip s)

/-- TRO_RESTART_TIMEOUT (R265): TRO is not ready 200 µs after a restart and is restarted once more. -/
def execTroRestartTimeout (s : State) : Host.Outcome State Fault Refusal :=
  after s (troRestart s)

/-- HOLD_END (R267): ROOT locks with TRO ready and CLOCK-HOLD ends with every clock ramping back. -/
def execHoldEnd (s : State) : Host.Outcome State Fault Refusal :=
  after s (Sys2Proof.Machine.holdEnd s)

/-- TRO_FAILED_HOLD_END (R267): 401 µs after the trip with TRO failed twice and XTAL good, HOLD ends on XTAL and a fatal record is
posted. -/
def execTroFailedHoldEnd (s : State) : Host.Outcome State Fault Refusal :=
  after s (Sys2Proof.Machine.troFailedHoldEnd s)

/-- TRIM_GO (R257): A write of CLK_TRIM.GO starts a trim against the reference SRC names. -/
def execTrimGo (m : Master) (s : State) : Host.Outcome State Fault Refusal :=
  after s (csrPut s m R.CLK_TRIM (raw s R.CLK_TRIM ||| 0x4000))

/-- TRIM_AUTO_INTERVAL (R257): CLK_TRIM.INT seconds pass with AUTO = 1 and a trim starts. -/
def execTrimAutoInterval (s : State) : Host.Outcome State Fault Refusal :=
  after s (trimAuto s)

/-- TRIM_PASS_DONE (R257): A trim pass ends, adjusting CODE, succeeding or failing. -/
def execTrimPassDone (p : TrimPass) (s : State) : Host.Outcome State Fault Refusal :=
  after s (push (trimPassEnd s p) .start)

/-- TRIM_PASS_TIMEOUT (R257): A trim pass finds no usable reference edge within 1 s and the trim fails. -/
def execTrimPassTimeout (s : State) : Host.Outcome State Fault Refusal :=
  after s (trimTimeout s)

/-- VCORE_REACHED (R269): the VCORE monitor reads the requested voltage and the move starts stepping M. -/
def execVcoreReached (s : State) : Host.Outcome State Fault Refusal :=
  after s (Sys2Proof.Machine.vcoreReached s)

/-- VOLTAGE_TIMEOUT (R269): VCORE is not reached within 200 µs, the move ends and VTO is set. -/
def execVoltageTimeout (s : State) : Host.Outcome State Fault Refusal :=
  after s (Sys2Proof.Machine.voltageTimeout s)

/-- DVFS_M_STEP (R269): DWELL passes and the sequencer sets SPLL to the next M of the move. -/
def execDvfsMStep (s : State) : Host.Outcome State Fault Refusal :=
  after s (Sys2Proof.Machine.dvfsMStep s)

/-- THERMAL_STEP (R270): 1 ms passes under or after the thermal limit and the sequencer steps one point. -/
def execThermalStep (s : State) : Host.Outcome State Fault Refusal :=
  after s (Sys2Proof.Machine.thermalStep s)

/-- SENSOR_SAMPLE (R391): A thermal sensor is sampled every 100 µs, updating THERM, TRIMMED and refresh halving. -/
def execSensorSample (which : Sensor) (temp : BitVec 12) (s : State) : Host.Outcome State Fault Refusal :=
  after s (Sys2Proof.Machine.sensorSample s which temp)

/-- RAIL_SAMPLE (R391): A rail monitor is sampled every 10 µs. -/
def execRailSample (k : Fin 8) (mv : BitVec 14) (s : State) : Host.Outcome State Fault Refusal :=
  after s (Sys2Proof.Machine.railSample s k mv)

end Sys2Proof.Machine
end

