-- ==== Sys2Proof/Machine/Coherent.lean ====
section
/-! DEFINITION. The rows of the table: the messages that reach an agent port or a Vrelcia link: requests, answers, writebacks and the
messages without a credit (R45–R64, R101–R113, R145, R154). -/

namespace Sys2Proof.Machine

/-- RD_SHARED (R101): an agent's or peer's RdShared reaches the device and is served by the line's home for a shared copy. -/
def execRdShared (side : Side) (f : Flit) (flip : Option Flip) (s : State) : Host.Outcome State Fault Refusal :=
  after s (recvFlit (upset s (fLine f) flip) side f)

/-- RD_OWN (R101): an agent's or peer's RdOwn is served by the home, granting E or M after any forwards and invalidations. -/
def execRdOwn (side : Side) (f : Flit) (s : State) : Host.Outcome State Fault Refusal :=
  after s (recvFlit s side f)

/-- RD_ONCE (R101): an uncached RdOnce is served by the home or by the CSR root for Device memory; the port overlays its own buffered
bytes. -/
def execRdOnce (side : Side) (f : Flit) (s : State) : Host.Outcome State Fault Refusal :=
  after s (recvFlit s side f)

/-- UPGRADE (R101): an Upgrade from S, F or O is served by the home, or as RdOwn when the requester is not recorded. -/
def execUpgrade (side : Side) (f : Flit) (s : State) : Host.Outcome State Fault Refusal :=
  after s (recvFlit s side f)

/-- ITOM (R101): an ItoM is served by the home, granting M without data. -/
def execItom (side : Side) (f : Flit) (s : State) : Host.Outcome State Fault Refusal :=
  after s (recvFlit s side f)

/-- WR_PTL (R82): A partial write is checked and placed in the ingress write buffer, or goes to the CSR root for Device memory, and
completes with Cmp. -/
def execWrPtl (side : Side) (f : Flit) (s : State) : Host.Outcome State Fault Refusal :=
  after s (recvFlit s side f)

/-- WR_LINE (R82): A whole-line write is checked, placed in the ingress write buffer, and completed with Cmp. -/
def execWrLine (side : Side) (f : Flit) (s : State) : Host.Outcome State Fault Refusal :=
  after s (recvFlit s side f)

/-- STASH_WR (R106): A StashWr is written at the home and may lead to a stash offer to its target port. -/
def execStashWr (side : Side) (f : Flit) (s : State) : Host.Outcome State Fault Refusal :=
  after s (recvFlit s side f)

/-- EVICT (R101): an Evict of a clean copy removes the agent from the directory entry, or is completed as stale. -/
def execEvict (side : Side) (f : Flit) (s : State) : Host.Outcome State Fault Refusal :=
  after s (recvFlit s side f)

/-- ATOM_HOME (R108): an atomic executes in the home's atomic unit after the write round and returns the old value. -/
def execAtomHome (side : Side) (f : Flit) (s : State) : Host.Outcome State Fault Refusal :=
  after s (recvFlit s side f)

/-- ATOM_MEM (R108): an atomic to Normal-DRAM is issued to the memory channel after the home cleans and invalidates its copy. -/
def execAtomMem (side : Side) (f : Flit) (s : State) : Host.Outcome State Fault Refusal :=
  after s (recvFlit s side f)

/-- RSV_LD (R111): A RsvLd is served as RdOnce and sets the requester's reservation entry and the port's record. -/
def execRsvLd (side : Side) (f : Flit) (s : State) : Host.Outcome State Fault Refusal :=
  after s (recvFlit s side f)

/-- COND_ST (R111): A CondSt is refused at the port or served at the home according to the reservation, and completes with SUCCESS. -/
def execCondSt (side : Side) (f : Flit) (s : State) : Host.Outcome State Fault Refusal :=
  after s (recvFlit s side f)

/-- FENCE_LB (R145): A Fence of kind LB holds later L-class requests until earlier L-class requests have completed. -/
def execFenceLb (p : Fin 6) (f : Flit) (s : State) : Host.Outcome State Fault Refusal :=
  after s (recvFlit s (.ap p) f)

/-- FENCE_SB (R145): A Fence of kind SB advances the group counter and holds later bypassing S-class requests until earlier writes are
performed. -/
def execFenceSb (p : Fin 6) (f : Flit) (s : State) : Host.Outcome State Fault Refusal :=
  after s (recvFlit s (.ap p) f)

/-- FENCE_FB (R145): A Fence of kind FB holds every later request until every earlier request has completed and the ingress buffer has
emptied of earlier entries. -/
def execFenceFb (p : Fin 6) (f : Flit) (s : State) : Host.Outcome State Fault Refusal :=
  after s (recvFlit s (.ap p) f)

/-- MAINT_CLEAN (R154): A Maint clean writes a dirty home copy to the backing store and leaves it resident and clean. -/
def execMaintClean (side : Side) (f : Flit) (s : State) : Host.Outcome State Fault Refusal :=
  after s (recvFlit s side f)

/-- MAINT_INVALIDATE (R154): A Maint invalidate discards copies of a Normal-DRAM line, or acts as clean and invalidate on Normal-PMEM.
-/
def execMaintInvalidate (side : Side) (f : Flit) (s : State) : Host.Outcome State Fault Refusal :=
  after s (recvFlit s side f)

/-- MAINT_CLEAN_AND_INVALIDATE (R154): A Maint clean and invalidate collects dirty data, writes it back and removes every copy. -/
def execMaintCleanAndInvalidate (side : Side) (f : Flit) (s : State) : Host.Outcome State Fault Refusal :=
  after s (recvFlit s side f)

/-- MAINT_PERSIST (R154): A Maint persist makes the latest value of a PMEM line reach the Cistern. -/
def execMaintPersist (side : Side) (f : Flit) (s : State) : Host.Outcome State Fault Refusal :=
  after s (recvFlit s side f)

/-- MAINT_PRELOAD_LOCK (R90): A Maint preload-lock reads the line into a lockable way and sets LOCK. -/
def execMaintPreloadLock (side : Side) (f : Flit) (s : State) : Host.Outcome State Fault Refusal :=
  after s (recvFlit s side f)

/-- MAINT_UNLOCK (R154): A Maint unlock clears LOCK of a resident locked line. -/
def execMaintUnlock (side : Side) (f : Flit) (s : State) : Host.Outcome State Fault Refusal :=
  after s (recvFlit s side f)

/-- ZERO_LINE (R93): A Maint ZeroLine invalidates other copies and writes zeros into a way without a fetch. -/
def execZeroLine (side : Side) (f : Flit) (s : State) : Host.Outcome State Fault Refusal :=
  after s (recvFlit s side f)

/-- LINK_KEEP (R61): an accepted LinkKeep restarts the port's heartbeat timer. -/
def execLinkKeep (side : Side) (f : Flit) (s : State) : Host.Outcome State Fault Refusal :=
  after s (recvFlit s side f)

/-- NULL (R53): A Null message carries only acknowledgement and credit returns. -/
def execNull (side : Side) (f : Flit) (s : State) : Host.Outcome State Fault Refusal :=
  after s (recvFlit s side f)

/-- RSP_I (R122): an RspI answer reaches the home and is counted in the round, resolved under R121, or resolves a stash offer by its
PULL bit. -/
def execRspI (side : Side) (f : Flit) (s : State) : Host.Outcome State Fault Refusal :=
  after s (recvFlit s side f)

/-- RSP_S (R105): an RspS answer to RecallDirty keeps the holder as a sharer. -/
def execRspS (side : Side) (f : Flit) (s : State) : Host.Outcome State Fault Refusal :=
  after s (recvFlit s side f)

/-- RSP_F (R105): an RspF answer to RecallDirty keeps the holder as designee. -/
def execRspF (side : Side) (f : Flit) (s : State) : Host.Outcome State Fault Refusal :=
  after s (recvFlit s side f)

/-- RSP_WB_PENDING (R121): an RspWbPending makes the home wait for, or take at once, the holder's crossing writeback. -/
def execRspWbPending (side : Side) (f : Flit) (s : State) : Host.Outcome State Fault Refusal :=
  after s (recvFlit s side f)

/-- DAT_CLEAN (R102): A DatClean answer from a holder is resolved at the home against the waiting request. -/
def execDatClean (side : Side) (f : Flit) (s : State) : Host.Outcome State Fault Refusal :=
  after s (recvFlit s side f)

/-- DAT_DIRTY (R102): A DatDirty answer from a holder is resolved at the home, writing the data or passing it on. -/
def execDatDirty (side : Side) (f : Flit) (s : State) : Host.Outcome State Fault Refusal :=
  after s (recvFlit s side f)

/-- WB_DATA (R120): A WbData reaches the home as a voluntary writeback or an answer, is written into the surface or the writeback slot,
and completes. -/
def execWbData (side : Side) (f : Flit) (s : State) : Host.Outcome State Fault Refusal :=
  after s (recvFlit s side f)

/-- LINK_DELIVERY_FROM_PEER_HOME (R113): A forward, offer or completion from a peer's home arrives over a Vrelcia link and is delivered
to a local port, or fanned out to local ports under R115. -/
def execLinkDeliveryFromPeerHome (l : Fin 3) (f : Flit) (s : State) : Host.Outcome State Fault Refusal :=
  after s (recvFlit s (.vl l) f)

end Sys2Proof.Machine
end

