-- ==== Sys2Proof/Machine/Configs.lean ====
section
/-! DEFINITION. The rows of the table: commits and mode changes, the domains, the management controller, register access and the event
queue (R278–R312). -/

namespace Sys2Proof.Machine

/-- COMMIT (R298): A write of CFG_COMMIT runs on-sequences, clock enables, class S applies and off-sequences for its block mask. -/
def execCommit (m : Master) (mask : Word) (s : State) : Host.Outcome State Fault Refusal :=
  after s (csrPut s m R.CFG_COMMIT mask)

/-- MODE_CHANGE_ACK (R301): A participant's acknowledgement arrives, aborting on a negative one or applying when all are positive. -/
def execModeChangeAck (who : Participant) (s : State) : Host.Outcome State Fault Refusal :=
  after s (modeAck s who)

/-- MODE_CHANGE_TIMEOUT (R301): 50 µs pass without every positive acknowledgement and the change aborts. -/
def execModeChangeTimeout (s : State) : Host.Outcome State Fault Refusal :=
  after s (abortMode s 1)

/-- DOMAIN_ON_DONE (R278): A domain's rail monitor reads good with clocks running and its reset and isolation are released. -/
def execDomainOnDone (d : Fin 30) (s : State) : Host.Outcome State Fault Refusal :=
  after s (onDone s (d.val + 1))

/-- DOMAIN_OFF_DONE (R278): A domain's off-sequence ends with its rail switches open. -/
def execDomainOffDone (d : Fin 30) (s : State) : Host.Outcome State Fault Refusal :=
  after s (offDone s (d.val + 1))

/-- MCU_RESTART (R287): A write of PMU_MCU.RST restarts the management controller on the new image. -/
def execMcuRestart (m : Master) (s : State) : Host.Outcome State Fault Refusal :=
  after s (csrPut s m R.PMU_MCU 1)

/-- CHISO_RUN (R343): chiso reaches RUN, sets GOOD for a new slot and sends the CAN boot-up frame. -/
def execChisoRun (s : State) : Host.Outcome State Fault Refusal :=
  after s (Sys2Proof.Machine.chisoRun s)

/-- MCU_FALLBACK (R288): chiso has not reached RUN within 1 s of a restart and the controller restarts on the previous image. -/
def execMcuFallback (s : State) : Host.Outcome State Fault Refusal :=
  after s (Sys2Proof.Machine.mcuFallback s)

/-- CSR_WRITE (R293): A write to a register with no row of its own crosses to its block and sets its fields. -/
def execCsrWrite (m : Master) (off : BitVec 24) (w : Word) (s : State) : Host.Outcome State Fault Refusal :=
  after s (csrPut s m off.toNat w)

/-- CSR_TIMEOUT (R293): A crossed CSR access gets no answer within 4 µs and ends in error. -/
def execCsrTimeout (s : State) : Host.Outcome State Fault Refusal :=
  after s (csrTimedOut s)

/-- IND_DATA_READ (R295): A read of CFG_IND_k_DATA reads the register IADDR names, locally or over a link. -/
def execIndDataRead (m : Master) (k : Fin 4) (s : State) : Host.Outcome State Fault Refusal :=
  after s (csrGet s m (R.CFG_IND_DATA k))

/-- IND_DATA_WRITE (R295): A write of CFG_IND_k_DATA writes the register IADDR names and may advance OFF. -/
def execIndDataWrite (m : Master) (k : Fin 4) (w : Word) (s : State) : Host.Outcome State Fault Refusal :=
  after s (csrPut s m (R.CFG_IND_DATA k) w)

/-- EVQ_POP (R308): A read of EVQ_POP removes the oldest record into the master's latch, or waits on an empty queue. -/
def execEvqPop (m : Master) (s : State) : Host.Outcome State Fault Refusal :=
  after s (csrGet s m R.EVQ_POP)

/-- EVQ_POP_STALL (R308): STALL passes with the queue still empty and the waiting pop returns the empty token. -/
def execEvqPopStall (m : Master) (s : State) : Host.Outcome State Fault Refusal :=
  after s (popStall s m)

end Sys2Proof.Machine
end

