-- ==== Sys2Proof/Machine/Feds.lean ====
section
/-! DEFINITION. The rows of the table: start-up and the federation (R360–R384, R405). -/

namespace Sys2Proof.Machine

/-- PWRGD_IN (R363): PWRGD_IN is asserted with HOLD_SENSE above WARN + 20 mV and a start begins. -/
def execPwrgdIn (devid : BitVec 2) (s : State) : Host.Outcome State Fault Refusal :=
  after s (pwrgdOn s devid.toNat)

/-- SETTINGS_STORE_READ_DONE (R363): chiso finishes reading and repairing the settings journal and computes the settings digest. -/
def execSettingsStoreReadDone (s : State) : Host.Outcome State Fault Refusal :=
  after s (settingsRead s)

/-- AGENT_RELEASE (R364): every release condition holds and AGENT_RST_N pins are driven high in port order. -/
def execAgentRelease (s : State) : Host.Outcome State Fault Refusal :=
  after s (Sys2Proof.Machine.agentRelease s)

/-- FED_ARST_HOLD_WRITE (R366): A write of FED_ARST.HOLD stops or requests driving of agent reset pins. -/
def execFedArstHoldWrite (m : Master) (w : Word) (s : State) : Host.Outcome State Fault Refusal :=
  after s (csrPut s m R.FED_ARST w)

/-- ARST_DRIVE_DELAY (R366): 10 µs pass since a pin was undriven and it is driven high again. -/
def execArstDriveDelay (p : Fin 6) (s : State) : Host.Outcome State Fault Refusal :=
  after s (pinCooled s p)

/-- VR_ALERT (R405): VR_ALERT_N is asserted and record 0x0808 is posted. -/
def execVrAlert (s : State) : Host.Outcome State Fault Refusal :=
  after s (post s 0x0808 0x42 [])

/-- IDENT (R370): A received Ident identifies the peer, is answered with IdentAck and may flag a wiring fault. -/
def execIdent (l : Fin 3) (f : Flit) (s : State) : Host.Outcome State Fault Refusal :=
  after s (recvFlit s (.vl l) f)

/-- IDENT_ACK (R369): A received IdentAck stops the Ident resends and brings the link up. -/
def execIdentAck (l : Fin 3) (f : Flit) (s : State) : Host.Outcome State Fault Refusal :=
  after s (recvFlit s (.vl l) f)

/-- IDENT_RESEND (R369): 1 µs passes in CAP without an IdentAck and Ident is sent again. -/
def execIdentResend (l : Fin 3) (s : State) : Host.Outcome State Fault Refusal :=
  after s (Sys2Proof.Machine.identResend s l)

/-- EPOCH (R375): A received Epoch sets DIR_PRESENT and the federation epoch and is answered with EpochAck. -/
def execEpoch (l : Fin 3) (f : Flit) (s : State) : Host.Outcome State Fault Refusal :=
  after s (recvFlit s (.vl l) f)

/-- EPOCH_ACK (R375): an EpochAck reaches the coordinator, which sends Stand when all have arrived. -/
def execEpochAck (l : Fin 3) (f : Flit) (s : State) : Host.Outcome State Fault Refusal :=
  after s (recvFlit s (.vl l) f)

/-- EPOCH_ACK_TIMEOUT (R375): A member sends no EpochAck within 1 ms and is recorded absent. -/
def execEpochAckTimeout (dev : Fin 4) (s : State) : Host.Outcome State Fault Refusal :=
  after s (Sys2Proof.Machine.epochAckTimeout s dev)

/-- STAND (R375): A received Stand puts the member in STANDING so it may release its agents. -/
def execStand (l : Fin 3) (f : Flit) (s : State) : Host.Outcome State Fault Refusal :=
  after s (recvFlit s (.vl l) f)

/-- NOTICE_SAG (R23): A received sag notice starts this device's drain with reason 3. -/
def execNoticeSag (l : Fin 3) (f : Flit) (s : State) : Host.Outcome State Fault Refusal :=
  after s (recvFlit s (.vl l) f)

/-- NOTICE_DEAD_AGENT (R130): A received dead-agent notice sets the agent in each slice's dead mask and starts their scans. -/
def execNoticeDeadAgent (l : Fin 3) (f : Flit) (s : State) : Host.Outcome State Fault Refusal :=
  after s (recvFlit s (.vl l) f)

/-- NOTICE_LEAVE_REQUEST (R379): A received leave request starts this peer's walk and drain for the leaving device. -/
def execNoticeLeaveRequest (l : Fin 3) (f : Flit) (s : State) : Host.Outcome State Fault Refusal :=
  after s (recvFlit s (.vl l) f)

/-- NOTICE_LEAVE_DONE (R379): A received leave-done notice counts toward the leaving device's drain. -/
def execNoticeLeaveDone (l : Fin 3) (f : Flit) (s : State) : Host.Outcome State Fault Refusal :=
  after s (recvFlit s (.vl l) f)

/-- NOTICE_NO_QUEUE_ENTRIES (R200): A peer reports it holds no queue entries for this device's homes. -/
def execNoticeNoQueueEntries (l : Fin 3) (f : Flit) (s : State) : Host.Outcome State Fault Refusal :=
  after s (recvFlit s (.vl l) f)

/-- LEAVE_WALK_DONE (R379): A device's directory walk for a leave ends. -/
def execLeaveWalkDone (s : State) : Host.Outcome State Fault Refusal :=
  after s (running s (Sys2Proof.Machine.leaveWalkDone s))

/-- FED_WAIT_EXPIRY (R374): FED_WAIT passes and unidentified expected devices are recorded absent. -/
def execFedWaitExpiry (s : State) : Host.Outcome State Fault Refusal :=
  after s (Sys2Proof.Machine.fedWaitExpiry s)

/-- READY_TIMEOUT (R374): an identified device is still not READY after RDY_TO and is recorded absent. -/
def execReadyTimeout (dev : Fin 4) (s : State) : Host.Outcome State Fault Refusal :=
  after s (Sys2Proof.Machine.readyTimeout s dev)

/-- FED_REDO (R372): A write of FED_GCTL.REDO recomputes the digest and sends new Idents. -/
def execFedRedo (m : Master) (s : State) : Host.Outcome State Fault Refusal :=
  after s (csrPut s m R.FED_GCTL 1)

/-- LINK_OUT_OF_SERVICE (R380): A Vrelcia link leaves service and its peer's agents become dead to this device's homes. -/
def execLinkOutOfService (l : Fin 3) (s : State) : Host.Outcome State Fault Refusal :=
  after s (linkLost s l)

end Sys2Proof.Machine
end

