-- ==== Sys2Proof/Machine/Homes.lean ====
section
/-! DEFINITION. The rows of the table: what the homes, the backing stores and the buffers in front of them bring about (R71, R80, R84,
R85, R94, R108, R128, R154, R163, R175, R284, R315). -/

namespace Sys2Proof.Machine

/-- FILL (R71): data returns from the backing store, is decoded, written into the reserved way and passed to the requester. -/
def execFill (slice : Fin 32) (line : LineAddr) (err : BitVec 640) (s : State) : Host.Outcome State Fault Refusal :=
  after s (atSlice s slice (fillReturn s slice line err))

/-- CONFLICT_QUEUE_LEAVE (R128): A queued request whose conditions now hold leaves the conflict queue and re-enters H0. -/
def execConflictQueueLeave (slice : Fin 32) (s : State) : Host.Outcome State Fault Refusal :=
  after s (atSlice s slice (leaveQueue s slice))

/-- EVICTION_ISSUE (R80): an eviction-buffer entry leaves WAIT when its backing store or the wear governor takes the write. -/
def execEvictionIssue (slice : Fin 32) (line : LineAddr) (s : State) : Host.Outcome State Fault Refusal :=
  after s (atSlice s slice (evbIssue s slice line))

/-- EVICTION_CONFIRM (R80): the backing store confirms an eviction-buffer write and the entry is freed. -/
def execEvictionConfirm (slice : Fin 32) (line : LineAddr) (s : State) : Host.Outcome State Fault Refusal :=
  after s (atSlice s slice (evbConfirm s slice line))

/-- ATOM_MEM_COMPLETION (R108): the memory channel completes an AtomMem and the old value goes to the requester. -/
def execAtomMemCompletion (slice : Fin 32) (line : LineAddr) (err : BitVec 640) (s : State) : Host.Outcome State Fault Refusal :=
  after s (atSlice s slice (atomReturn s slice line err))

/-- IWB_AGE_EXPIRY (R84): an ingress entry reaches 32 ns of age and is sent if eligible. -/
def execIwbAgeExpiry (p : Fin 6) (entry : Nat) (s : State) : Host.Outcome State Fault Refusal :=
  after s (running s (entryAged s p entry))

/-- IWB_ENTRY_TAKEN (R85): the home writes an ingress entry's bytes and the entry leaves the buffer, freeing room and informing Fence
logic. -/
def execIwbEntryTaken (p : Fin 6) (entry : Nat) (s : State) : Host.Outcome State Fault Refusal :=
  after s (running s (entryAtHome s p entry))

/-- INBOUND_PIECE_TAKEN (R315): the home takes a PCIe inbound PMEM queue piece and the queue sends the next. -/
def execInboundPieceTaken (s : State) : Host.Outcome State Fault Refusal :=
  after s (running s (pieceTaken s))

/-- SLICE_INIT_DONE (R94): A slice finishes clearing its tags and age matrices and enters DISABLED or ENABLED. -/
def execSliceInitDone (slice : Fin 32) (s : State) : Host.Outcome State Fault Refusal :=
  after s (running s (initDone s slice))

/-- DRAINING_WALK_DONE (R163): the DRAINING walk has ended and the eviction buffer is empty, so the slice leaves DRAINING. -/
def execDrainingWalkDone (slice : Fin 32) (s : State) : Host.Outcome State Fault Refusal :=
  after s (atSlice s slice (drainingDone s slice))

/-- EVACUATION_EMPTY (R284): the evacuation walks end with nothing left of marked buckets and EMPTY reads 1. -/
def execEvacuationEmpty (slice : Fin 32) (s : State) : Host.Outcome State Fault Refusal :=
  after s (atSlice s slice (evacEmpty s slice))

/-- CLEANING_CONFIRM (R175): the Cistern confirms a cleaning write and the way becomes clean unless written meanwhile. -/
def execCleaningConfirm (slice : Fin 32) (line : LineAddr) (s : State) : Host.Outcome State Fault Refusal :=
  after s (atSlice s slice (cleanConfirm s slice line))

end Sys2Proof.Machine
end

