-- ==== Sys2Proof/Machine/Hosts.lean ====
section
/-! DEFINITION. The rows of the table: the PCI Express function and its DMA channels (R310–R323, R339). -/

namespace Sys2Proof.Machine

/-- MSIX_UNMASK (R310): the host unmasks an MSI-X vector and a pending message is sent. -/
def execMsixUnmask (v : Fin 64) (s : State) : Host.Outcome State Fault Refusal :=
  after s (Sys2Proof.Machine.msixUnmask s v)

/-- BAR0_READ (R315): A host read TLP to BAR0 is served by the CSR root. -/
def execBar0Read (off : BitVec 24) (len : Nat) (tag : Nat) (s : State) : Host.Outcome State Fault Refusal :=
  after s (Sys2Proof.Machine.bar0Read s off.toNat len tag)

/-- BAR0_WRITE (R315): A host write TLP to BAR0 is served by the CSR root. -/
def execBar0Write (off : BitVec 24) (bytes : List Byte) (ep : Bool) (s : State) : Host.Outcome State Fault Refusal :=
  after s (Sys2Proof.Machine.bar0Write s off.toNat bytes ep)

/-- BAR2_READ (R315): A host read TLP to BAR2 is split into RdOnce lines after earlier posted writes leave the queue. -/
def execBar2Read (off : BitVec 28) (len : Nat) (tag : Nat) (s : State) : Host.Outcome State Fault Refusal :=
  after s (Sys2Proof.Machine.bar2Read s off.toNat len tag)

/-- BAR2_WRITE (R315): A host posted write to BAR2 is split into pieces and placed in the inbound PMEM queue. -/
def execBar2Write (off : BitVec 28) (bytes : List (Option Byte)) (ep : Bool) (th : Bool) (st : BitVec 8)
    (s : State) : Host.Outcome State Fault Refusal :=
  after s (Sys2Proof.Machine.bar2Write s off.toNat bytes ep th st)

/-- BAR4_WRITE (R314): A host write to BAR4 updates the MSI-X table. -/
def execBar4Write (off : BitVec 14) (w : Word) (s : State) : Host.Outcome State Fault Refusal :=
  after s (Sys2Proof.Machine.bar4Write s off.toNat w)

/-- PCIE_COMPLETION_TIMEOUT (R318): A non-posted request is not complete within CTO and ends in completer abort. -/
def execPcieCompletionTimeout (tag : Nat) (s : State) : Host.Outcome State Fault Refusal :=
  after s (completionTimeout s tag)

/-- FUNCTION_LEVEL_RESET (R319): A Function Level Reset aborts DMA and resets the PCIe-side state. -/
def execFunctionLevelReset (s : State) : Host.Outcome State Fault Refusal :=
  after s (functionReset s true)

/-- HOT_RESET (R319): A hot reset aborts DMA and resets the PCIe-side state. -/
def execHotReset (s : State) : Host.Outcome State Fault Refusal :=
  after s (functionReset s false)

/-- PCIE_PERST (R319): an assertion of PCIE_PERST_N aborts DMA and resets the PCIe-side state. -/
def execPciePerst (s : State) : Host.Outcome State Fault Refusal :=
  after s (functionReset s false)

/-- DMA_TAIL_WRITE (R321): A write of PCI_DMAc_TAIL gives the channel new descriptors to run. -/
def execDmaTailWrite (m : Master) (c : Fin 2) (w : Word) (s : State) : Host.Outcome State Fault Refusal :=
  after s (csrPut s m (R.PCI_DMA_TAIL c) w)

/-- DMA_ENABLE (R323): A write of EN = 1 runs the channel or resumes it from HALT. -/
def execDmaEnable (m : Master) (c : Fin 2) (s : State) : Host.Outcome State Fault Refusal :=
  after s (csrPut s m (R.PCI_DMA_CTL c) 1)

/-- DMA_ABORT (R323): A write of ABORT ends the channel's descriptor with STATUS 4. -/
def execDmaAbort (m : Master) (c : Fin 2) (s : State) : Host.Outcome State Fault Refusal :=
  after s (csrPut s m (R.PCI_DMA_CTL c) (cmdBit s (R.PCI_DMA_CTL c) 1 1))

/-- DMA_HOST_COMPLETION (R322): A host read completion arrives and its data is written into device lines. -/
def execDmaHostCompletion (c : Fin 2) (off : Nat) (bytes : List Byte) (ep : Bool) (ok : Bool)
    (s : State) : Host.Outcome State Fault Refusal :=
  after s (hostCompletion s c off bytes ep ok)

/-- DMA_DESCRIPTOR_DONE (R322): every line of a descriptor is performed, RES is written, HEAD advances and the vector may be sent. -/
def execDmaDescriptorDone (c : Fin 2) (s : State) : Host.Outcome State Fault Refusal :=
  after s (running s (descriptorDone s c))

/-- PCIE_CONFIG_WRITE (R313): A host configuration write sets the function's power state, Bus Master Enable, MSI-X and AER controls. -/
def execPcieConfigWrite (c : CfgWrite) (s : State) : Host.Outcome State Fault Refusal :=
  after s (configWrite s c)

/-- DMA_COMPLETION_TIMEOUT (R323): A DMA channel's read of host memory gets no completion in time and the descriptor ends with STATUS
2. -/
def execDmaCompletionTimeout (c : Fin 2) (s : State) : Host.Outcome State Fault Refusal :=
  after s (hostTimeout s c)

end Sys2Proof.Machine
end

