-- ==== Sys2Proof/Machine/Links.lean ====
section
/-! DEFINITION. The rows of the table: link control, training and supervision of the ports and the Vrelcia links, dead agents and port
reset (R41–R51, R61–R66, R130–R135). -/

namespace Sys2Proof.Machine

/-- NAK (R49): A received LCTL Nak makes the sender resend every flit after the Nak's ACK. -/
def execNak (side : Side) (f : Flit) (s : State) : Host.Outcome State Fault Refusal :=
  after s (recvFlit s side f)

/-- CAP (R51): A received Cap is recorded and answered with CapAck, or takes the port to FAILED when bad. -/
def execCap (p : Fin 6) (f : Flit) (s : State) : Host.Outcome State Fault Refusal :=
  after s (recvFlit s (.ap p) f)

/-- CAP_ACK (R51): A received CapAck ends the capability exchange and brings the port to ACTIVE with UP set. -/
def execCapAck (p : Fin 6) (f : Flit) (s : State) : Host.Outcome State Fault Refusal :=
  after s (recvFlit s (.ap p) f)

/-- BAD_CHECK_VALUE (R49): A flit with a bad check value is discarded and one Nak is sent. -/
def execBadCheckValue (side : Side) (s : State) : Host.Outcome State Fault Refusal :=
  after s (if ltssm s side = 5 ∨ ltssm s side = 6 then badCheck s side else s)

/-- ACK_DUE (R48): the 64-flit-time bound for acknowledging an accepted flit expires and an acknowledgement is sent. -/
def execAckDue (side : Side) (s : State) : Host.Outcome State Fault Refusal :=
  after s (ackNow s side)

/-- REPLAY_TIMEOUT (R49): the replay buffer's ACK has not advanced for 1 µs and the unacknowledged flits are resent. -/
def execReplayTimeout (side : Side) (s : State) : Host.Outcome State Fault Refusal :=
  after s (replayAgain s side)

/-- BLOCK_LOCK_LOSS (R50): A lane loses block lock and the link enters RECOVERY. -/
def execBlockLockLoss (side : Side) (s : State) : Host.Outcome State Fault Refusal :=
  after s (recover s side false)

/-- RETRAIN (R50): A write of APT_CTL.RETRAIN takes the port into RECOVERY. -/
def execRetrain (m : Master) (side : Side) (s : State) : Host.Outcome State Fault Refusal :=
  after s (csrPut s m (ctlOf side) (cmdBit s (ctlOf side) 7 5))

/-- RECOVERY_TIMEOUT (R50): RECOVERY has not returned to ACTIVE within 6 µs, the link is down and RECOV_FAIL is set. -/
def execRecoveryTimeout (side : Side) (s : State) : Host.Outcome State Fault Refusal :=
  after s (recoverFail s side)

/-- LTSSM_ADVANCE (R42): A training state of the port completes and the port moves to the next training state, choosing the width in
CONFIG. -/
def execLtssmAdvance (side : Side) (lanes : BitVec 16) (reversed : Bool) (s : State) : Host.Outcome State Fault Refusal :=
  after s (ltssmStep s side lanes reversed)

/-- TRAINING_TIMEOUT (R42): the port has not reached ACTIVE within 1 ms of training start and goes to FAILED. -/
def execTrainingTimeout (side : Side) (s : State) : Host.Outcome State Fault Refusal :=
  after s (trainTimeout s side)

/-- CAP_RESEND (R51): the 1 µs Cap interval passes without a CapAck and the port sends Cap again. -/
def execCapResend (p : Fin 6) (s : State) : Host.Outcome State Fault Refusal :=
  after s (capAgain s p)

/-- LINKKEEP_INTERVAL (R61): APT_TMR.TX_INT passes and the port sends LinkKeep. -/
def execLinkkeepInterval (side : Side) (s : State) : Host.Outcome State Fault Refusal :=
  after s (keepAlive s side)

/-- HEARTBEAT_TIMEOUT (R61): no LinkKeep is accepted within KEEP_TO and the port declares its agent dead. -/
def execHeartbeatTimeout (side : Side) (s : State) : Host.Outcome State Fault Refusal :=
  after s (heartbeatMissed s side)

/-- FORWARD_TIMEOUT (R62): A forward stays unanswered for FWD_TO and the port declares its agent dead. -/
def execForwardTimeout (p : Fin 6) (txid : BitVec 10) (s : State) : Host.Outcome State Fault Refusal :=
  after s (running s (fwdTimeout s p txid.toNat))

/-- PORT_RESET (R66): A write of APT_CTL.RST declares the agent dead, discards queued requests and leads the port through reclamation
to retraining. -/
def execPortReset (m : Master) (p : Fin 6) (s : State) : Host.Outcome State Fault Refusal :=
  after s (csrPut s m (R.APT_CTL p) (cmdBit s (R.APT_CTL p) 7 4))

/-- DEAD_AGENT_SCAN_DONE (R133): A slice completes its directory scan for entries naming a dead agent. -/
def execDeadAgentScanDone (slice : Fin 32) (dev : Fin 4) (port : Fin 6) (s : State) : Host.Outcome State Fault Refusal :=
  after s (atSlice s slice (deadScan s slice { dev := dev, port := port }))

/-- RECLAMATION_DONE (R135): every condition of reclamation holds, RECLAIM returns to 0 and a summary record is posted. -/
def execReclamationDone (p : Fin 6) (s : State) : Host.Outcome State Fault Refusal :=
  after s (running s (endReclaim s p))

/-- PEER_SCAN_COMPLETE (R135): A peer reports over its link that its slices have completed their dead-agent scans, one of the
conditions for RECLAIM to return to 0. -/
def execPeerScanComplete (l : Fin 3) (dev : Fin 4) (port : Fin 6) (s : State) : Host.Outcome State Fault Refusal :=
  after s (peerScanned s l dev port)

/-- IDLE_FLIT (R48): A received IDLE flit with a good check value carries an ACK that releases flits from the sender's replay buffer.
-/
def execIdleFlit (side : Side) (f : Flit) (s : State) : Host.Outcome State Fault Refusal :=
  after s (recvFlit s side f)

end Sys2Proof.Machine
end

