-- ==== Sys2Proof/Machine/Measures.lean ====
section
/-! DEFINITION. The rows of the table: the measurement unit (R389–R393). -/

namespace Sys2Proof.Machine

/-- MSR_SNAP (R392): A write of MSR_CTL.SNAP takes a measurement snapshot. -/
def execMsrSnap (m : Master) (s : State) : Host.Outcome State Fault Refusal :=
  after s (csrPut s m R.MSR_CTL 1)

/-- MSR_CLR (R393): A write of MSR_CTL.CLR clears every live counter and histogram. -/
def execMsrClr (m : Master) (s : State) : Host.Outcome State Fault Refusal :=
  after s (csrPut s m R.MSR_CTL 2)

/-- MSR_EVSEL_WRITE (R389): A write of MSR_EVSEL_k selects an event and clears counter k in every slice. -/
def execMsrEvselWrite (m : Master) (k : Fin 8) (w : Word) (s : State) : Host.Outcome State Fault Refusal :=
  after s (csrPut s m (R.MSR_EVSEL k) w)

/-- MSR_HCFG_WRITE (R390): A write of MSR_HCFG sets the bins and clears every histogram. -/
def execMsrHcfgWrite (m : Master) (w : Word) (s : State) : Host.Outcome State Fault Refusal :=
  after s (csrPut s m R.MSR_HCFG w)

/-- MSR_CIDX_WRITE (R392): A write of MSR_CIDX copies the selected counter into its data registers. -/
def execMsrCidxWrite (m : Master) (w : Word) (s : State) : Host.Outcome State Fault Refusal :=
  after s (csrPut s m R.MSR_CIDX w)

/-- MSR_HIDX_WRITE (R392): A write of MSR_HIDX copies the selected histogram bin into MSR_HDAT. -/
def execMsrHidxWrite (m : Master) (w : Word) (s : State) : Host.Outcome State Fault Refusal :=
  after s (csrPut s m R.MSR_HIDX w)

end Sys2Proof.Machine
end

