-- ==== Sys2Proof/Machine/Mops.lean ====
section
/-! DEFINITION. The rows of the table: the MOP engine: starts of its eight operations, and what its slots do (R90, R93, R154–R167). -/

namespace Sys2Proof.Machine

/-- MOP_CLEAN (R154): A START with OP 0 runs a clean command over its scope. -/
def execMopClean (m : Master) (slot : Fin 4) (scope : BitVec 3) (prio : Bool) (s : State) : Host.Outcome State Fault Refusal :=
  after s (csrPut s m (R.MOP_S_CMD slot) (mopWord 0 scope prio))

/-- MOP_INVALIDATE (R154): A START with OP 1 runs an invalidate command over its scope. -/
def execMopInvalidate (m : Master) (slot : Fin 4) (scope : BitVec 3) (prio : Bool) (s : State) : Host.Outcome State Fault Refusal :=
  after s (csrPut s m (R.MOP_S_CMD slot) (mopWord 1 scope prio))

/-- MOP_CLEAN_AND_INVALIDATE (R154): A START with OP 2 runs a clean and invalidate command over its scope. -/
def execMopCleanAndInvalidate (m : Master) (slot : Fin 4) (scope : BitVec 3) (prio : Bool)
    (s : State) : Host.Outcome State Fault Refusal :=
  after s (csrPut s m (R.MOP_S_CMD slot) (mopWord 2 scope prio))

/-- MOP_PERSIST (R154): A START with OP 3 runs a persist command over its scope. -/
def execMopPersist (m : Master) (slot : Fin 4) (scope : BitVec 3) (prio : Bool) (s : State) : Host.Outcome State Fault Refusal :=
  after s (csrPut s m (R.MOP_S_CMD slot) (mopWord 3 scope prio))

/-- MOP_PRELOAD_LOCK (R90): A START with OP 4 runs preload-lock over its lines. -/
def execMopPreloadLock (m : Master) (slot : Fin 4) (scope : BitVec 3) (prio : Bool) (s : State) : Host.Outcome State Fault Refusal :=
  after s (csrPut s m (R.MOP_S_CMD slot) (mopWord 4 scope prio))

/-- MOP_UNLOCK (R154): A START with OP 5 runs unlock over its scope. -/
def execMopUnlock (m : Master) (slot : Fin 4) (scope : BitVec 3) (prio : Bool) (s : State) : Host.Outcome State Fault Refusal :=
  after s (csrPut s m (R.MOP_S_CMD slot) (mopWord 5 scope prio))

/-- MOP_ZERO_LINE (R93): A START with OP 6 runs ZeroLine over its lines. -/
def execMopZeroLine (m : Master) (slot : Fin 4) (scope : BitVec 3) (prio : Bool) (s : State) : Host.Outcome State Fault Refusal :=
  after s (csrPut s m (R.MOP_S_CMD slot) (mopWord 6 scope prio))

/-- MOP_SWEEP (R166): A START with OP 7 runs a demand-correction sweep over its lines. -/
def execMopSweep (m : Master) (slot : Fin 4) (scope : BitVec 3) (prio : Bool) (s : State) : Host.Outcome State Fault Refusal :=
  after s (csrPut s m (R.MOP_S_CMD slot) (mopWord 7 scope prio))

/-- MOP_ABORT (R161): A write of ABORT stops issue in a BUSY slot, which goes to DONE with STATUS 3 after issued lines are performed.
-/
def execMopAbort (m : Master) (slot : Fin 4) (s : State) : Host.Outcome State Fault Refusal :=
  after s (csrPut s m (R.MOP_S_CMD slot) (cmdBit s (R.MOP_S_CMD slot) 0xFF 9))

/-- MOP_REL (R160): A write of REL returns a DONE slot to FREE. -/
def execMopRel (m : Master) (slot : Fin 4) (s : State) : Host.Outcome State Fault Refusal :=
  after s (csrPut s m (R.MOP_S_CMD slot) (cmdBit s (R.MOP_S_CMD slot) 0xFF 10))

/-- MOP_LINE_PERFORMED (R155): A line of a MOP command is performed and counted. -/
def execMopLinePerformed (slot : Fin 4) (s : State) : Host.Outcome State Fault Refusal :=
  after s (mopCount s slot)

/-- SWEEP_GAP_EXPIRY (R166): SWEEP_GAP passes and the sweep slot issues its next line read. -/
def execSweepGapExpiry (slot : Fin 4) (s : State) : Host.Outcome State Fault Refusal :=
  after s (mopGap s slot)

end Sys2Proof.Machine
end

