-- ==== Sys2Proof/Machine/Nets.lean ====
section
/-! DEFINITION. The rows of the table: the mailboxes, the object dictionary and the CAN node (R324–R338, R340, R346–R348, R357). -/

namespace Sys2Proof.Machine

/-- MBX_START (R330): A write of MBX_CMD.START snapshots a dictionary request for Chiso. -/
def execMbxStart (m : Master) (which : Mbx) (w : Word) (s : State) : Host.Outcome State Fault Refusal :=
  after s (csrPut s m (mbxCmdReg which) (w ||| 0x80000000))

/-- MBX_REL (R330): A write of MBX_CTL.REL frees the mailbox result. -/
def execMbxRel (m : Master) (which : Mbx) (s : State) : Host.Outcome State Fault Refusal :=
  after s (csrPut s m (mbxCtlReg which) 1)

/-- DICTIONARY_REQUEST_DONE (R326): chiso finishes serving a dictionary request and answers on its path. -/
def execDictionaryRequestDone (s : State) : Host.Outcome State Fault Refusal :=
  after s (dictServe s)

/-- NMT_OPERATIONAL (R333): NMT command 0x01 puts the node in Operational. -/
def execNmtOperational (node : BitVec 7) (s : State) : Host.Outcome State Fault Refusal :=
  after s (nmtSet s node.toNat 2)

/-- NMT_STOPPED (R333): NMT command 0x02 puts the node in Stopped. -/
def execNmtStopped (node : BitVec 7) (s : State) : Host.Outcome State Fault Refusal :=
  after s (nmtSet s node.toNat 3)

/-- NMT_PRE_OPERATIONAL (R333): NMT command 0x80 puts the node in Pre-operational. -/
def execNmtPreOperational (node : BitVec 7) (s : State) : Host.Outcome State Fault Refusal :=
  after s (nmtSet s node.toNat 1)

/-- NMT_RESET_NODE (R333): NMT command 0x81 reloads the communication group and resets communication. -/
def execNmtResetNode (node : BitVec 7) (s : State) : Host.Outcome State Fault Refusal :=
  after s (Sys2Proof.Machine.nmtResetNode s node.toNat)

/-- NMT_RESET_COMMUNICATION (R333): NMT command 0x82 ends transfers, resets communication objects and sends boot-up. -/
def execNmtResetCommunication (node : BitVec 7) (s : State) : Host.Outcome State Fault Refusal :=
  after s (Sys2Proof.Machine.nmtResetCommunication s node.toNat)

/-- SDO_DOWNLOAD (R334): an SDO download request frame starts or completes a write to a dictionary entry. -/
def execSdoDownload (frame : BitVec 64) (s : State) : Host.Outcome State Fault Refusal :=
  after s (sdoArrive s frame)

/-- SDO_UPLOAD (R334): an SDO upload request frame starts a read of a dictionary entry. -/
def execSdoUpload (frame : BitVec 64) (s : State) : Host.Outcome State Fault Refusal :=
  after s (sdoArrive s frame)

/-- SDO_SEGMENT (R334): an SDO segment frame continues a segmented transfer. -/
def execSdoSegment (frame : BitVec 64) (s : State) : Host.Outcome State Fault Refusal :=
  after s (sdoArrive s frame)

/-- SDO_ABORT (R329): A received SDO abort frame ends the transfer. -/
def execSdoAbort (frame : BitVec 64) (s : State) : Host.Outcome State Fault Refusal :=
  after s (sdoArrive s frame)

/-- SDO_TIMEOUT (R334): no next segment arrives for 1 s and the transfer aborts with 0x0504_0000. -/
def execSdoTimeout (s : State) : Host.Outcome State Fault Refusal :=
  after s (if chisoRuns s then Sys2Proof.Machine.sdoTimeout s else s)

/-- WELLHEAD_OPEN (R338): an OPEN frame starts a Wellhead session, answered with ACCEPT or ABORT. -/
def execWellheadOpen (frame : Line) (s : State) : Host.Outcome State Fault Refusal :=
  after s (wellArrive s frame)

/-- WELLHEAD_DATA (R338): A DATA frame is accepted in order and written, or discarded with a repeated ACK. -/
def execWellheadData (frame : Line) (s : State) : Host.Outcome State Fault Refusal :=
  after s (wellArrive s frame)

/-- WELLHEAD_ACK (R338): an ACK frame from the client releases sent DATA frames or triggers a resend. -/
def execWellheadAck (frame : Line) (s : State) : Host.Outcome State Fault Refusal :=
  after s (wellArrive s frame)

/-- WELLHEAD_END (R338): an END frame completes the session, checked by CRC and answered with DONE. -/
def execWellheadEnd (frame : Line) (s : State) : Host.Outcome State Fault Refusal :=
  after s (wellArrive s frame)

/-- WELLHEAD_ABORT (R338): an ABORT frame from the client ends the session. -/
def execWellheadAbort (frame : Line) (s : State) : Host.Outcome State Fault Refusal :=
  after s (wellArrive s frame)

/-- WELLHEAD_TIMEOUT (R338): A session makes no progress for 1 s and ends in ABORT. -/
def execWellheadTimeout (s : State) : Host.Outcome State Fault Refusal :=
  after s (if chisoRuns s then wellTimeout s else s)

/-- HEARTBEAT_PRODUCER (R333): the heartbeat producer time passes and the node sends its heartbeat frame. -/
def execHeartbeatProducer (s : State) : Host.Outcome State Fault Refusal :=
  after s (heartbeat s)

/-- TPDO_EVENT_TIMER (R336): A TPDO's event timer expires and the node sends the mapped frame. -/
def execTpdoEventTimer (k : Fin 4) (s : State) : Host.Outcome State Fault Refusal :=
  after s (tpdoTimer s k)

/-- EMCY_SEND (R335): the 1 ms EMCY spacing passes and the next queued EMCY frame is sent. -/
def execEmcySend (s : State) : Host.Outcome State Fault Refusal :=
  after s (Sys2Proof.Machine.emcySend s)

/-- BUS_OFF (R331): the CAN controller goes bus-off, sets BUSOFF and recovers automatically. -/
def execBusOff (s : State) : Host.Outcome State Fault Refusal :=
  after s (Sys2Proof.Machine.busOff s)

/-- CAN_TRIM_RETRY (R331): 1 s passes untrimmed on TRO and Chiso starts another CAN trim. -/
def execCanTrimRetry (s : State) : Host.Outcome State Fault Refusal :=
  after s (canTrim s)

/-- BUS_OFF_RECOVERY (R331): the CAN controller completes its standard bus-off recovery and rejoins the bus error active. -/
def execBusOffRecovery (s : State) : Host.Outcome State Fault Refusal :=
  after s (busRecovered s)

/-- STORE_PARAMETERS (R328): A write of the store signature to 0x1010 stores the group as one journal batch. -/
def execStoreParameters (sub : BitVec 8) (sig : Word) (s : State) : Host.Outcome State Fault Refusal :=
  after s (dictRow s 0x1010 sub.toNat true 0 4 (leBytes 4 sig.toNat))

/-- RESTORE_DEFAULT_PARAMETERS (R328): A write of the restore signature to 0x1011 marks the group for defaults at the next start. -/
def execRestoreDefaultParameters (sub : BitVec 8) (sig : Word) (s : State) : Host.Outcome State Fault Refusal :=
  after s (dictRow s 0x1011 sub.toNat true 0 4 (leBytes 4 sig.toNat))

end Sys2Proof.Machine
end

