-- ==== Sys2Proof/Machine/Phases.lean ====
section
/-! DEFINITION. The rows of the table: the phase unit: edges, boundaries, slots and the quiet window (R242–R254, R297). -/

namespace Sys2Proof.Machine

/-- PHASE_A_EDGE (R243): an accepted PHASE_A edge advances the boundary, interpolation or lock of the phase unit. -/
def execPhaseAEdge (rising : Bool) (s : State) : Host.Outcome State Fault Refusal :=
  after s (phaseA s rising)

/-- PHASE_Z_EDGE (R245): an accepted PHASE_Z edge is a cycle boundary or a reverse decrement. -/
def execPhaseZEdge (rising : Bool) (s : State) : Host.Outcome State Fault Refusal :=
  after s (phaseZ s rising)

/-- QUAD_COUNT (R245): an accepted quadrature transition counts q up or down, or is flagged illegal. -/
def execQuadCount (q : Quad) (s : State) : Host.Outcome State Fault Refusal :=
  after s (Sys2Proof.Machine.quadCount s q)

/-- COASTED_BOUNDARY (R247): the acceptance window closes without a real boundary, a coasted boundary is made and the unit may go to
COAST or LOST. -/
def execCoastedBoundary (s : State) : Host.Outcome State Fault Refusal :=
  after s (Sys2Proof.Machine.coastedBoundary s)

/-- QUAD_NO_EDGE_TIMEOUT (R247): no A or B edge arrives for a time P in QUAD mode, counting as a miss. -/
def execQuadNoEdgeTimeout (s : State) : Host.Outcome State Fault Refusal :=
  after s (quadStill s)

/-- OPEN_QUIET_WINDOW (R250): A slot with ACT 1 fires and opens the quiet window. -/
def execOpenQuietWindow (k : Fin 32) (s : State) : Host.Outcome State Fault Refusal :=
  after s (slotDue s k 1)

/-- CLOSE_QUIET_WINDOW (R250): A slot with ACT 2 fires and closes the quiet window. -/
def execCloseQuietWindow (k : Fin 32) (s : State) : Host.Outcome State Fault Refusal :=
  after s (slotDue s k 2)

/-- QUIET_WINDOW_MAX (R250): PHU_QW.MAX passes since the window opened and it closes with QW_OVR set. -/
def execQuietWindowMax (s : State) : Host.Outcome State Fault Refusal :=
  after s (quietMax s)

/-- APPLY_BOUNDARY (R297): A slot with ACT 3 fires, or the 1 ms tick passes in fallback, and class P fields are applied. -/
def execApplyBoundary (slot : Option (Fin 32)) (s : State) : Host.Outcome State Fault Refusal :=
  after s (match slot with
    | some k => slotDue s k 3
    | none => if fallback s then Sys2Proof.Machine.applyBoundary s else s)

/-- SLOT_CHECKPOINT (R249): A slot with ACT 4 fires and starts a checkpoint as PMP_CKPT.GO would. -/
def execSlotCheckpoint (k : Fin 32) (s : State) : Host.Outcome State Fault Refusal :=
  after s (slotDue s k 4)

/-- MEASUREMENT_SNAPSHOT (R392): A slot with ACT 5 fires and latches every counter, histogram, sensor and rail reading. -/
def execMeasurementSnapshot (k : Fin 32) (s : State) : Host.Outcome State Fault Refusal :=
  after s (slotDue s k 5)

/-- RAISE_EVENT (R249): A slot with ACT 6 fires and posts an event record with the slot and phase. -/
def execRaiseEvent (k : Fin 32) (s : State) : Host.Outcome State Fault Refusal :=
  after s (slotDue s k 6)

end Sys2Proof.Machine
end

