-- ==== Sys2Proof/Machine/Store.lean ====
section
/-! DEFINITION. The rows of the table: repair, inspection, wear, the governor, checkpoints and the settings journal (R182–R192,
R230–R232, R240). -/

namespace Sys2Proof.Machine

/-- REPAIR_ACTION (R230): chiso acts on a repair candidate by the selected repair mode. -/
def execRepairAction (loc : RepairLoc) (s : State) : Host.Outcome State Fault Refusal :=
  after s (repairAction s loc)

/-- SLC_RMAP_WRITE (R231): A write of SLC_RMAP_k with VALID = 1 starts cleaning a way to take it out of service, or VALID = 0 returns
it. -/
def execSlcRmapWrite (m : Master) (slice : Fin 32) (k : Fin 8) (w : Word) (s : State) : Host.Outcome State Fault Refusal :=
  after s (csrPut s m (R.SLC_RMAP slice k) w)

/-- WAY_REMAP_DONE (R231): the remapped way is cleaned, excluded from allocation and PEND clears. -/
def execWayRemapDone (slice : Fin 32) (k : Fin 8) (s : State) : Host.Outcome State Fault Refusal :=
  after s (atSlice s slice (rmapDone s slice k))

/-- CST_RMDAT_WRITE (R232): A write of CST_RMDAT with VALID = 1 starts copying a Cistern slot to its spare. -/
def execCstRmdatWrite (m : Master) (w : Word) (s : State) : Host.Outcome State Fault Refusal :=
  after s (csrPut s m R.CST_RMDAT w)

/-- CISTERN_REMAP_COPY_DONE (R232): the copy to the spare slot ends and every access goes to the spare. -/
def execCisternRemapCopyDone (die : Fin 2) (entry : Fin 64) (s : State) : Host.Outcome State Fault Refusal :=
  after s (onDies s (rmCopied s (die * 64 + entry)))

/-- CST_RMIDX_WRITE (R240): A write of CST_RMIDX selects the remap entry that CST_RMDAT accesses. -/
def execCstRmidxWrite (m : Master) (w : Word) (s : State) : Host.Outcome State Fault Refusal :=
  after s (csrPut s m R.CST_RMIDX w)

/-- CST_RIDX_WRITE (R190): A write of CST_RIDX takes a snapshot of a physical region's state. -/
def execCstRidxWrite (m : Master) (w : Word) (s : State) : Host.Outcome State Fault Refusal :=
  after s (csrPut s m R.CST_RIDX w)

/-- SLC_DBG_IDX_WRITE (R95): A write of SLC_DBG_IDX takes a snapshot of a tag entry and its set's age matrix. -/
def execSlcDbgIdxWrite (m : Master) (slice : Fin 32) (w : Word) (s : State) : Host.Outcome State Fault Refusal :=
  after s (csrPut s m (R.SLC_DBG_IDX slice) w)

/-- GAP_MOVE (R182): A region's write count reaches GAP_INT and the gap moves by one slot. -/
def execGapMove (preg : BitVec 8) (s : State) : Host.Outcome State Fault Refusal :=
  after s (running s (Sys2Proof.Machine.gapMove s preg.toNat))

/-- WEAR_COMPARE (R183): every 2^20 Cistern writes the wear counters are compared and a retire or park move may start. -/
def execWearCompare (s : State) : Host.Outcome State Fault Refusal :=
  after s (running s (Sys2Proof.Machine.wearCompare s))

/-- REGION_COPY_DONE (R183): A region move's copy ends and the new region map record is written. -/
def execRegionCopyDone (die : Fin 2) (s : State) : Host.Outcome State Fault Refusal :=
  after s (running s (regionCopied s die))

/-- REGION_MAP_CONFIRMED (R183): the region map record is confirmed and the logical region switches to its new physical region. -/
def execRegionMapConfirmed (die : Fin 2) (s : State) : Host.Outcome State Fault Refusal :=
  after s (onDies s (regionSwitch s die))

/-- GOVERNOR_ADMIT (R187): credits arrive and the wear governor admits a delayed metered write by priority. -/
def execGovernorAdmit (s : State) : Host.Outcome State Fault Refusal :=
  after s (onDies s (Sys2Proof.Machine.governorAdmit s))

/-- CHECKPOINT_GO (R188): A write of PMP_CKPT.GO starts a checkpoint, or is ignored with COLL. -/
def execCheckpointGo (m : Master) (s : State) : Host.Outcome State Fault Refusal :=
  after s (csrPut s m R.PMP_CKPT 1)

/-- CHECKPOINT_REL (R188): A write of PMP_CKPT.REL frees a checkpoint result. -/
def execCheckpointRel (m : Master) (s : State) : Host.Outcome State Fault Refusal :=
  after s (csrPut s m R.PMP_CKPT 2)

/-- CHECKPOINT_WRITES_CONFIRMED (R188): every line of the checkpoint walk is confirmed and the wear record is written. -/
def execCheckpointWritesConfirmed (s : State) : Host.Outcome State Fault Refusal :=
  after s (onDies s (ckptWritten s))

/-- CHECKPOINT_RECORD_CONFIRMED (R188): the checkpoint record is confirmed and the result becomes VALID. -/
def execCheckpointRecordConfirmed (s : State) : Host.Outcome State Fault Refusal :=
  after s (onDies s (ckptDone s))

/-- SETTINGS_RECORD_CONFIRMED (R189): the Cistern confirms a settings journal record in one copy, after which Chiso writes the other
copy or reports completion. -/
def execSettingsRecordConfirmed (s : State) : Host.Outcome State Fault Refusal :=
  after s (onDies s (journalConfirm s))

end Sys2Proof.Machine
end

