-- ==== Sys2Proof/Machine/Supply.lean ====
section
/-! DEFINITION. The rows of the table: the supply, the drain, warm reset, restart and priming (R193–R214, R388, R394–R399). -/

namespace Sys2Proof.Machine

/-- WARN_TRIP (R195): HOLD_SENSE stays below WARN for 1 µs and the device closes its gate, starts the drain and sends its notices. -/
def execWarnTrip (s : State) : Host.Outcome State Fault Refusal :=
  after s (Sys2Proof.Machine.warnTrip s)

/-- RESET_TRIP (R196): HOLD_SENSE stays below RESET for 1 µs and every block outside AON is held in reset. -/
def execResetTrip (s : State) : Host.Outcome State Fault Refusal :=
  after s (Sys2Proof.Machine.resetTrip s)

/-- SAG_COMPARATOR_CLEAR (R193): HOLD_SENSE stays 20 mV above a threshold for 1 µs and the comparator clears. -/
def execSagComparatorClear (warn : Bool) (s : State) : Host.Outcome State Fault Refusal :=
  after s (comparatorClear s warn)

/-- RAIL_MONITOR_TRIP (R194): A switched rail falls below its monitor limit and the device takes it as WARN with reason 2. -/
def execRailMonitorTrip (k : Fin 8) (s : State) : Host.Outcome State Fault Refusal :=
  after s (railTrip s k)

/-- RAIL_BELOW_MINIMUM (R194): A rail falls below its absolute minimum and the device enters reset. -/
def execRailBelowMinimum (k : Fin 8) (s : State) : Host.Outcome State Fault Refusal :=
  after s (railOut s k)

/-- CHANNEL_SHED (R199): A memory channel holds no access during the drain and its domain is switched off. -/
def execChannelShed (c : Fin 4) (s : State) : Host.Outcome State Fault Refusal :=
  after s (running s (Sys2Proof.Machine.channelShed s c))

/-- PEER_REPORT_WAIT_EXPIRY (R200): the 10 µs wait for peer reports passes and the manifest scans start. -/
def execPeerReportWaitExpiry (s : State) : Host.Outcome State Fault Refusal :=
  after s (running s (reportExpiry s))

/-- DRAIN_SCAN_DONE (R200): A slice's manifest scans of tags and directory end and its segment is written. -/
def execDrainScanDone (slice : Fin 32) (s : State) : Host.Outcome State Fault Refusal :=
  after s (running s (scanDone s slice))

/-- SEGMENT_CONFIRMED (R202): the Cistern confirms a slice's manifest segment and the Complete record follows. -/
def execSegmentConfirmed (slice : Fin 32) (s : State) : Host.Outcome State Fault Refusal :=
  after s (onDies s (segmentDone s slice))

/-- DRAIN_FORWARD_TIMEOUT (R202): A forward stays unanswered for 20 µs during a drain and the agent is declared dead. -/
def execDrainForwardTimeout (p : Fin 6) (txid : BitVec 10) (s : State) : Host.Outcome State Fault Refusal :=
  after s (running s (drainFwdTimeout s p txid.toNat))

/-- DRAIN_PASS_DONE (R202): every slice's pass is confirmed and the pump writes the heat list, wear record and seal. -/
def execDrainPassDone (s : State) : Host.Outcome State Fault Refusal :=
  after s (onDies s (passDone s))

/-- SEAL_CONFIRMED (R202): the seal is confirmed, the drain ends and the device sheds every domain except AON. -/
def execSealConfirmed (s : State) : Host.Outcome State Fault Refusal :=
  after s (onDies s (sealed s))

/-- SUPPLY_RECOVERY (R197): HOLD_SENSE stays above WARN + 20 mV for 10 ms after a seal or an early WARN, and the device starts again.
-/
def execSupplyRecovery (s : State) : Host.Outcome State Fault Refusal :=
  after s (supplyGood s)

/-- WARM_RESET (R388): A keyed write of GEN_RST requests a warm reset, run as a leave or at once as the reason-4 drain. -/
def execWarmReset (m : Master) (w : Word) (s : State) : Host.Outcome State Fault Refusal :=
  after s (csrPut s m R.GEN_RST w)

/-- WARM_RESET_ENTRY_TIMEOUT (R206): 50 µs after a warm reset request the remaining non-persistent ingress entries are discarded. -/
def execWarmResetEntryTimeout (s : State) : Host.Outcome State Fault Refusal :=
  after s (running s (warmEntries s))

/-- SUSPECT_ACCEPT (R208): A write of PMP_DRN_CTL.ACCEPT ends the suspect state of the aperture. -/
def execSuspectAccept (m : Master) (w : Word) (s : State) : Host.Outcome State Fault Refusal :=
  after s (csrPut s m R.PMP_DRN_CTL (w ||| 1))

/-- PRIMING_DONE (R211): priming runs out of sources or reaches its limit and PRIMED is set. -/
def execPrimingDone (s : State) : Host.Outcome State Fault Refusal :=
  after s (Sys2Proof.Machine.primingDone s)

/-- REMOTE_LIST_DELIVERY (R203): an address from a peer's remote list arrives at its home device at start, which poisons the line as
R133 does. -/
def execRemoteListDelivery (dev : Fin 4) (line : LineAddr) (s : State) : Host.Outcome State Fault Refusal :=
  after s (running s (remoteArrives s line dev))

/-- RESTART_CLASSIFICATION_DONE (R207): restart classification, with its poison writes and new header, ends, so PMEM requests may
proceed and start step 6 may follow. -/
def execRestartClassificationDone (s : State) : Host.Outcome State Fault Refusal :=
  after s (classify s)

/-- AON_POWER_ON (R268): VAON rises, TBASE starts at 0 and KEEP, the sag comparators and the clock monitors begin to run. -/
def execAonPowerOn (s : State) : Host.Outcome State Fault Refusal :=
  after s (aonOn s)

/-- PWRGD_IN_DEASSERT (R399): PWRGD_IN falls and the device is held in reset so that rails may fall. -/
def execPwrgdInDeassert (s : State) : Host.Outcome State Fault Refusal :=
  after s (pwrgdOff s)

end Sys2Proof.Machine
end

