-- ==== Sys2Proof/Machine/Dispatch.lean ====
section
/-! DEFINITION. One arm for each command: its meaning. -/

namespace Sys2Proof.Machine

/-- The effect of a command on everything but the queue. -/
def exec (i : Instr) (s : State) : Host.Outcome State Fault Refusal :=
  match i with
  | .rdShared side f flip => Sys2Proof.Machine.execRdShared side f flip s
  | .rdOwn side f => Sys2Proof.Machine.execRdOwn side f s
  | .rdOnce side f => Sys2Proof.Machine.execRdOnce side f s
  | .upgrade side f => Sys2Proof.Machine.execUpgrade side f s
  | .itom side f => Sys2Proof.Machine.execItom side f s
  | .wrPtl side f => Sys2Proof.Machine.execWrPtl side f s
  | .wrLine side f => Sys2Proof.Machine.execWrLine side f s
  | .stashWr side f => Sys2Proof.Machine.execStashWr side f s
  | .evict side f => Sys2Proof.Machine.execEvict side f s
  | .atomHome side f => Sys2Proof.Machine.execAtomHome side f s
  | .atomMem side f => Sys2Proof.Machine.execAtomMem side f s
  | .rsvLd side f => Sys2Proof.Machine.execRsvLd side f s
  | .condSt side f => Sys2Proof.Machine.execCondSt side f s
  | .fenceLb p f => Sys2Proof.Machine.execFenceLb p f s
  | .fenceSb p f => Sys2Proof.Machine.execFenceSb p f s
  | .fenceFb p f => Sys2Proof.Machine.execFenceFb p f s
  | .maintClean side f => Sys2Proof.Machine.execMaintClean side f s
  | .maintInvalidate side f => Sys2Proof.Machine.execMaintInvalidate side f s
  | .maintCleanAndInvalidate side f => Sys2Proof.Machine.execMaintCleanAndInvalidate side f s
  | .maintPersist side f => Sys2Proof.Machine.execMaintPersist side f s
  | .maintPreloadLock side f => Sys2Proof.Machine.execMaintPreloadLock side f s
  | .maintUnlock side f => Sys2Proof.Machine.execMaintUnlock side f s
  | .zeroLine side f => Sys2Proof.Machine.execZeroLine side f s
  | .linkKeep side f => Sys2Proof.Machine.execLinkKeep side f s
  | .null side f => Sys2Proof.Machine.execNull side f s
  | .rspI side f => Sys2Proof.Machine.execRspI side f s
  | .rspS side f => Sys2Proof.Machine.execRspS side f s
  | .rspF side f => Sys2Proof.Machine.execRspF side f s
  | .rspWbPending side f => Sys2Proof.Machine.execRspWbPending side f s
  | .datClean side f => Sys2Proof.Machine.execDatClean side f s
  | .datDirty side f => Sys2Proof.Machine.execDatDirty side f s
  | .wbData side f => Sys2Proof.Machine.execWbData side f s
  | .nak side f => Sys2Proof.Machine.execNak side f s
  | .cap p f => Sys2Proof.Machine.execCap p f s
  | .capAck p f => Sys2Proof.Machine.execCapAck p f s
  | .badCheckValue side => Sys2Proof.Machine.execBadCheckValue side s
  | .ackDue side => Sys2Proof.Machine.execAckDue side s
  | .replayTimeout side => Sys2Proof.Machine.execReplayTimeout side s
  | .blockLockLoss side => Sys2Proof.Machine.execBlockLockLoss side s
  | .retrain m side => Sys2Proof.Machine.execRetrain m side s
  | .recoveryTimeout side => Sys2Proof.Machine.execRecoveryTimeout side s
  | .ltssmAdvance side lanes reversed => Sys2Proof.Machine.execLtssmAdvance side lanes reversed s
  | .trainingTimeout side => Sys2Proof.Machine.execTrainingTimeout side s
  | .capResend p => Sys2Proof.Machine.execCapResend p s
  | .linkkeepInterval side => Sys2Proof.Machine.execLinkkeepInterval side s
  | .heartbeatTimeout side => Sys2Proof.Machine.execHeartbeatTimeout side s
  | .forwardTimeout p txid => Sys2Proof.Machine.execForwardTimeout p txid s
  | .portReset m p => Sys2Proof.Machine.execPortReset m p s
  | .deadAgentScanDone slice dev port => Sys2Proof.Machine.execDeadAgentScanDone slice dev port s
  | .reclamationDone p => Sys2Proof.Machine.execReclamationDone p s
  | .fill slice line err => Sys2Proof.Machine.execFill slice line err s
  | .repairAction loc => Sys2Proof.Machine.execRepairAction loc s
  | .conflictQueueLeave slice => Sys2Proof.Machine.execConflictQueueLeave slice s
  | .evictionIssue slice line => Sys2Proof.Machine.execEvictionIssue slice line s
  | .evictionConfirm slice line => Sys2Proof.Machine.execEvictionConfirm slice line s
  | .atomMemCompletion slice line err => Sys2Proof.Machine.execAtomMemCompletion slice line err s
  | .iwbAgeExpiry p entry => Sys2Proof.Machine.execIwbAgeExpiry p entry s
  | .iwbEntryTaken p entry => Sys2Proof.Machine.execIwbEntryTaken p entry s
  | .inboundPieceTaken => Sys2Proof.Machine.execInboundPieceTaken s
  | .sliceInitDone slice => Sys2Proof.Machine.execSliceInitDone slice s
  | .drainingWalkDone slice => Sys2Proof.Machine.execDrainingWalkDone slice s
  | .evacuationEmpty slice => Sys2Proof.Machine.execEvacuationEmpty slice s
  | .cleaningConfirm slice line => Sys2Proof.Machine.execCleaningConfirm slice line s
  | .mopClean m slot scope prio => Sys2Proof.Machine.execMopClean m slot scope prio s
  | .mopInvalidate m slot scope prio => Sys2Proof.Machine.execMopInvalidate m slot scope prio s
  | .mopCleanAndInvalidate m slot scope prio => Sys2Proof.Machine.execMopCleanAndInvalidate m slot scope prio s
  | .mopPersist m slot scope prio => Sys2Proof.Machine.execMopPersist m slot scope prio s
  | .mopPreloadLock m slot scope prio => Sys2Proof.Machine.execMopPreloadLock m slot scope prio s
  | .mopUnlock m slot scope prio => Sys2Proof.Machine.execMopUnlock m slot scope prio s
  | .mopZeroLine m slot scope prio => Sys2Proof.Machine.execMopZeroLine m slot scope prio s
  | .mopSweep m slot scope prio => Sys2Proof.Machine.execMopSweep m slot scope prio s
  | .mopAbort m slot => Sys2Proof.Machine.execMopAbort m slot s
  | .mopRel m slot => Sys2Proof.Machine.execMopRel m slot s
  | .mopLinePerformed slot => Sys2Proof.Machine.execMopLinePerformed slot s
  | .sweepGapExpiry slot => Sys2Proof.Machine.execSweepGapExpiry slot s
  | .slcRmapWrite m slice k w => Sys2Proof.Machine.execSlcRmapWrite m slice k w s
  | .wayRemapDone slice k => Sys2Proof.Machine.execWayRemapDone slice k s
  | .cstRmdatWrite m w => Sys2Proof.Machine.execCstRmdatWrite m w s
  | .cisternRemapCopyDone die entry => Sys2Proof.Machine.execCisternRemapCopyDone die entry s
  | .cstRmidxWrite m w => Sys2Proof.Machine.execCstRmidxWrite m w s
  | .cstRidxWrite m w => Sys2Proof.Machine.execCstRidxWrite m w s
  | .slcDbgIdxWrite m slice w => Sys2Proof.Machine.execSlcDbgIdxWrite m slice w s
  | .gapMove preg => Sys2Proof.Machine.execGapMove preg s
  | .wearCompare => Sys2Proof.Machine.execWearCompare s
  | .regionCopyDone die => Sys2Proof.Machine.execRegionCopyDone die s
  | .regionMapConfirmed die => Sys2Proof.Machine.execRegionMapConfirmed die s
  | .governorAdmit => Sys2Proof.Machine.execGovernorAdmit s
  | .checkpointGo m => Sys2Proof.Machine.execCheckpointGo m s
  | .checkpointRel m => Sys2Proof.Machine.execCheckpointRel m s
  | .checkpointWritesConfirmed => Sys2Proof.Machine.execCheckpointWritesConfirmed s
  | .checkpointRecordConfirmed => Sys2Proof.Machine.execCheckpointRecordConfirmed s
  | .settingsRecordConfirmed => Sys2Proof.Machine.execSettingsRecordConfirmed s
  | .warnTrip => Sys2Proof.Machine.execWarnTrip s
  | .resetTrip => Sys2Proof.Machine.execResetTrip s
  | .sagComparatorClear warn => Sys2Proof.Machine.execSagComparatorClear warn s
  | .railMonitorTrip k => Sys2Proof.Machine.execRailMonitorTrip k s
  | .railBelowMinimum k => Sys2Proof.Machine.execRailBelowMinimum k s
  | .channelShed c => Sys2Proof.Machine.execChannelShed c s
  | .peerReportWaitExpiry => Sys2Proof.Machine.execPeerReportWaitExpiry s
  | .drainScanDone slice => Sys2Proof.Machine.execDrainScanDone slice s
  | .segmentConfirmed slice => Sys2Proof.Machine.execSegmentConfirmed slice s
  | .drainForwardTimeout p txid => Sys2Proof.Machine.execDrainForwardTimeout p txid s
  | .drainPassDone => Sys2Proof.Machine.execDrainPassDone s
  | .sealConfirmed => Sys2Proof.Machine.execSealConfirmed s
  | .supplyRecovery => Sys2Proof.Machine.execSupplyRecovery s
  | .warmReset m w => Sys2Proof.Machine.execWarmReset m w s
  | .warmResetEntryTimeout => Sys2Proof.Machine.execWarmResetEntryTimeout s
  | .suspectAccept m w => Sys2Proof.Machine.execSuspectAccept m w s
  | .primingDone => Sys2Proof.Machine.execPrimingDone s
  | .refresh c => Sys2Proof.Machine.execRefresh c s
  | .caParityAlert c sub rank retryOk => Sys2Proof.Machine.execCaParityAlert c sub rank retryOk s
  | .channelTrainingDone c ok => Sys2Proof.Machine.execChannelTrainingDone c ok s
  | .markLeak c => Sys2Proof.Machine.execMarkLeak c s
  | .mchMarkWrite m c k w => Sys2Proof.Machine.execMchMarkWrite m c k w s
  | .mchCidxWrite m c w => Sys2Proof.Machine.execMchCidxWrite m c w s
  | .phaseAEdge rising => Sys2Proof.Machine.execPhaseAEdge rising s
  | .phaseZEdge rising => Sys2Proof.Machine.execPhaseZEdge rising s
  | .quadCount q => Sys2Proof.Machine.execQuadCount q s
  | .coastedBoundary => Sys2Proof.Machine.execCoastedBoundary s
  | .quadNoEdgeTimeout => Sys2Proof.Machine.execQuadNoEdgeTimeout s
  | .openQuietWindow k => Sys2Proof.Machine.execOpenQuietWindow k s
  | .closeQuietWindow k => Sys2Proof.Machine.execCloseQuietWindow k s
  | .quietWindowMax => Sys2Proof.Machine.execQuietWindowMax s
  | .applyBoundary slot => Sys2Proof.Machine.execApplyBoundary slot s
  | .slotCheckpoint k => Sys2Proof.Machine.execSlotCheckpoint k s
  | .measurementSnapshot k => Sys2Proof.Machine.execMeasurementSnapshot k s
  | .raiseEvent k => Sys2Proof.Machine.execRaiseEvent k s
  | .troReady => Sys2Proof.Machine.execTroReady s
  | .xtalReady => Sys2Proof.Machine.execXtalReady s
  | .xtalTimeout => Sys2Proof.Machine.execXtalTimeout s
  | .rootLock => Sys2Proof.Machine.execRootLock s
  | .spllLock => Sys2Proof.Machine.execSpllLock s
  | .referenceChange => Sys2Proof.Machine.execReferenceChange s
  | .rampDwell => Sys2Proof.Machine.execRampDwell s
  | .xmonTrip => Sys2Proof.Machine.execXmonTrip s
  | .tmonTrip => Sys2Proof.Machine.execTmonTrip s
  | .rmonTrip => Sys2Proof.Machine.execRmonTrip s
  | .troRestartTimeout => Sys2Proof.Machine.execTroRestartTimeout s
  | .holdEnd => Sys2Proof.Machine.execHoldEnd s
  | .troFailedHoldEnd => Sys2Proof.Machine.execTroFailedHoldEnd s
  | .trimGo m => Sys2Proof.Machine.execTrimGo m s
  | .trimAutoInterval => Sys2Proof.Machine.execTrimAutoInterval s
  | .trimPassDone p => Sys2Proof.Machine.execTrimPassDone p s
  | .trimPassTimeout => Sys2Proof.Machine.execTrimPassTimeout s
  | .vcoreReached => Sys2Proof.Machine.execVcoreReached s
  | .voltageTimeout => Sys2Proof.Machine.execVoltageTimeout s
  | .dvfsMStep => Sys2Proof.Machine.execDvfsMStep s
  | .thermalStep => Sys2Proof.Machine.execThermalStep s
  | .sensorSample which temp => Sys2Proof.Machine.execSensorSample which temp s
  | .railSample k mv => Sys2Proof.Machine.execRailSample k mv s
  | .commit m mask => Sys2Proof.Machine.execCommit m mask s
  | .modeChangeAck who => Sys2Proof.Machine.execModeChangeAck who s
  | .modeChangeTimeout => Sys2Proof.Machine.execModeChangeTimeout s
  | .domainOnDone d => Sys2Proof.Machine.execDomainOnDone d s
  | .domainOffDone d => Sys2Proof.Machine.execDomainOffDone d s
  | .mcuRestart m => Sys2Proof.Machine.execMcuRestart m s
  | .chisoRun => Sys2Proof.Machine.execChisoRun s
  | .mcuFallback => Sys2Proof.Machine.execMcuFallback s
  | .csrWrite m off w => Sys2Proof.Machine.execCsrWrite m off w s
  | .csrTimeout => Sys2Proof.Machine.execCsrTimeout s
  | .indDataRead m k => Sys2Proof.Machine.execIndDataRead m k s
  | .indDataWrite m k w => Sys2Proof.Machine.execIndDataWrite m k w s
  | .evqPop m => Sys2Proof.Machine.execEvqPop m s
  | .evqPopStall m => Sys2Proof.Machine.execEvqPopStall m s
  | .msixUnmask v => Sys2Proof.Machine.execMsixUnmask v s
  | .bar0Read off len tag => Sys2Proof.Machine.execBar0Read off len tag s
  | .bar0Write off bytes ep => Sys2Proof.Machine.execBar0Write off bytes ep s
  | .bar2Read off len tag => Sys2Proof.Machine.execBar2Read off len tag s
  | .bar2Write off bytes ep th st => Sys2Proof.Machine.execBar2Write off bytes ep th st s
  | .bar4Write off w => Sys2Proof.Machine.execBar4Write off w s
  | .pcieCompletionTimeout tag => Sys2Proof.Machine.execPcieCompletionTimeout tag s
  | .functionLevelReset => Sys2Proof.Machine.execFunctionLevelReset s
  | .hotReset => Sys2Proof.Machine.execHotReset s
  | .pciePerst => Sys2Proof.Machine.execPciePerst s
  | .dmaTailWrite m c w => Sys2Proof.Machine.execDmaTailWrite m c w s
  | .dmaEnable m c => Sys2Proof.Machine.execDmaEnable m c s
  | .dmaAbort m c => Sys2Proof.Machine.execDmaAbort m c s
  | .dmaHostCompletion c off bytes ep ok => Sys2Proof.Machine.execDmaHostCompletion c off bytes ep ok s
  | .dmaDescriptorDone c => Sys2Proof.Machine.execDmaDescriptorDone c s
  | .mbxStart m which w => Sys2Proof.Machine.execMbxStart m which w s
  | .mbxRel m which => Sys2Proof.Machine.execMbxRel m which s
  | .dictionaryRequestDone => Sys2Proof.Machine.execDictionaryRequestDone s
  | .nmtOperational node => Sys2Proof.Machine.execNmtOperational node s
  | .nmtStopped node => Sys2Proof.Machine.execNmtStopped node s
  | .nmtPreOperational node => Sys2Proof.Machine.execNmtPreOperational node s
  | .nmtResetNode node => Sys2Proof.Machine.execNmtResetNode node s
  | .nmtResetCommunication node => Sys2Proof.Machine.execNmtResetCommunication node s
  | .sdoDownload frame => Sys2Proof.Machine.execSdoDownload frame s
  | .sdoUpload frame => Sys2Proof.Machine.execSdoUpload frame s
  | .sdoSegment frame => Sys2Proof.Machine.execSdoSegment frame s
  | .sdoAbort frame => Sys2Proof.Machine.execSdoAbort frame s
  | .sdoTimeout => Sys2Proof.Machine.execSdoTimeout s
  | .wellheadOpen frame => Sys2Proof.Machine.execWellheadOpen frame s
  | .wellheadData frame => Sys2Proof.Machine.execWellheadData frame s
  | .wellheadAck frame => Sys2Proof.Machine.execWellheadAck frame s
  | .wellheadEnd frame => Sys2Proof.Machine.execWellheadEnd frame s
  | .wellheadAbort frame => Sys2Proof.Machine.execWellheadAbort frame s
  | .wellheadTimeout => Sys2Proof.Machine.execWellheadTimeout s
  | .heartbeatProducer => Sys2Proof.Machine.execHeartbeatProducer s
  | .tpdoEventTimer k => Sys2Proof.Machine.execTpdoEventTimer k s
  | .emcySend => Sys2Proof.Machine.execEmcySend s
  | .busOff => Sys2Proof.Machine.execBusOff s
  | .canTrimRetry => Sys2Proof.Machine.execCanTrimRetry s
  | .storeParameters sub sig => Sys2Proof.Machine.execStoreParameters sub sig s
  | .restoreDefaultParameters sub sig => Sys2Proof.Machine.execRestoreDefaultParameters sub sig s
  | .bootSlotWrite slot off bytes => Sys2Proof.Machine.execBootSlotWrite slot off bytes s
  | .bootSlotValidate v => Sys2Proof.Machine.execBootSlotValidate v s
  | .bootActiveWrite v => Sys2Proof.Machine.execBootActiveWrite v s
  | .firmwareImageWrite slot off bytes => Sys2Proof.Machine.execFirmwareImageWrite slot off bytes s
  | .firmwareActivate v => Sys2Proof.Machine.execFirmwareActivate v s
  | .rollbackCommit v => Sys2Proof.Machine.execRollbackCommit v s
  | .attestNonce nonce => Sys2Proof.Machine.execAttestNonce nonce s
  | .attestReportRead => Sys2Proof.Machine.execAttestReportRead s
  | .bootRomVerifyDone => Sys2Proof.Machine.execBootRomVerifyDone s
  | .secDigest m => Sys2Proof.Machine.execSecDigest m s
  | .secVerify m => Sys2Proof.Machine.execSecVerify m s
  | .secAttest m => Sys2Proof.Machine.execSecAttest m s
  | .secRel m => Sys2Proof.Machine.execSecRel m s
  | .secOperationDone => Sys2Proof.Machine.execSecOperationDone s
  | .crcStart m u w => Sys2Proof.Machine.execCrcStart m u w s
  | .crcFeedD8 m u w => Sys2Proof.Machine.execCrcFeedD8 m u w s
  | .crcFeedD16 m u w => Sys2Proof.Machine.execCrcFeedD16 m u w s
  | .crcFeedD32 m u w => Sys2Proof.Machine.execCrcFeedD32 m u w s
  | .crcFin m u => Sys2Proof.Machine.execCrcFin m u s
  | .crcRel m u => Sys2Proof.Machine.execCrcRel m u s
  | .pwrgdIn devid => Sys2Proof.Machine.execPwrgdIn devid s
  | .settingsStoreReadDone => Sys2Proof.Machine.execSettingsStoreReadDone s
  | .agentRelease => Sys2Proof.Machine.execAgentRelease s
  | .fedArstHoldWrite m w => Sys2Proof.Machine.execFedArstHoldWrite m w s
  | .arstDriveDelay p => Sys2Proof.Machine.execArstDriveDelay p s
  | .vrAlert => Sys2Proof.Machine.execVrAlert s
  | .ident l f => Sys2Proof.Machine.execIdent l f s
  | .identAck l f => Sys2Proof.Machine.execIdentAck l f s
  | .identResend l => Sys2Proof.Machine.execIdentResend l s
  | .epoch l f => Sys2Proof.Machine.execEpoch l f s
  | .epochAck l f => Sys2Proof.Machine.execEpochAck l f s
  | .epochAckTimeout dev => Sys2Proof.Machine.execEpochAckTimeout dev s
  | .stand l f => Sys2Proof.Machine.execStand l f s
  | .noticeSag l f => Sys2Proof.Machine.execNoticeSag l f s
  | .noticeDeadAgent l f => Sys2Proof.Machine.execNoticeDeadAgent l f s
  | .noticeLeaveRequest l f => Sys2Proof.Machine.execNoticeLeaveRequest l f s
  | .noticeLeaveDone l f => Sys2Proof.Machine.execNoticeLeaveDone l f s
  | .noticeNoQueueEntries l f => Sys2Proof.Machine.execNoticeNoQueueEntries l f s
  | .leaveWalkDone => Sys2Proof.Machine.execLeaveWalkDone s
  | .fedWaitExpiry => Sys2Proof.Machine.execFedWaitExpiry s
  | .readyTimeout dev => Sys2Proof.Machine.execReadyTimeout dev s
  | .fedRedo m => Sys2Proof.Machine.execFedRedo m s
  | .linkOutOfService l => Sys2Proof.Machine.execLinkOutOfService l s
  | .msrSnap m => Sys2Proof.Machine.execMsrSnap m s
  | .msrClr m => Sys2Proof.Machine.execMsrClr m s
  | .msrEvselWrite m k w => Sys2Proof.Machine.execMsrEvselWrite m k w s
  | .msrHcfgWrite m w => Sys2Proof.Machine.execMsrHcfgWrite m w s
  | .msrCidxWrite m w => Sys2Proof.Machine.execMsrCidxWrite m w s
  | .msrHidxWrite m w => Sys2Proof.Machine.execMsrHidxWrite m w s
  | .idleFlit side f => Sys2Proof.Machine.execIdleFlit side f s
  | .linkDeliveryFromPeerHome l f => Sys2Proof.Machine.execLinkDeliveryFromPeerHome l f s
  | .peerScanComplete l dev port => Sys2Proof.Machine.execPeerScanComplete l dev port s
  | .remoteListDelivery dev line => Sys2Proof.Machine.execRemoteListDelivery dev line s
  | .restartClassificationDone => Sys2Proof.Machine.execRestartClassificationDone s
  | .aonPowerOn => Sys2Proof.Machine.execAonPowerOn s
  | .pwrgdInDeassert => Sys2Proof.Machine.execPwrgdInDeassert s
  | .pcieConfigWrite c => Sys2Proof.Machine.execPcieConfigWrite c s
  | .dmaCompletionTimeout c => Sys2Proof.Machine.execDmaCompletionTimeout c s
  | .busOffRecovery => Sys2Proof.Machine.execBusOffRecovery s

end Sys2Proof.Machine
end

