-- ==== Sys2Proof/Machine/Step.lean ====
section
/-! DEFINITION. A step of the block: the command at the front of the queue, or a tick of TBASE. -/

namespace Sys2Proof.Machine

/-- The next step (log entry 29): the command at the front acts on the machine with the queue's rest; with none waiting, a tick of
TBASE passes. -/
def step (s : State) : Host.Outcome State Fault Refusal :=
  match s.pending with
  | [] => after s (tick s)
  | i :: rest => exec i { s with pending := rest }

/-- The machine with the command that a word spells put at the front of its queue: no word spells one. -/
def State.withFetchWord (s : State) (nbits w : Nat) : State :=
  match decodeTableWord nbits w with
  | none => s
  | some i => { s with pending := i :: s.pending }

end Sys2Proof.Machine
end

