-- ==== Sys2Proof/Safety.lean ====
section
/-! DEFINITION. The terms in which statements about the block are made: what a command's own effect is and what follows from it, which
commands may wait, when nothing goes on by itself, and what an effect leaves unchanged. -/

namespace Sys2Proof.Machine

/-- What the units make of the machine `u` that a command's own effect leaves: they notice what changed since `s` and go on until nothing
is left to do (R14); the commands that wait are those of `s`. -/
def settled (s u : State) : State := { settle (drainWake (react s u)) 1000000 with pending := s.pending }

/-- The command completes, and `u` is the machine right after its own effect. -/
def Acts (i : Instr) (s u : State) : Prop := exec i s = .next (settled s u)

/-- Every command that waits is one that can reach the block. -/
def Waiting (s : State) : Prop := ∀ i ∈ s.pending, i.wf = true

/-- Nothing goes on by itself: no work is in flight that can be done, and no drain waits to look again. -/
def Still (s : State) : Prop := nextFlow s (holding s) [] s.fabric = none ∧ ¬ (1 ≤ s.drain.stage ∧ s.drain.stage ≤ 4)

/-- A bit of a register lies in one of some fields. -/
def InFlds (fs : List Fld) (o b : Nat) : Prop := ∃ f ∈ fs, f.off = o ∧ f.lo ≤ b ∧ b < f.lo + f.w

/-- Every stored bit of every register outside some fields is unchanged. -/
def OnlyBits (s u : State) (fs : List Fld) : Prop :=
  ∀ o b, b < 32 → ¬ InFlds fs o b → (raw u o).getLsbD b = (raw s o).getLsbD b

/-- Nothing but the stored registers differs. -/
def SameButRegs (s u : State) : Prop := u = { s with csr := u.csr }

/-- The registers that posting a record and raising its source may write (R304, R305, R309, R335, R387). -/
def signalFlds : List Fld :=
  [F.EVQ_FN_PEAK, F.EVQ_FN_LATCHED, ⟨R.EVQ_FN_T_LO, 0, 32⟩, ⟨R.EVQ_FN_T_HI, 0, 32⟩, F.EVQ_IRQ_STAT_SRC, F.GEN_STAT_FATAL, F.CAN_ERR_EMCY_OVF]

/-- What telling the masters of an event may change: the event queue, the messages and interrupts that go out, the EMCY queue, and the
fields of `signalFlds`. -/
def Told (s u : State) : Prop :=
  u = { s with csr := u.csr, evq := u.evq, ports := u.ports, fabric := u.fabric, out := u.out, pcie := u.pcie, can := u.can }
    ∧ OnlyBits s u signalFlds

/-- The registers of a side: the block of a port, or of a link. -/
def InBlock (side : Side) (o : Nat) : Prop :=
  match side with
  | .ap p => 0x300000 + p.val * 0x10000 ≤ o ∧ o < 0x310000 + p.val * 0x10000
  | .vl l => 0x380000 + l.val * 0x10000 ≤ o ∧ o < 0x390000 + l.val * 0x10000

/-- The registers that hold what an event or a failed access leaves (R39, R304, R305, R309, R335, R387). -/
def signalRegs : List Nat :=
  [R.EVQ_FN, R.EVQ_FN_T_LO, R.EVQ_FN_T_HI, R.EVQ_IRQ_STAT, R.GEN_STAT, R.CAN_ERR, R.DIR_ERR_ADDR_LO, R.DIR_ERR_ADDR_HI, R.DIR_ERR_INFO]

/-- The age order of a matrix is a strict order of the sixteen ways (R74): newer than is transitive. -/
def AgeStrict (m : BitVec 120) : Prop :=
  ∀ a b c, a < 16 → b < 16 → c < 16 → a ≠ b → b ≠ c → a ≠ c → newer m a b = true → newer m b c = true → newer m a c = true

/-- The CSR root serves an access to a register at once (R34, R292, R293): it holds none, the register's block is on and clocked, and
its clock runs. -/
def Serves (s : State) (off : Nat) : Prop :=
  s.csrWaits = [] ∧ s.indOut = none ∧ (place off).isSome ∧ blockUp s off = true ∧ ((domainAt off).isSome → clocksRun s = true)

/-- A message flit arrives in sequence on an ACTIVE side, with a good check value, while the clocks run (R47, R48, R266). -/
def Hears (s : State) (side : Side) (f : Flit) : Prop :=
  f.message = true ∧ ltssm s side = 6 ∧ goodCheck side f = true ∧ fSeq f = (lnkOf s side).rxSeq ∧ getF s F.CLK_STAT_CST ≠ 4

/-- The commands by which an agent's request arrives (R57). -/
def requestRows (p : Fin 6) (f : Flit) : List Instr :=
  let a : Side := .ap p
  [.rdShared a f none, .rdOwn a f, .rdOnce a f, .upgrade a f, .itom a f, .wrPtl a f, .wrLine a f, .stashWr a f, .evict a f, .atomHome a f,
   .atomMem a f, .rsvLd a f, .condSt a f, .fenceLb p f, .fenceSb p f, .fenceFb p f, .maintClean a f, .maintInvalidate a f,
   .maintCleanAndInvalidate a f, .maintPersist a f, .maintPreloadLock a f, .maintUnlock a f, .zeroLine a f]

/-- The commands by which an answer or a writeback arrives (R55, R56). -/
def answerRows (side : Side) (f : Flit) : List Instr :=
  [.rspI side f, .rspS side f, .rspF side f, .rspWbPending side f, .datClean side f, .datDirty side f, .wbData side f]

/-- The commands by which a flit arrives on a side of either kind. -/
def flitRows (side : Side) (f : Flit) : List Instr :=
  [.rdShared side f none, .rdOwn side f, .rdOnce side f, .upgrade side f, .itom side f, .wrPtl side f, .wrLine side f, .stashWr side f, .evict side f,
   .atomHome side f, .atomMem side f, .rsvLd side f, .condSt side f, .maintClean side f, .maintInvalidate side f,
   .maintCleanAndInvalidate side f, .maintPersist side f, .maintPreloadLock side f, .maintUnlock side f, .zeroLine side f, .linkKeep side f,
   .null side f, .nak side f] ++ answerRows side f

/-- The commands by which a flit arrives at a port only. -/
def portRows (p : Fin 6) (f : Flit) : List Instr := [.fenceLb p f, .fenceSb p f, .fenceFb p f, .cap p f, .capAck p f]

/-- The commands by which a flit arrives on a Vrelcia link only. -/
def linkRows (l : Fin 3) (f : Flit) : List Instr :=
  [.ident l f, .identAck l f, .epoch l f, .epochAck l f, .stand l f, .noticeSag l f, .noticeDeadAgent l f,
   .noticeLeaveRequest l f, .noticeLeaveDone l f, .noticeNoQueueEntries l f]

/-- A command by which a flit arrives on a side. What the flit carries is in the flit (R45, R56): each of these acts by that. -/
def Arrives (i : Instr) (side : Side) (f : Flit) : Prop :=
  i ∈ flitRows side f ∨ i = .idleFlit side f ∨ (∃ p, side = .ap p ∧ i ∈ portRows p f)
    ∨ (∃ l, side = .vl l ∧ (i = .linkDeliveryFromPeerHome l f ∨ i ∈ linkRows l f))

end Sys2Proof.Machine
end

