-- ==== Sys2Proof/Certificates/Slice0/Obligations.lean ====
section
/-! DEFINITION. What is stated of the block: how each command completes, what the units keep and compute, and what every step keeps. -/

open Sys2Proof Sys2Proof.Machine

/-- With a command at the front, a step is that command on the machine with the queue's rest; with none waiting, a step is a tick of TBASE
and what follows from it. Where nothing goes on by itself after a command's own effect and no unit notices a change of what it watches, the
next state is that effect. The queue is the model's own (log entry 29). From 00_scope.md, Conventions; 01_architecture.md, Dependencies
between subsystems. -/
def Obligations.StepTakesFront : Prop :=
  ((∀ (s : State) (c : Instr) (rest : List Instr), s.pending = c :: rest → step s = exec c { s with pending := rest })
   ∧ (∀ (s : State) (c : Instr), step { s with pending := c :: s.pending } = exec c s)
   ∧ (∀ s : State, s.pending = [] → step s = .next (settled s (tick s))))
  ∧ (∀ (s u : State), Still u → seen s = seen u → settled s u = { u with pending := s.pending })

/-- After reset every register reads its reset value, DIR_HT_b reads b mod 32 and MSR_EVSEL_k reads k; every FIFO, buffer, way, entry and
queue is empty, the event queue holds nothing, no command waits, and nothing goes on by itself. Registers without a reset value in the spec
take those of log entries 1 to 10. From 19_register_index.md, Reset summary; 02_address_map.md, Buckets and the home table;
19_register_index.md, MSR registers. -/
def Obligations.ResetValues : Prop :=
  (∀ o, raw State.reset o = resetWord o ∧ effWord State.reset o = resetWord o)
  ∧ (∀ b : Fin 256, getF State.reset (F.DIR_HT_SLICE b) = b % 32 ∧ effF State.reset (F.DIR_HT_SLICE b) = b % 32)
  ∧ (∀ k : Fin 8, getF State.reset (F.MSR_EVSEL_EV k) = k)
  ∧ (∀ n, (slice State.reset n).ways = [] ∧ (slice State.reset n).dir = [] ∧ (slice State.reset n).mshrs = [] ∧ (slice State.reset n).evb = [])
  ∧ (∀ p, (port State.reset p).txns = [] ∧ (port State.reset p).iwb = [] ∧ (port State.reset p).fwds = [])
  ∧ State.reset.evq.recs = [] ∧ State.reset.evq.lost = 0 ∧ State.reset.dram = [] ∧ State.reset.cis.lines = [] ∧ State.reset.fabric = []
  ∧ State.reset.pending = [] ∧ Waiting State.reset ∧ Still State.reset

/-- From every state a step answers a next state whose queue is the rest of the old one: no command's effect, and nothing that goes on by
itself, faults, refuses, or adds to or drops from the queue; where every command that waits is one that can reach the block, that stays so.
That the queue is first in, first out is the model's (log entry 29). From 00_scope.md, Conventions; 15_control_interfaces.md, Access paths.
-/
def Obligations.WaitingKept : Prop :=
  ∀ s : State, ∃ s', step s = .next s' ∧ s'.pending = s.pending.tail ∧ (Waiting s → Waiting s')

/-- From every state any number of steps runs to a next state, with as many commands taken from the front of the queue; where every command
that waits can reach the block, that stays so. The queue is the model's (log entry 29). From 00_scope.md, Conventions. -/
def Obligations.RunGoesOn : Prop :=
  ∀ (n : Nat) (s : State), ∃ s' : State, core.run n s = .next s' ∧ s'.pending = s.pending.drop n ∧ (Waiting s → Waiting s')

/-- For every row by which a flit arrives, where the flit carries a message: on a side that is not ACTIVE nothing happens; with a bad check
value it is counted, the CRC flag is set and one Nak goes out until the next flit in sequence; out of sequence it is discarded. From
03_agent_ports.md, The flit; 03_agent_ports.md, Acknowledgement and replay. -/
def Obligations.MessageOutOfTurn : Prop :=
  ∀ (s : State) (side : Side) (f : Flit) (i : Instr), Arrives i side f → f.message = true →
    let k := lnkOf s side
    let g := sideRegs side
    let counted := setF (flag s g.crc) g.cntCrc (bump 0xFFFFFFFF (getF s g.cntCrc) 1)
    (ltssm s side ≠ 6 → Acts i s s)
    ∧ (ltssm s side = 6 → goodCheck side f = false → k.nakked = true → Acts i s counted)
    ∧ (ltssm s side = 6 → goodCheck side f = false → k.nakked = false →
        let t := setLnk counted side { k with nakked := true }
        Acts i s (emit t (.flit side (lctlFlit side 1 (ackOf (lnkOf t side)) 0))))
    ∧ (ltssm s side = 6 → goodCheck side f = true → fSeq f ≠ k.rxSeq → Acts i s s)

/-- For every row by which a flit arrives, where the flit carries a message: on an ACTIVE side, with a good check value and the SEQ
expected, its ACK is taken, SEQ moves on, its credits count, and the protocol layer takes the message, or it stands in the receive queue in
CLOCK-HOLD. A port has no route word. From 03_agent_ports.md, Acknowledgement and replay; 03_agent_ports.md, Message classes and credits;
13_clocks.md, Monitors and the fallback chain. -/
def Obligations.MessageInTurn : Prop :=
  ∀ (s : State) (side : Side) (f : Flit) (i : Instr), Arrives i side f → f.message = true →
    ltssm s side = 6 → goodCheck side f = true → fSeq f = (lnkOf s side).rxSeq →
    let k := takeAck (lnkOf s side) (fAck f)
    let t := push (setLnk s side { k with rxSeq := (k.rxSeq + 1) % 256, nakked := false,
                                          crd := setCr k.crd (fCrcls f) (cr k.crd (fCrcls f) + fCrcnt f) }) (.egress side)
    Acts i s (match side with
      | .ap p => if getF s F.CLK_STAT_CST = 4 then push t (.rx (.ap p) { f with route := 0 }) else portMsg t p { f with route := 0 }
      | .vl l => if getF s F.CLK_STAT_CST = 4 then push t (.rx (.vl l) f) else linkMsg t l f)

/-- RdShared with upset bits: the upset joins those of the slice that homes the line, where that slice is here, on and clocked, and the flit
is then taken as without it. From 11_memory_channels_and_ecc.md, Surface and tag codes. -/
def Obligations.UpsetRequestArrives : Prop :=
  ∀ (s : State) (side : Side) (f : Flit) (u : Flip),
    let n := homeOf s (fLine f)
    let t := if homedHere s (fLine f) = true ∧ sliceUp s n = true then setSlice s n { slice s n with upsets := (slice s n).upsets ++ [u] } else s
    Acts (.rdShared side f (some u)) s (recvFlit t side f) ∧ Acts (.rdShared side f none) s (recvFlit s side f)

/-- For every row by which a flit arrives at a port, where the flit carries a request: in sequence, with a free TXID below MAXTX, room in
the REQ queue and a form that R57 to R60 allow, the request joins the queue at its end with the fields of its header, one credit of the
agent is used, SEQ moves on, and nothing else of the port or the machine changes but the work that follows. From 03_agent_ports.md, Message
classes and credits; 03_agent_ports.md, Opcodes; 07_ordering.md, Marks. -/
def Obligations.AgentRequestJoins : Prop :=
  ∀ (s : State) (p : Fin 6) (f : Flit) (i : Instr), Arrives i (.ap p) f → Hears s (.ap p) f → 1 ≤ fOpc f → fOpc f ≤ 0x0F →
    opData (fOpc f) = decide (fType f = 2) → 0 < (port s p).lnk.room.1 → fTx f < getF s (F.APT_CAPS_MAXTX p) →
    (∀ t ∈ (port s p).txns, t.tx ≠ fTx f) → requestOk s f = true →
    let x := port s p
    let t : Txn := ⟨x.arrivals, fTx f, fOpc f, fLine f, fMark f, fArg f, f.data, fPoison f, f.hdr, 0, 0, []⟩
    ∃ u k, Acts i s u
      ∧ u = { s with
          ports := nset s.ports p { x with lnk := k, arrivals := x.arrivals + 1, txns := x.txns ++ [t] }
          fabric := s.fabric ++ [.egress (.ap p), .port p] }
      ∧ k.rxSeq = ((port s p).lnk.rxSeq + 1) % 256 ∧ k.room.1 = (port s p).lnk.room.1 - 1 ∧ k.nakked = false
      ∧ k.owed = (port s p).lnk.owed ∧ k.txSeq = (port s p).lnk.txSeq ∧ k.egress = (port s p).lnk.egress

/-- For every row by which a flit arrives at a port, where the flit carries a request: in sequence and with room in the REQ queue, a TXID
that a request outstanding has, or one not below MAXTX, is a breach with code 3, and the request does not join the queue. From
03_agent_ports.md, Message classes and credits; 03_agent_ports.md, Non-conforming senders. -/
def Obligations.AgentRequestBreaks : Prop :=
  ∀ (s : State) (p : Fin 6) (f : Flit) (i : Instr), Arrives i (.ap p) f → Hears s (.ap p) f → 1 ≤ fOpc f → fOpc f ≤ 0x0F →
    opData (fOpc f) = decide (fType f = 2) → 0 < (port s p).lnk.room.1 →
    (getF s (F.APT_CAPS_MAXTX p) ≤ fTx f ∨ ∃ t ∈ (port s p).txns, t.tx = fTx f) →
    ∃ u, Acts i s u ∧ (port u p).txns = (port s p).txns ∧ u.fabric = s.fabric ++ [.egress (.ap p), .breach (.ap p) 3 f.hdr]
      ∧ u = { s with ports := u.ports, fabric := u.fabric }

/-- For every row by which a flit arrives at a port, where the flit carries RspI, RspS, RspF, RspWbPending, DatClean, DatDirty or WbData
that answers a forward outstanding, for its line and from a home of this device: it ends the forward and brings the answer, with its data
and poison, to the slice that sent it; the credit of its class is due back to the agent; a forward that waited for a TXID leaves, and where
none waits nothing else of the port moves. From 03_agent_ports.md, Opcodes; 05_coherence.md, Agent answers. -/
def Obligations.AgentAnswerReachesHome : Prop :=
  ∀ (s : State) (p : Fin 6) (f : Flit) (i : Instr) (q : Fwd), Arrives i (.ap p) f → Hears s (.ap p) f →
    (0x28 ≤ fOpc f ∧ fOpc f ≤ 0x2B) ∨ (0x30 ≤ fOpc f ∧ fOpc f ≤ 0x32) →
    opData (fOpc f) = decide (fType f = 2) → 0 < cr (port s p).lnk.room (if fOpc f < 0x30 then 2 else 3) →
    ¬ (fOpc f = 0x32 ∧ bit (fArg f) 0 = false) →
    (port s p).fwds.find? (fun q => decide (q.tx = fTx f) && !q.pulled) = some q → q.line = fLine f → q.peer = none → q.opc ≠ 0x25 →
    let c := if fOpc f < 0x30 then 2 else 3
    let mine := fun (q : Fwd) => decide (q.tx = fTx f) && !q.pulled
    let a : HAns := { src := { dev := self s, port := p }, hdr := f.hdr, tx := q.tx, opc := fOpc f, line := fLine f, arg := fArg f,
                      data := dataSlot f, poison := fPoison f }
    let v := giveBack (takeRoom (accept s (.ap p) f).1 (.ap p) c).1 (.ap p) c
    Acts i s (push (retryFwd (setPort v p { port v p with fwds := dropOne mine (port v p).fwds }) p) (.answer q.slice a))
    ∧ ((port s p).fwdWait = [] → ∃ u, Acts i s u
      ∧ u = { s with ports := u.ports, fabric := u.fabric }
      ∧ (port u p).fwds = dropOne mine (port s p).fwds
      ∧ (port u p).txns = (port s p).txns ∧ (port u p).iwb = (port s p).iwb
      ∧ cr (port u p).lnk.owed c = cr (port s p).lnk.owed c + 1
      ∧ u.fabric = s.fabric ++ [.egress (.ap p), .answer q.slice a])

/-- For every row by which a flit arrives on a Vrelcia link: a message with a credit that arrives in sequence on a Vrelcia link with a FEP
other than this device's federation epoch, within its credits, changes nothing of the protocol: the link's stale count rises by one,
saturating, and the credit of its class falls due. From 18_startup_and_federation.md, Vrelcia links. -/
def Obligations.StaleFlitDiscarded : Prop :=
  ∀ (s : State) (l : Fin 3) (f : Flit) (i : Instr) (c : Nat), Arrives i (.vl l) f → Hears s (.vl l) f →
    opClass (fOpc f) = some c → c < 4 → fOpc f ≠ 0x0E → fOpc f ≠ 0x2E → opData (fOpc f) = decide (fType f = 2) → 0 < cr (vl s l).lnk.room c →
    rtFep f.route ≠ getF s F.FED_STAT_EPOCH →
    ∃ u, Acts i s u
      ∧ getF u (F.FED_CNT_STALE_COUNT l) = bump 0xFFFFFFFF (getF s (F.FED_CNT_STALE_COUNT l)) 1
      ∧ OnlyBits s u [F.FED_CNT_STALE_COUNT l]
      ∧ cr (vl u l).lnk.owed c = cr (vl s l).lnk.owed c + 1
      ∧ u = { s with csr := u.csr, vls := u.vls, fabric := u.fabric } ∧ u.fabric = s.fabric ++ [.egress (.vl l)]
      ∧ (vl u l).remotes = (vl s l).remotes ∧ (vl u l).fwds = (vl s l).fwds ∧ (vl u l).inq = (vl s l).inq

/-- For every row by which a flit arrives: a message in sequence on a Vrelcia link, with the federation's epoch and within its credits: a
request goes to the home side, a forward to this device's ports, Cmp and CmpErr to the requester, a voluntary WbData to its home, an answer
to the home that waits for it; LinkKeep and Null end there. From 05_coherence.md, Coherence across a federation;
18_startup_and_federation.md, Vrelcia links. -/
def Obligations.LinkRequestArrives : Prop :=
  ∀ (s : State) (l : Fin 3) (f : Flit) (i : Instr) (c : Nat), Arrives i (.vl l) f → Hears s (.vl l) f →
    opClass (fOpc f) = some c → fOpc f ≠ 0x0E → fOpc f ≠ 0x2E → opData (fOpc f) = decide (fType f = 2) → (c < 4 → 0 < cr (vl s l).lnk.room c) →
    rtFep f.route = getF s F.FED_STAT_EPOCH →
    let t := (accept s (.vl l) f).1
    let r := (takeRoom t (.vl l) c).1
    let b := giveBack r (.vl l) c
    Acts i s (if c = 4 then t
      else if c = 0 then linkReq r l f
      else if c = 1 then linkFwd r l f
      else if fOpc f = 0x2C ∨ fOpc f = 0x2D then linkComplete b l f
      else if fOpc f = 0x32 ∧ bit (fArg f) 0 = false then linkWb b l f
      else if c = 2 ∨ fOpc f = 0x32 ∨ (vl b l).fwds.any (fun q => decide (q.tx = fTx f) && decide (q.line = fLine f)) = true then linkAnswer b l f
      else linkComplete b l f)

/-- For every row by which a flit arrives: Nak releases what it acknowledges and has the rest resent; an IDLE flit gives its ACK; the
agent's Cap is recorded and answered with CapAck in CAP and ACTIVE, and a bad one takes the port to FAILED; CapAck counts in CAP; a reserved
subtype is breach 1. Each with a bad check value is counted and answered with a Nak, and on an ACTIVE side each is discarded while a Nak is
out. From 03_agent_ports.md, Acknowledgement and replay; 03_agent_ports.md, Capability exchange; 18_startup_and_federation.md, Vrelcia
links; 03_agent_ports.md, Non-conforming senders. -/
def Obligations.LinkControlArrives : Prop :=
  ∀ (s : State) (side : Side) (f : Flit) (i : Instr), Arrives i side f →
    let k := lnkOf s side
    let bad := goodCheck side f = false
    let mute := ltssm s side = 6 ∧ k.nakked = true
    (f.ftype = 0 → Acts i s
      (if ltssm s side ≠ 6 then s else if bad then badCheck s side else if mute then s else push (setLnk s side (takeAck k (fAck f))) (.egress side)))
    ∧ (f.ftype = 3 → f.opc = 1 → Acts i s
      (if ltssm s side ≠ 6 then s else if bad then badCheck s side else if mute then s
       else push (resendAll (setLnk s side (takeAck k (fAck f))) side) (.egress side)))
    ∧ (f.ftype = 3 → (match side with
          | .ap _ => f.opc = 0 ∨ 3 < f.opc
          | .vl _ => f.opc = 0 ∨ f.opc = 2 ∨ f.opc = 3 ∨ 9 < f.opc) → Acts i s
      (if ltssm s side ≠ 5 ∧ ltssm s side ≠ 6 then s else if bad then badCheck s side else if mute then s else push s (.breach side 1 f.hdr)))
    ∧ (∀ p, side = .ap p → f.ftype = 3 → f.opc = 2 →
      let t := recordCap s p f
      let v := emit t (.flit side (lctlFlit side 3 (ackOf (lnkOf t side)) 0))
      Acts i s
        (if ltssm s side ≠ 5 ∧ ltssm s side ≠ 6 then s else if bad then badCheck s side else if mute then s
         else if (lineByte f.data 0).toNat ≠ 1 ∨ (lineByte f.data 5).toNat < 8 ∨ (lineByte f.data 6).toNat < 8 ∨ (lineByte f.data 7).toNat < 8 then capFail t p f
         else if ltssm s side = 6 then v
         else tryActive (setPort v p { port v p with lnk := { (port v p).lnk with capSeen := true } }) p))
    ∧ (∀ p, side = .ap p → f.ftype = 3 → f.opc = 3 → Acts i s
      (if ltssm s side ≠ 5 then s else if bad then badCheck s side
       else tryActive (setPort s p { port s p with lnk := { (port s p).lnk with capAck := true } }) p))

/-- A bad check value, an acknowledgement due, the replay timer, loss of block lock, the end of RECOVERY's time, the training bound, the Cap
resend, the LinkKeep interval, the missed heartbeat and the loss of a link act in the training states that the rules name, and do nothing in
others. From 03_agent_ports.md, Physical layer and training; 03_agent_ports.md, Acknowledgement and replay; 03_agent_ports.md, Marks, poison
and heartbeat; 03_agent_ports.md, Dead agents and port reset. -/
def Obligations.LinkEventsAct : Prop :=
  ∀ (s : State) (side : Side) (p : Fin 6) (l : Fin 3),
    let k := lnkOf s side
    let g := sideRegs side
    let active := ltssm s side = 6
    Acts (.badCheckValue side) s (if ltssm s side = 5 ∨ active then badCheck s side else s)
    ∧ Acts (.ackDue side) s (if ¬ active then s
        else if k.owed = (0, 0, 0, 0) ∨ 128 ≤ k.replay.length then emit s (.flit side (Machine.idleFlit side (ackOf k)))
        else egress s side { opc := 0, cls := 4 })
    ∧ Acts (.replayTimeout side) s (if active then resendAll s side else s)
    ∧ Acts (.blockLockLoss side) s (if active then setF (setLnk s side { k with retrain := false }) g.ltssm 7 else s)
    ∧ Acts (.recoveryTimeout side) s (if ltssm s side = 7 then sideLost (flag s g.recov) side 8 2 else s)
    ∧ Acts (.trainingTimeout side) s (if 1 ≤ ltssm s side ∧ ltssm s side ≤ 5 then
        let t := flag s g.recov
        setF (setF (setLnk t side { lnkOf t side with detects := 0 }) g.width 0) g.ltssm 8 else s)
    ∧ Acts (.capResend p) s (if ltssm s (.ap p) = 5 ∧ (port s p).lnk.capAck = false then sendCap s p else s)
    ∧ Acts (.linkkeepInterval side) s (if active then egress s side { opc := 0x10, cls := 4 } else s)
    ∧ Acts (.heartbeatTimeout side) s (if active then sideLost (flag s g.keep) side 0 3 else s)
    ∧ Acts (.linkOutOfService l) s (if ltssm s (.vl l) = 0 then s else push (linkDown s l 0) .fed)

/-- DETECT, LOCK and the states after them follow one another; in LANES the lanes that passed give the width, too few of them return to
DETECT, three returns having failed give FAILED with the width 0, and CAP begins; RECOVERY returns to ACTIVE no wider than before unless
software asked, and what stands in the replay buffer is resent; an enabled Vrelcia link leaves DISABLED. From 03_agent_ports.md, Physical
layer and training; 18_startup_and_federation.md, Vrelcia links. -/
def Obligations.TrainingAdvances : Prop :=
  ∀ (s : State) (side : Side) (lanes : BitVec 16) (rev : Bool),
    let g := sideRegs side
    let k := lnkOf s side
    let row := Instr.ltssmAdvance side lanes rev
    let seen := noteLanes s side lanes
    (ltssm s side = 1 → Acts row s (setF s g.ltssm 2)) ∧ (ltssm s side = 2 → Acts row s (setF s g.ltssm 3))
    ∧ (ltssm s side = 3 → Acts row s (setF s g.ltssm 4))
    ∧ (ltssm s side = 4 → ∀ w, widthOf s side lanes = some w →
        Acts row s (enterCap (setF (setF seen g.width w) g.rev (b2n rev)) side))
    ∧ (ltssm s side = 4 → widthOf s side lanes = none → k.detects < 3 →
        Acts row s (setF (setLnk seen side { k with detects := k.detects + 1 }) g.ltssm 1))
    ∧ (ltssm s side = 4 → widthOf s side lanes = none → 3 ≤ k.detects →
        let t := flag seen g.recov
        Acts row s (setF (setF (setLnk t side { lnkOf t side with detects := 0 }) g.width 0) g.ltssm 8))
    ∧ (ltssm s side = 7 → ∀ w, widthOf s side lanes = some w →
        let v := if w = 3 ∧ getF s g.width ≠ 3 ∧ k.retrain = false then getF s g.width else w
        let t := setF (setF seen g.width v) g.rev (b2n rev)
        Acts row s (push (resendAll (setF (setLnk t side { k with retrain := false }) g.ltssm 6) side) (.egress side)))
    ∧ (ltssm s side = 7 → widthOf s side lanes = none → Acts row s s)
    ∧ (5 ≤ ltssm s side → ltssm s side ≠ 7 → Acts row s s)
    ∧ (∀ l, side = .vl l → ltssm s side = 0 → effF s g.en = 1 → Acts row s (setF s g.ltssm 1))

/-- A forward unanswered for its time declares its agent dead with reason 4, unless it is dead already; a slice's scan ends; reclamation
ends once all it waits for is done, with the record 0x0203; a peer's slices report the end of their scans for an agent of this device. A
write of RETRAIN to the control register of a side enters RECOVERY from ACTIVE, marked as asked for; a write of RST to a port's resets it.
From 03_agent_ports.md, Stash offers; 06_coherence_races.md, Dead agents; 03_agent_ports.md, APT registers; 03_agent_ports.md, Dead agents
and port reset; 14_power_domains.md, Port reset and retrain; 18_startup_and_federation.md, FED registers. -/
def Obligations.DeadAgentRows : Prop :=
  (∀ (s : State) (p q : Fin 6) (tx : BitVec 10) (n : Fin 32) (d : Fin 4) (l : Fin 3),
     Acts (.forwardTimeout p tx) s
       (if holding s = true then s
        else if isF s (F.APT_STAT_DEAD p) = false ∧ (port s p).fwds.any (fun f => decide (f.tx = tx.toNat) && !f.pulled) = true then
          declareDead (flag s (F.APT_ERR_FWD_TO p)) p 4
        else s)
     ∧ Acts (.deadAgentScanDone n d q) s (if holding s = true ∨ sliceUp s n = false then s else deadScan s n { dev := d, port := q })
     ∧ Acts (.reclamationDone p) s
       (if holding s = true then s
        else if isF s (F.APT_STAT_RECLAIM p) = true ∧ reclaimed s p = true then
          let t := post (setF s (F.APT_STAT_RECLAIM p) 0) 0x0203 (0x20 + p) (leBytes 4 (port s p).poisoned)
          if (port s p).resetting = true then endReset t p else t
        else s)
     ∧ Acts (.peerScanComplete l d q) s
       (if d = self s ∧ isF s (F.FED_LSTAT_UP l) = true ∧ isF s (F.APT_STAT_RECLAIM q) = true ∧ (port s q).peersDone.contains l.val = false then
          setPort s q { port s q with peersDone := (port s q).peersDone ++ [l.val] }
        else s))
  ∧ (∀ (s : State) (m : Master) (side : Side) (p : Fin 6),
     let off := ctlOf side
     (Serves s off → ∃ t, SameButRegs s t ∧ OnlyBits s t [] ∧ Acts (.retrain m side) s (emit
       (if ltssm s side = 6 then setF (setLnk t side { lnkOf s side with retrain := true }) (sideRegs side).ltssm 7 else t) (.regDone m off 0 0)))
     ∧ (Serves s (R.APT_CTL p) → ∃ t, SameButRegs s t ∧ OnlyBits s t [] ∧ Acts (.portReset m p) s (emit (portReset t p) (.regDone m (R.APT_CTL p) 0 0))))

/-- Fills, eviction writes issued and confirmed, AtomMem completions and cleaning confirmations act at a slice that is on and clocked,
outside CLOCK-HOLD, and do nothing at another. INIT ends in ENABLED or DISABLED as SLC_CTL.EN has it; DRAINING ends so once its walk is done
and the eviction buffer is empty, with the record 0x0304; an evacuation reads EMPTY once nothing of a marked bucket is left. An ingress
entry that reaches its age is marked; an entry sent to a home here, and the host piece at the head of its queue, are taken by that home as a
request; CLOCK-HOLD stops each. From 04_slice.md, MSHRs; 04_slice.md, Eviction buffer; 05_coherence.md, Atomics; 08_maintenance.md, The
operations; 04_slice.md, Enabling; 08_maintenance.md, Disabling a slice; 14_power_domains.md, Moving buckets out of a slice; 04_slice.md,
Ingress write buffers; 16_host_and_network.md, PCI Express endpoint. -/
def Obligations.StoreReturns : Prop :=
  (∀ (s : State) (n : Fin 32) (l : LineAddr) (e : BitVec 640),
     let at' := fun (t : State) => if holding s = true ∨ sliceUp s n = false then s else t
     Acts (.fill n l e) s (at' (fillReturn s n l e)) ∧ Acts (.evictionIssue n l) s (at' (evbIssue s n l))
     ∧ Acts (.evictionConfirm n l) s (at' (evbConfirm s n l)) ∧ Acts (.atomMemCompletion n l e) s (at' (atomReturn s n l e))
     ∧ Acts (.conflictQueueLeave n) s (at' (leaveQueue s n))
     ∧ Acts (.cleaningConfirm n l) s (at' (
       let x := slice s n
       let mine := fun (c : Cleaning) => decide (c.line = l) && c.admitted
       match x.cleans.find? mine with
       | none => s
       | some c =>
         let y := { x with cleans := dropOne mine x.cleans }
         let z := match findWay y l with
           | some k => (match nget y.ways k with
             | some w => if c.written then y else setWay y k { w with dirty := false }
             | none => y)
           | none => y
         push (finishAll (setSlice s n z) c.after) (.tend n))))
  ∧ (∀ (s : State) (n : Fin 32),
     let st := if effF s (F.SLC_CTL_EN n) = 1 then 2 else 1
     Acts (.sliceInitDone n) s
       (if holding s = true then s
        else if sliceUp s n = true ∧ slcState s n = 0 then push (setF s (F.SLC_STAT_STATE n) st) (.tend n) else s)
     ∧ Acts (.drainingWalkDone n) s
       (if holding s = true ∨ sliceUp s n = false then s
        else if slcState s n = 3 ∧ 2048 ≤ (slice s n).walk ∧ (slice s n).evb = [] then
          push (post (setF s (F.SLC_STAT_STATE n) st) 0x0304 n (b1 st)) (.tend n)
        else s)
     ∧ Acts (.evacuationEmpty n) s
       (if holding s = true ∨ sliceUp s n = false then s
        else if (slice s n).evacOn = true ∧ evacLeft s n = 0 ∧ evacHolds s n = false then
          setF (setSlice s n { slice s n with evacOn := false }) (F.SLC_EVAC_STAT_EMPTY n) 1
        else s))
  ∧ (∀ (s : State) (p : Fin 6) (id : Nat),
     let x := port s p
     Acts (.iwbAgeExpiry p id) s
       (if holding s = true then s
        else push (setPort s p { x with iwb := updOne (fun e => decide (e.id = id)) (fun e => { e with aged := true }) x.iwb }) (.port p))
     ∧ Acts (.iwbEntryTaken p id) s
       (if holding s = true then s
        else match x.iwb.find? (fun e => decide (e.id = id)) with
          | none => s
          | some e =>
            if e.sent = false ∨ e.atHome = true ∨ homedHere s e.line = false then s
            else issue (setPort s p { x with iwb := updOne (fun q => decide (q.id = id)) (fun q => { q with atHome := true }) x.iwb }) (entryReq s p e))
     ∧ Acts .inboundPieceTaken s
       (if holding s = true then s
        else match s.pcie.inq with
          | q :: _ => if q.going = true then issue s (pieceReq .host 0 (some q.id) q) else s
          | [] => s))

/-- A row that starts an operation writes OP, SCOPE and PRIO of the slot and starts it; ABORT acts on a BUSY slot and REL on a DONE one; the
write is answered. A line performed leaves the front of the slot's list and counts as failed, with the first failure's address kept, or as
done, with the corrected and uncorrected lines of a sweep; the progress registers show it. The sweep gap lets the next line go. From
08_maintenance.md, The MOP engine; 08_maintenance.md, MOP registers; 15_control_interfaces.md, Access paths; 08_maintenance.md, Sweeps for
demand correction. -/
def Obligations.MopStartRows : Prop :=
  (∀ (s : State) (m : Master) (k : Fin 4) (scope : BitVec 3) (prio : Bool), Serves s (R.MOP_S_CMD k) →
     let done := fun (t : State) => emit t (.regDone m (R.MOP_S_CMD k) 0 0)
     (∀ r ∈ [(Instr.mopClean m k scope prio, 0), (.mopInvalidate m k scope prio, 1), (.mopCleanAndInvalidate m k scope prio, 2),
             (.mopPersist m k scope prio, 3), (.mopPreloadLock m k scope prio, 4), (.mopUnlock m k scope prio, 5),
             (.mopZeroLine m k scope prio, 6), (.mopSweep m k scope prio, 7)],
       Acts r.1 s (done (mopStart (setF (setF (setF s (F.MOP_S_CMD_OP k) r.2) (F.MOP_S_CMD_SCOPE k) scope.toNat) (F.MOP_S_CMD_PRIO k) (b2n prio)) k)))
     ∧ (∃ t, OnlyBits s t [] ∧ SameButRegs s t ∧ Acts (.mopAbort m k) s (done
         (if (mopOf s k).phase = 1 then mopCheck (setMop t k { mopOf s k with abort := true }) k else t)))
     ∧ (∃ t, OnlyBits s t [] ∧ SameButRegs s t ∧ Acts (.mopRel m k) s (done
         (if (mopOf s k).phase = 2 then mopShow t k { done := (mopOf s k).done } else t))))
  ∧ (∀ (s : State) (k : Fin 4),
     let m := mopOf s k
     Acts (.mopLinePerformed k) s
       (match m.lag with
        | [] => s
        | (l, c) :: r =>
          let n := if 16 ≤ c then { m with lag := r, failed := bump 0xFFFF m.failed 1, faddr := some (m.faddr.getD l) }
            else { m with lag := r, done := m.done + 1, unc := (if c = 2 then bump 0xFFFF m.unc 1 else m.unc),
                          corr := (if c = 1 then bump 0xFFFFFFFF m.corr 1 else m.corr) }
          push (wr (wr (setMop s k n) (R.MOP_S_PROG_LO k) (BitVec.ofNat 32 n.done)) (R.MOP_S_PROG_HI k) (BitVec.ofNat 32 (n.done >>> 32 % 256))) (.mop k))
     ∧ Acts (.sweepGapExpiry k) s (push (setMop s k { m with gapOk := true }) (.mop k)))

/-- A START on a slot that is FREE: the slot's SEQ is the number MOP_SEQ held, MOP_SEQ takes the next one, and a command that R157 refuses
is DONE at once with STATUS 2 and its cause, where one that it accepts is BUSY with the operation, scope, address and count of the slot's
registers. From 08_maintenance.md, The MOP engine; 08_maintenance.md, MOP registers. -/
def Obligations.MopStartAccepted : Prop :=
  ∀ (s : State) (k : Fin 4), (mopOf s k).phase = 0 →
    let u := mopStart s k
    let cause := mopRefusal s (getF s (F.MOP_S_CMD_OP k)) (getF s (F.MOP_S_CMD_SCOPE k)) (mopOf u k).addr (getF s (F.MOP_S_COUNT_LO_COUNT k) + getF s (F.MOP_S_COUNT_HI_COUNT k) <<< 32) (getF s (F.MOP_S_SEL_SLICE k))
    (mopOf u k).seq = getF s F.MOP_SEQ_NEXT ∧ (mopOf u k).op = getF s (F.MOP_S_CMD_OP k) ∧ (mopOf u k).scope = getF s (F.MOP_S_CMD_SCOPE k)
    ∧ (cause = 0 → (mopOf u k).phase = 1 ∧ (mopOf u k).abort = false)
    ∧ (cause ≠ 0 → (mopOf u k).phase = 2 ∧ (mopOf u k).status = 2 ∧ (mopOf u k).cause = cause)
    ∧ (∀ j, j < 4 → j ≠ k.val → mopOf u j = mopOf s j) ∧ u.slices = s.slices ∧ u.dram = s.dram ∧ u.cis = s.cis

/-- Chiso repairs a candidate as REPAIR mode says, by a fuse spare of which each bank has 6, by a remap entry, or by both; SLC_RMAP takes a
way out of service or gives it back, and its cleaning ends the wait; CST_RMDAT writes the entry CST_RMIDX names, and its copy ends with one
line write, metered once; a write of an index register takes its snapshot. From 11_memory_channels_and_ecc.md, Repair of hard faults;
11_memory_channels_and_ecc.md, Remap and repair registers of slices and Cistern dies; 04_slice.md, SLC registers; 09_cistern_persistence.md,
CST registers. -/
def Obligations.RepairRows : Prop :=
  ∀ (s : State) (loc : RepairLoc) (m : Master) (n : Fin 32) (k : Fin 8) (die : Fin 2) (entry : Fin 64) (w : Word),
    let reg := fun (off : Nat) (t : State) => emit t (.regDone m off 0 0)
    let spare := fun (t : State) =>
      if t.journal.fuses.contains loc = true then (t, true)
      else if 6 ≤ (t.journal.fuses.filter (fun l => decide (bankOf l = bankOf loc))).length then (t, false)
      else (journalNote { t with journal := { t.journal with fuses := t.journal.fuses ++ [loc] } } [.fuse loc], true)
    let gone := fun (t : State) => post t 0x0406 (locOf loc).2 (leBytes 4 (locOf loc).1)
    let r := mapRepair s loc
    Acts (.repairAction loc) s
      (if chisoRuns s = false then s
       else if repairMode s loc = 1 then (if (spare s).2 = true then (spare s).1 else gone s)
       else if repairMode s loc = 2 then (if r.2 = true then r.1 else gone r.1)
       else if r.2 = true ∨ (spare r.1).2 = true then (spare r.1).1
       else gone r.1)
    ∧ (Serves s (R.SLC_RMAP n k) → Acts (.slcRmapWrite m n k w) s (reg (R.SLC_RMAP n k) (rmapWrite s n k w)))
    ∧ Acts (.wayRemapDone n k) s
      (if holding s = true ∨ sliceUp s n = false then s else rmapDone s n k)
    ∧ (Serves s R.CST_RMDAT → Acts (.cstRmdatWrite m w) s (reg R.CST_RMDAT (rmSet s (getF s F.CST_RMIDX_DIE * 64 + getF s F.CST_RMIDX_ENTRY) w)))
    ∧ Acts (.cisternRemapCopyDone die entry) s
      (if holding s = true ∨ cisUp s = false then s
       else match nget s.cis.remaps (die * 64 + entry) with
         | some r => if r.pend = false ∨ s.cis.queue.any (fun g => decide (g.kind = .remap (die * 64 + entry))) = true then s
             else meter s { prio := 3, kind := .remap (die * 64 + entry) }
         | none => s)
    ∧ (Serves s R.CST_RMIDX → Acts (.cstRmidxWrite m w) s (reg R.CST_RMIDX (putReg s R.CST_RMIDX w)))
    ∧ (Serves s R.CST_RIDX → let t := putReg s R.CST_RIDX w
        Acts (.cstRidxWrite m w) s (reg R.CST_RIDX (regionSnap t (getF t F.CST_RIDX_PREG))))
    ∧ (Serves s (R.SLC_DBG_IDX n) → let t := putReg s (R.SLC_DBG_IDX n) w
        Acts (.slcDbgIdxWrite m n w) s (reg (R.SLC_DBG_IDX n) (debugSnap t n (getF t (F.SLC_DBG_IDX_SET n)) (getF t (F.SLC_DBG_IDX_WAY n)))))

/-- A gap move owed, the wear comparison, the copy and the new map of a region move, an admitted write, a checkpoint's start, release and
confirmations, and a journal copy's confirmation act while the dies serve, and the units of the switched domains outside CLOCK-HOLD. A
confirmed record of a region's map switches the region to the new one; copy B of the journal is written once copy A is confirmed, and its
confirmation ends the write. From 09_cistern_persistence.md, Wear levelling; 09_cistern_persistence.md, Wear governor;
09_cistern_persistence.md, Checkpoints; 09_cistern_persistence.md, Settings store. -/
def Obligations.WearRows : Prop :=
  ∀ (s : State) (p : BitVec 8) (die : Fin 2) (m : Master),
    let run := fun (t : State) => if holding s = true then s else t
    let dies := fun (t : State) => if holding s = true ∨ cisUp s = false then s else t
    let g := regionOf s p.toNat
    Acts (.gapMove p) s (run (if g.owed = 0 ∨ gated s = true ∨ cisUp s = false then s
      else meter { s with cis := { s.cis with regions := nset s.cis.regions p.toNat { g with owed := g.owed - 1 } } } { prio := 6, kind := .gap p.toNat }))
    ∧ Acts .wearCompare s (run (wearCompare s))
    ∧ Acts (.regionCopyDone die) s (run
      (match nget s.cis.moves die with
       | none => s
       | some v => if v.copied = true ∨ quiet s = true ∨ gated s = true ∨ cisUp s = false ∨ s.cis.queue.any (fun g => decide (g.kind = .region die)) = true then s
         else meter s { prio := 6, kind := .region die, left := 16384 - v.next }))
    ∧ Acts (.regionMapConfirmed die) s (dies
      (match nget s.cis.moves die with
       | none => s
       | some q =>
         if q.recorded = false then s
         else
           let map := nset s.cis.map (logicalOf s q.src) q.dst
           setF (wearPut { s with cis := { s.cis with map := map, moves := nerase s.cis.moves die } } map)
             (if die.val = 0 then F.CST_STAT_MOVE_A else F.CST_STAT_MOVE_B) 0))
    ∧ Acts .governorAdmit s (dies (governorAdmit s))
    ∧ (Serves s R.PMP_CKPT → Acts (.checkpointGo m) s (emit (ckptStart (putReg s R.PMP_CKPT 1)) (.regDone m R.PMP_CKPT 0 0)))
    ∧ (Serves s R.PMP_CKPT → Acts (.checkpointRel m) s (emit (ckptRel (putReg s R.PMP_CKPT 2)) (.regDone m R.PMP_CKPT 0 0)))
    ∧ Acts .checkpointWritesConfirmed s (dies (ckptWritten s))
    ∧ Acts .checkpointRecordConfirmed s (dies
      (if s.ckpt.phase = 1 ∧ s.ckpt.record = true then
        ckptShow (snapPut (confPut (wearPut s s.cis.map))) { s.ckpt with phase := 2, status := 0, record := false }
       else s))
    ∧ Acts .settingsRecordConfirmed s (dies
      (match s.journal.jobs with
       | [] => s
       | j :: rest =>
         if chisoRuns s = false ∨ s.journal.waiting = false then s
         else if s.journal.stage = 1 then
           meter { s with journal := { s.journal with stage := 2, waiting := false } }
             { prio := 3, kind := .settings 2, left := j.lines,
               place := some (storeRegion 2 s.journal.copyB j.snap * 16384 + (if j.snap = true then 0 else s.journal.copyB.used)) }
         else journalTend (if j.answer = true then dictDone (journalDone s j rest) 0 [] else journalDone s j rest)))

/-- The comparators, the rail monitors, the peers' sag, PWRGD_IN and the recovery of the supply start a drain, a reset or a start as the
rules name them; a monitor that reads low when PWRGD_IN rises makes the start wait. From 10_power_loss_and_warm_start.md, Sag detection;
10_power_loss_and_warm_start.md, The drain; 10_power_loss_and_warm_start.md, Buffered stores at exceptions and resets; 19_register_index.md,
Reset summary. -/
def Obligations.SupplyRows : Prop :=
  ∀ (s : State) (k : Fin 8) (w : Bool) (dev : BitVec 2),
    Acts .warnTrip s (warn (setF { s with supply := { s.supply with warn := true } } F.PMP_DRN_STAT_WARN 1) 1)
    ∧ Acts .resetTrip s (resetNow { s with supply := { s.supply with rst := true } })
    ∧ Acts (.sagComparatorClear w) s (startIf (sagClear s w))
    ∧ Acts (.railMonitorTrip k) s (if k.val ≠ 1 ∧ k.val ≠ 2 ∧ (railDomains k).any (fun d => decide (d = 0) || pdOn s d) = true then warn s 2 else s)
    ∧ Acts (.railBelowMinimum k) s (if (railDomains k).any (fun d => decide (d = 0) || pdOn s d) = true then resetNow s else s)
    ∧ Acts .supplyRecovery s
      (if (s.drain.stage = 6 ∨ s.drain.shedWait = true) ∧ s.supply.warn = false ∧ s.supply.inReset = false then
        startBegin s (if s.drain.stage = 6 ∧ s.drain.reason = 4 then 3 else 2)
       else s)
    ∧ Acts (.pwrgdIn dev) s
      (let t := { s with supply := { s.supply with pwrgd := true, railWait := if s.supply.pwrgd = true then s.supply.railWait else decide (s.supply.low ≠ []) } }
       if s.supply.inReset = true then startIf { t with start := { t.start with devid := dev.toNat } } else t)
    ∧ Acts .pwrgdInDeassert s (resetNow { s with supply := { s.supply with pwrgd := false, railWait := false } })
    ∧ Acts .vrAlert s (post s 0x0808 0x42 [])

/-- AON_POWER_ON completes in every state: every register reads its reset value and every unit is as after reset; the Cistern's lines, map
and regions, the metadata, the two copies of the settings store, the firmware slots and the fuses are as before, a store record that was
being written failing its check. What the commands' trace and the free values' counter hold is the model's (log entries 2 and 14). From
19_register_index.md, Reset summary; 14_power_domains.md, Domains; 09_cistern_persistence.md, Settings store. -/
def Obligations.PowerOnForgets : Prop :=
  (∀ s : State, ∃ u, Machine.exec .aonPowerOn s = .next (settled s u)
    ∧ (∀ o, raw u o = resetWord o ∧ effWord u o = resetWord o)
    ∧ u.slices = [] ∧ u.ports = [] ∧ u.vls = [] ∧ u.chans = [] ∧ u.mops = [] ∧ u.dmas = [] ∧ u.mbxs = [] ∧ u.crcs = [] ∧ u.dram = [] ∧ u.fabric = []
    ∧ u.evq = State.reset.evq ∧ u.clk = State.reset.clk ∧ u.phu = State.reset.phu ∧ u.pcie = State.reset.pcie ∧ u.can = State.reset.can
    ∧ u.fed = State.reset.fed ∧ u.supply = State.reset.supply ∧ u.commit = none ∧ u.mode = none ∧ u.drain = State.reset.drain ∧ u.boots = []
    ∧ u.cis.lines = s.cis.lines ∧ u.cis.map = s.cis.map ∧ u.cis.regions = s.cis.regions ∧ u.cis.moves = s.cis.moves ∧ u.cis.tier = [] ∧ u.cis.queue = []
    ∧ u.mdata = s.mdata ∧ u.fws = s.fws ∧ u.sec.fuses = s.sec.fuses
    ∧ u.journal = { copyA := { (storeTorn s).journal.copyA with spare := none }, copyB := { (storeTorn s).journal.copyB with spare := none } }
    ∧ (s.journal.jobs = [] → (storeTorn s).journal = s.journal))
  ∧ (∀ s : State, ∃ t, Machine.exec .aonPowerOn s = .next t ∧ t.pending = s.pending)

/-- A channel without an access is shed; the wait for the peers' reports ends; scans, segments, passes and the seal follow one another; an
unanswered forward declares its agent dead; entries left after a warm reset's time are discarded. From 10_power_loss_and_warm_start.md, The
drain; 10_power_loss_and_warm_start.md, Hold-up sizing; 10_power_loss_and_warm_start.md, Buffered stores at exceptions and resets. -/
def Obligations.DrainRows : Prop :=
  ∀ (s : State) (c : Fin 4) (n : Fin 32) (p : Fin 6) (tx : BitVec 10),
    let run := fun (t : State) => if holding s = true then s else t
    let dies := fun (t : State) => if holding s = true ∨ cisUp s = false then s else t
    Acts (.channelShed c) s (run
      (if s.drain.stage ≠ 0 ∧ s.drain.stage < 6 ∧ pdOn s (23 + c) = true ∧ chanBusy s c = false then domainOff s (23 + c) else s))
    ∧ Acts .peerReportWaitExpiry s (run (if s.drain.stage = 1 then push { s with drain := { s.drain with stage := 2 } } .drain else s))
    ∧ Acts (.drainScanDone n) s (run (scanDone s n))
    ∧ Acts (.segmentConfirmed n) s (dies
      (if (s.drain.stage ≠ 2 ∧ s.drain.stage ≠ 3) ∨ (slice s n).scanned = false ∨ (slice s n).segment = true then s
       else completeRecord (areaWrite (setSlice s n { slice s n with segment := true }) (((slice s n).manifest.length + 15) / 16)
         (fun a => { a with segments := nset a.segments n (slice s n).manifest }))))
    ∧ Acts (.drainForwardTimeout p tx) s (run (if gated s = true then fwdTimeout s p tx.toNat else s))
    ∧ Acts .drainPassDone s (dies (passDone s))
    ∧ Acts .sealConfirmed s (dies (sealed s))
    ∧ Acts .warmResetEntryTimeout s (run
      (if s.drain.stage ≠ 0 ∧ s.drain.reason = 4 then push ((List.range 6).foldl discardEntries s) .drain else s))

/-- Classification, priming, the settings store, the boot ROM, RUN and its fallback, the release of the agents and the pins act as steps of
a start; a peer's remote list poisons the lines it names; GEN_RST and ACCEPT are served as register writes. From
10_power_loss_and_warm_start.md, Restart classification; 10_power_loss_and_warm_start.md, Priming and the boot window;
10_power_loss_and_warm_start.md, PMP drain and restart registers; 18_startup_and_federation.md, Starting one device;
17_security_and_check_values.md, Verification by the boot ROM. -/
def Obligations.RestartRows : Prop :=
  ∀ (s : State) (m : Master) (w : Word) (l : LineAddr) (d : Fin 4) (p : Fin 6),
    let reg := fun (off : Nat) (t : State) => emit t (.regDone m off 0 0)
    Acts .restartClassificationDone s (classify s)
    ∧ Acts .primingDone s
      (if s.start.profile = false ∨ s.start.primeQ ≠ [] ∨ s.start.primeOut ≠ 0 ∨ isF s F.FED_SSTAT_PRIME = true ∨ gated s = true then s
       else
         let t := setF (setF s F.FED_SSTAT_PRIME 1) F.PMP_RST_STAT_PRIMED 1
         push (push (if pumpState t = 4 then setF t F.PMP_DRN_STAT_STATE 0 else t) .start) .fed)
    ∧ Acts (.remoteListDelivery d l) s
      (if holding s = true then s
       else if ownPmem s l = true ∧ s.start.classified = true ∧ sliceUp s (homeOf s l) = true then
         let t := poisonNow s (homeOf s l) l 8 d 0xFF
         setF t F.PMP_RST_POIS_POISONED (bump 0xFFFFFFFF (getF t F.PMP_RST_POIS_POISONED) 1)
       else s)
    ∧ Acts .settingsStoreReadDone s (settingsRead s)
    ∧ Acts .bootRomVerifyDone s (romVerified s)
    ∧ Acts .chisoRun s (chisoRun s)
    ∧ Acts .mcuFallback s
      (if getF s F.PMU_MCU_STATE = 3 ∧ s.mcu.restart = true then romBegin (post (setF (mcuCount s) F.PMU_MCU_FALLBK 1) 0x0505 0x42 []) 3 else s)
    ∧ Acts .agentRelease s (agentRelease s)
    ∧ Acts (.arstDriveDelay p) s (push { s with start := { s.start with cooling := s.start.cooling.filter (fun q => decide (q ≠ p.val)) } } .start)
    ∧ (Serves s R.GEN_RST → Acts (.warmReset m w) s (reg R.GEN_RST (warmReset s w)))
    ∧ (Serves s R.PMP_DRN_CTL → Acts (.suspectAccept m w) s (reg R.PMP_DRN_CTL (acceptSuspect (putReg s R.PMP_DRN_CTL (w ||| 1)))))
    ∧ (Serves s R.PMU_MCU → Acts (.mcuRestart m) s (reg R.PMU_MCU
        (let t := putReg s R.PMU_MCU 1
         if pumpState t ≠ 0 ∨ getF t F.PMU_MCU_STATE ≠ 2 ∨ cryptoUp t = false then t else romBegin (mcuCount t) 3)))
    ∧ (Serves s R.FED_ARST → Acts (.fedArstHoldWrite m w) s (reg R.FED_ARST (push (putReg s R.FED_ARST w) .start)))

/-- A refresh changes nothing that is stored; a parity alert sets its flag, and where the retries fail ends the accesses in flight to the
rank and subchannel; training ends READY with its capacity and marks, the values it gave being recorded where they are new, or FAILED; a
leak lowers the buckets that are not empty; marks and the counter index are written. From 11_memory_channels_and_ecc.md, Supported DDR5
configurations; 11_memory_channels_and_ecc.md, Device marking and sparing; 11_memory_channels_and_ecc.md, MCH registers. -/
def Obligations.ChannelRows : Prop :=
  ∀ (s : State) (c : Fin 4) (sub : BitVec 1) (rank : BitVec 2) (ok : Bool) (m : Master) (k : Fin 8) (w : Word),
    let at' := fun (t : State) => if holding s = true ∨ chanUp s c = false then s else t
    let spent := { chan s c with leaky := (chan s c).leaky.filterMap (fun e => if e.2 ≤ 1 then none else some (e.1, e.2 - 1)) }
    Acts (.refresh c) s s
    ∧ Acts (.caParityAlert c sub rank true) s (at' (setF s (F.MCH_ERR_CAPAR c) 1))
    ∧ Acts (.caParityAlert c sub rank ok) s (at' (caParity s c sub.toNat rank.toNat ok))
    ∧ Acts (.channelTrainingDone c ok) s (at'
      (if getF s (F.MCH_STAT_STATE c) ≠ 1 then s
       else if ok = false then setF s (F.MCH_STAT_STATE c) 3
       else
         let t := setF (setF s (F.MCH_STAT_STATE c) 2) (F.MCH_STAT_CAP c) (channelGiB s c)
         let v := setChan t c { chan t c with trained := some (effWord t (R.MCH_CFG c)) }
         (List.range 8).foldl (fun s i => match nget s.journal.marks (8 * c.val + i) with
           | some d => setF (setF s (F.MCH_MARK_DEV c i) d) (F.MCH_MARK_VALID c i) 1
           | none => s) (if nget (lastConf v).trained c = some (effWord t (R.MCH_CFG c)) then v else configRecord v)))
    ∧ Acts (.markLeak c) s (at' (setChan s c spent))
    ∧ (Serves s (R.MCH_MARK c k) → Acts (.mchMarkWrite m c k w) s (emit (markWrite s c k w) (.regDone m (R.MCH_MARK c k) 0 0)))
    ∧ (Serves s (R.MCH_CIDX c) → Acts (.mchCidxWrite m c w) s (emit (cidxSnap (putReg s (R.MCH_CIDX c) w) c w) (.regDone m (R.MCH_CIDX c) 0 0)))

/-- An accepted edge is a boundary in PULSE mode with the polarity POL, a line edge or a restart of the line count in LINE mode, an index in
QUAD mode; counts and coasted boundaries move the phase; a slot acts where it is armed, has the action and is due; the quiet window closes
at its longest; an apply boundary without a slot falls where FALLBACK reads 1. From 12_phase_unit.md, Inputs; 12_phase_unit.md, Period and
phase; 12_phase_unit.md, Event slots; 12_phase_unit.md, Quiet windows; 12_phase_unit.md, Apply boundaries. -/
def Obligations.PhaseRows : Prop :=
  ∀ (s : State) (rising : Bool) (q : Quad) (k : Fin 32),
    let off := phuState s = 0
    let due := fun (act : Nat) => if phuFires s = true ∧ s.phu.armed.contains k.val = true ∧ effF s (F.PHU_SLOT_ACT k) = act
        ∧ effF s (F.PHU_SLOT_POS k) ≤ s.phu.frac.toNat ∧ (phuState s ≠ 2 ∨ phuMode s ≠ 1 ∨ s.phu.passed.contains k.val = true) then fireSlot s k else s
    Acts (.phaseAEdge rising) s
      (if off then s
       else if phuMode s = 0 then (if rising = decide (effF s F.PHU_CTL_POL = 0) then timedBoundary s else s)
       else if phuMode s = 2 ∧ rising = true then lineEdge s else s)
    ∧ Acts (.phaseZEdge rising) s
      (if off ∨ rising = false then s
       else if phuMode s = 1 then quadZ s
       else if phuMode s = 2 ∧ effF s F.PHU_CTL_ZEN = 1 then timedBoundary s else s)
    ∧ Acts (.quadCount q) s
      (if phuMode s ≠ 1 ∨ off then s
       else match q with
         | .illegal => setF { s with phu := { s.phu with ivals := 0, started := false } } F.PHU_ERR_QILL 1
         | .forward =>
           let t := quadFrac (setF { s with phu := { s.phu with q := if cpr s ≤ s.phu.q + 1 then 0 else s.phu.q + 1 } } F.PHU_STAT_REV 0)
           if cpr s ≤ s.phu.q + 1 then quadMiss (quadPass s t) else quadPass s t
         | .reverse => quadFrac (setF { s with phu := { s.phu with q := if s.phu.q = 0 then cpr s - 1 else s.phu.q - 1 } } F.PHU_STAT_REV 1))
    ∧ Acts .coastedBoundary s (coastedBoundary s)
    ∧ Acts .quadNoEdgeTimeout s (if phuMode s = 1 then quadMiss s else s)
    ∧ Acts (.openQuietWindow k) s (due 1) ∧ Acts (.closeQuietWindow k) s (due 2) ∧ Acts (.applyBoundary (some k)) s (due 3)
    ∧ Acts (.slotCheckpoint k) s (due 4) ∧ Acts (.measurementSnapshot k) s (due 5) ∧ Acts (.raiseEvent k) s (due 6)
    ∧ Acts .quietWindowMax s (if quiet s = true then closeQuiet (setF s F.PHU_ERR_QW_OVR 1) else s)
    ∧ Acts (.applyBoundary none) s (if fallback s = true then applyBoundary s else s)

/-- The oscillators become ready, ROOT and SPLL lock, the reference changes, the dividers ramp, the monitors trip with their records, and
HOLD ends, each in the clock states and conditions that the rules name. From 13_clocks.md, Sources and the ROOT PLL; 13_clocks.md, Clock
states; 13_clocks.md, Monitors and the fallback chain. -/
def Obligations.ClockRows : Prop :=
  ∀ (s : State),
    let st := getF s F.CLK_STAT_CST
    let ready := isF s F.CLK_STAT_TRO_RDY
    Acts .troReady s
      (if s.supply.inReset = true ∨ ready = true ∨ 3 ≤ s.clk.troTries then s
       else
         let t := setF s F.CLK_STAT_TRO_RDY 1
         if st = 0 then push (setMsrc (setF t F.CLK_STAT_CST 1) 1) .start
         else if st = 1 ∨ st = 4 then setMsrc t 1 else t)
    ∧ Acts .xtalReady s
      (if s.supply.inReset = true ∨ effF s F.CLK_CFG_XTAL_EN = 0 ∨ ready = false then s
       else setF { s with clk := { s.clk with xtalGood := true } } F.CLK_STAT_XTAL_RDY 1)
    ∧ Acts .xtalTimeout s
      (if s.supply.inReset = true ∨ isF s F.CLK_STAT_XTAL_RDY = true ∨ isF s F.CLK_STAT_ROOT_LK = true ∨ s.clk.onTro = true ∨ st = 4 then s
       else post (setF { s with clk := { s.clk with onTro := true } } F.CLK_ERR_XNS 1) 0x0502 0x41 [])
    ∧ Acts .rootLock s
      (if st = 1 ∧ (s.clk.onTro = true ∨ isF s F.CLK_STAT_XTAL_RDY = true) then
         let t := setF (setF (setF s F.CLK_STAT_ROOT_LK 1) F.CLK_STAT_RREF (b2n s.clk.onTro)) F.CLK_STAT_CST 2
         push (setClk (setMsrc t 2) { s.clk with ramp := [30, 20, 15, 12, 10] }) .start
       else s)
    ∧ Acts .spllLock s (if st = 2 ∧ isF s F.CLK_STAT_ROOT_LK = true then trySvc (setF s F.CLK_STAT_SPLL_LK 1) else s)
    ∧ Acts .referenceChange s
      (if isF s F.CLK_STAT_PEND = true ∧ isF s (if effF s F.CLK_SRC_RREF = 0 then F.CLK_STAT_XTAL_RDY else F.CLK_STAT_TRO_RDY) = true ∧ (st = 2 ∨ st = 3) then
         setF (setF s F.CLK_STAT_PEND 0) F.CLK_STAT_RREF (effF s F.CLK_SRC_RREF)
       else s)
    ∧ Acts .rampDwell s (match s.clk.ramp with
       | [] => s
       | _ :: r => trySvc (setClk s { s.clk with ramp := r }))
    ∧ Acts .xmonTrip s
      (let t := post (setF s F.CLK_ERR_XMON 1) 0x0500 0x41 (b1 0 ++ b1 st)
       let u := setF { t with clk := { t.clk with xtalGood := false } } F.CLK_STAT_XTAL_RDY 0
       if clocksRun u = true ∧ (getF u F.CLK_STAT_RREF = 0 ∨ clkBusy u = true) then enterHold u else u)
    ∧ Acts .tmonTrip s (tmonTrip s) ∧ Acts .rmonTrip s (rmonTrip s)
    ∧ Acts .troRestartTimeout s
      (if ready = false ∧ s.clk.troTries = 1 ∧ s.supply.inReset = false then { s with clk := { s.clk with troTries := 2 } } else s)
    ∧ Acts .holdEnd s (if st = 4 ∧ ready = true then leaveHold s (!s.clk.xtalGood) else s)
    ∧ Acts .troFailedHoldEnd s
      (if st = 4 ∧ ready = false ∧ s.clk.troTries = 2 ∧ s.clk.xtalGood = true then
         let t := leaveHold s false
         post { t with clk := { t.clk with troTries := 3 } } 0x0508 0x41 (leBytes 4 (getF t F.CLK_HOLD_T_LAST))
       else s)

/-- A trim starts and its passes end or time out; VCORE is reached or times out with the record 0x0503; M steps; the thermal limit steps;
sensors and rails are sampled. From 13_clocks.md, Sources and the ROOT PLL; 13_clocks.md, DVFS. -/
def Obligations.TrimAndDvfsRows : Prop :=
  ∀ (s : State) (m : Master) (q : TrimPass) (w : Sensor) (t : BitVec 12) (k : Fin 8) (mv : BitVec 14),
    let c := s.clk
    (Serves s R.CLK_TRIM → Acts (.trimGo m) s (emit (trimStart (putReg s R.CLK_TRIM (raw s R.CLK_TRIM ||| 0x4000))) (.regDone m R.CLK_TRIM 0 0)))
    ∧ Acts .trimAutoInterval s (if isF s F.CLK_TRIM_AUTO = true then trimStart s else s)
    ∧ Acts (.trimPassDone q) s (push (trimPassEnd s q) .start)
    ∧ Acts .trimPassTimeout s (if isF s F.CLK_TRIM_STAT_BUSY = true then trimFail s else s)
    ∧ Acts .vcoreReached s
      (if c.moving = true ∧ c.volt = true then
         setClk s (if c.stopped = true then { c with moving := false, volt := false } else { c with volt := false, m := c.m + 1 })
       else s)
    ∧ Acts .voltageTimeout s
      (if c.moving = true ∧ c.volt = true then
         post (setF (setClk s { c with moving := false, volt := false }) F.CLK_ERR_VTO 1) 0x0503 0x41 (b1 c.goal)
       else s)
    ∧ Acts .dvfsMStep s (dvfsMStep s)
    ∧ Acts .thermalStep s
      (if isF s F.CLK_STAT_THERM = true then dvfsTry { s with clk := { c with limit := pointOf c.m - 1 } }
       else if c.limit < 5 then dvfsTry { s with clk := { c with limit := c.limit + 1 } } else s)
    ∧ Acts (.sensorSample w t) s (sensorSample s w t)
    ∧ Acts (.railSample k mv) s
      (let rest := s.supply.low.filter (fun j => decide (j ≠ k.val))
       let low := if mv.toNat < (if k.val = 0 ∨ k.val = 7 then s.clk.vcore - 50 else [0, 740, 1660, 1020, 790, 1110, 930].getD k.val 0) then rest ++ [k.val] else rest
       let t := setF { s with supply := { s.supply with low := low } } (F.MSR_RAIL_MV k) mv.toNat
       if s.supply.railWait = true ∧ low = [] then push t .start else t)

/-- A strobe of CFG_COMMIT starts a commit of its mask, or sets COLL while one runs; an acknowledgement and the end of the window act on the
mode change; an on-sequence or off-sequence that is the first ends, the former with clocks. From 15_control_interfaces.md, Apply classes;
15_control_interfaces.md, Global mode change; 14_power_domains.md, Switching; 13_clocks.md, Clock enables and gated blocks. -/
def Obligations.ConfigRows : Prop :=
  ∀ (s : State) (m : Master) (mask : Word) (who : Participant) (d : Fin 30),
    (Serves s R.CFG_COMMIT → Acts (.commit m mask) s (emit (if s.commit.isSome = true then setF s F.CFG_COMMIT_STAT_COLL 1 else commitStart s mask) (.regDone m R.CFG_COMMIT 0 0)))
    ∧ Acts (.modeChangeAck who) s (modeAck s who) ∧ Acts .modeChangeTimeout s (abortMode s 1)
    ∧ Acts (.domainOnDone d) s
      (match s.seqs with
       | (k, true) :: rest => if k = d.val + 1 ∧ clocksRun s = true then push (showBusy (domainOn { s with seqs := rest } (d.val + 1))) .commit else s
       | _ => s)
    ∧ Acts (.domainOffDone d) s
      (match s.seqs with
       | (k, false) :: rest => if k = d.val + 1 then push (showBusy (domainOff { s with seqs := rest } (d.val + 1))) .commit else s
       | _ => s)

/-- CSR_WRITE at an offset that is not aligned ends with cause 4 and reaches no register. CSR_WRITE of a register that the root serves acts
as the register's write does and is answered; one of a block that is off, gated or absent ends with cause 6, recorded, and logged as a
completer abort for the host; the oldest access that waits ends with cause 8 when its time passes. An access to CFG_IND_k_DATA reads or
writes the register of this device that the pair's address names, with the address advanced by one where INC is set; toward a device that is
not present it ends with cause 2, recorded at the data register's own address. From 15_control_interfaces.md, Access paths;
02_address_map.md, Failed accesses; 15_control_interfaces.md, CFG registers. -/
def Obligations.RegisterRows : Prop :=
  (∀ (s : State) (m : Master) (off : BitVec 24) (w : Word),
     (off.toNat % 4 ≠ 0 → Acts (.csrWrite m off w) s (emit (if m = .host then aer (pciErr s F.PCI_ERR_CA) 1 else s) (.regDone m off.toNat 0 4)))
     ∧ (off.toNat % 4 = 0 → indPair off.toNat = none → Serves s off.toNat →
       Acts (.csrWrite m off w) s (emit (regWrite s off.toNat w) (.regDone m off.toNat 0 0)))
     ∧ (off.toNat % 4 = 0 → indPair off.toNat = none → s.csrWaits = [] → s.indOut = none → ((place off.toNat).isNone = true ∨ blockUp s off.toNat = false) →
       let t := failAccess s (0x3FFE00000000 + self s * 0x1000000 + off.toNat) 6 (masterIx m)
       Acts (.csrWrite m off w) s (emit (if m = .host then aer (pciErr t F.PCI_ERR_CA) 1 else t) (.regDone m off.toNat 0 6)))
     ∧ Acts .csrTimeout s
       (match s.indOut with
        | some a => csrTend (csrLate { s with indOut := none } a)
        | none => match s.csrWaits with
          | [] => s
          | a :: rest => csrTend (csrLate { s with csrWaits := rest } a)))
  ∧ (∀ (s : State) (m : Master) (k : Fin 4) (w : Word),
     let data := R.CFG_IND_DATA k
     let off := getF s (F.CFG_IND_ADDR_OFF k) * 4
     let dev := getF s (F.CFG_IND_ADDR_DEV k)
     s.csrWaits = [] → s.indOut = none → indPair off = none →
     (dev = self s → present s dev = true → Serves s off → off ≠ R.EVQ_POP →
       Acts (.indDataRead m k) s (emit (indAdvance (noteRead s m off) data) (.regDone m data (BitVec.ofNat 64 (readReg s m off).toNat) 0))
       ∧ Acts (.indDataWrite m k w) s (emit (indAdvance (regWrite s off w) data) (.regDone m data 0 0)))
     ∧ (present s dev = false →
       let t := failAccess s (0x3FFE00000000 + self s * 0x1000000 + data) 2 (masterIx m)
       let u := emit (if m = .host then aer (pciErr t F.PCI_ERR_CA) 1 else t) (.regDone m data 0 2)
       Acts (.indDataRead m k) s u ∧ Acts (.indDataWrite m k w) s u))

/-- A pop takes the oldest record into its master's latch and returns its first word; at an empty queue it returns the empty token and a
latch of zeros where STALL is 0, and waits otherwise; when STALL passes, the oldest waiting pop of the master returns the token. From
15_control_interfaces.md, Event queue; 15_control_interfaces.md, EVQ registers. -/
def Obligations.PopRows : Prop :=
  ∀ (s : State) (m : Master),
    let here : CsrAcc := { m := m, off := R.EVQ_POP }
    (Serves s R.EVQ_POP → Acts (.evqPop m) s
      (match s.evq.recs with
       | r :: rest => emit (popNow s m r rest) (.regDone m R.EVQ_POP (BitVec.ofNat 64 (r.headD 0).toNat) 0)
       | [] =>
         if getF s F.EVQ_CFG_STALL = 0 then
           emit { s with evq := { s.evq with latches := nset s.evq.latches (masterIx m) (List.replicate 8 0) } } (.regDone m R.EVQ_POP 0x80000000 0)
         else { s with evq := { s.evq with waiters := s.evq.waiters ++ [here] } }))
    ∧ Acts (.evqPopStall m) s
      (match s.evq.waiters.find? (fun a => decide (a.m = m)) with
       | none => s
       | some a =>
         let t : State := { s with evq := { s.evq with waiters := dropOne (fun b => decide (b.m = m)) s.evq.waiters } }
         csrAnswered (popEmpty t m) a 0x80000000)

/-- Reads and writes of the windows, unmasked vectors, configuration writes, lost completions and the three resets of the function act while
the link and the domain are up; in D3hot, or past the end of the window, a transaction is unsupported, the pieces of a posted write enter
the queue as it has room, a poisoned or badly sized BAR0 write is logged, and after WARN a read ends in completer abort and a posted write
is discarded. With the link up and the endpoint's clock off a read ends in completer abort. From 16_host_and_network.md, PCI Express
endpoint; 15_control_interfaces.md, Interrupts; 19_register_index.md, Reset summary. -/
def Obligations.HostRows : Prop :=
  ∀ (s : State) (off : BitVec 24) (o2 : BitVec 28) (o4 : BitVec 14) (len tag : Nat) (bytes : List Byte) (b2 : List (Option Byte)) (ep th : Bool)
      (st : BitVec 8) (w : Word) (v : Fin 64) (c : CfgWrite),
    let up := fun (t : State) => if pcieUp s = false then s else t
    let live := fun (tg : Option Nat) (t : State) => up (if s.pcie.d3hot = true then unsupported s tg else t)
    let read := fun (t : State) => if pcieUp s = false then (if pcieLink s = true then emit s (.completion tag false false []) else s)
      else if s.pcie.d3hot = true then unsupported s (some tag) else t
    let held := fun (q : NonPosted) => { s with pcie := { s.pcie with np := s.pcie.np ++ [{ q with no := s.pcie.npNext }], npNext := s.pcie.npNext + 1 } }
    let fails := fun (t : State) => npDone t s.pcie.npNext (fun q => { q with failed := true })
    Acts (.msixUnmask v) s (up (msixFlush { s with pcie := { s.pcie with
      table := nset s.pcie.table (4 * v.val + 3) (clrBit ((nget s.pcie.table (4 * v.val + 3)).getD 1) 0) } }))
    ∧ (Acts (.bar0Read off len tag) s (read
      (let t := held { tag := tag, csr := true, off := off.toNat, len := len }
       if gated s = true ∨ csrSizeOk off.toNat len = false then fails t else push t .inq)))
    ∧ (Acts (.bar0Write off bytes ep) s (live none
      (if ep = true then aer (pciErr s F.PCI_ERR_POIS_RX) 0
       else if csrSizeOk off.toNat bytes.length = false then aer (pciErr s F.PCI_ERR_CA) 1
       else push s (.csr { m := .host, off := off.toNat, len := bytes.length, wr := true, w := BitVec.ofNat 64 (ofLe bytes) }))))
    ∧ (Acts (.bar2Read o2 len tag) s (read
      (if 0x10000000 < o2.toNat + len then unsupported s (some tag) else
       let t := held { tag := tag, csr := false, off := o2.toNat, len := len, before := s.pcie.inNext, left := barLines s o2.toNat len }
       if gated s = true then fails t else push t .inq)))
    ∧ (Acts (.bar2Write o2 b2 ep th st) s (live none
      (if 0x10000000 < o2.toNat + b2.length then unsupported s none
       else if gated s = true then { s with pcie := { s.pcie with discarded := s.pcie.discarded + 1 } }
       else
         let stash := if th = true ∧ effF s F.PCI_CTL_TPH_EN = 1 then steer st else none
         let t := if ep = true then aer (pciErr s F.PCI_ERR_POIS_RX) 0 else s
         push (inqRoom (piecesIn t (piecesOf (0x3F0000000000 + self s * 0x10000000 + o2.toNat) b2 ep stash))) .inq)))
    ∧ (Acts (.bar4Write o4 w) s (live none
      (if o4.toNat < 0x400 then msixFlush { s with pcie := { s.pcie with table := nset s.pcie.table (o4.toNat / 4) w } } else s)))
    ∧ Acts (.pcieCompletionTimeout tag) s
      (match s.pcie.np.find? (fun q => decide (q.tag = tag) && !q.ready) with
       | some q => npDone (pciErr s F.PCI_ERR_CTO) q.no (fun y => { y with failed := true })
       | none => s)
    ∧ (∀ r ∈ [(Instr.functionLevelReset, true), (.hotReset, false), (.pciePerst, false)],
      Acts r.1 s (if blockUp s 0xC0000 = false then s else push (pcieReset (dmaAbort (dmaAbort s 0 r.2) 1 r.2)) .inq))
    ∧ Acts (.pcieConfigWrite c) s (up
      (push (msixFlush { s with pcie := { s.pcie with bme := c.bme, d3hot := c.d3hot, msixEn := c.msixEn, aer := s.pcie.aer &&& ~~~c.aerClr } }) .inq))

/-- TAIL, EN and ABORT are served as register writes, the channel going on after each; a host completion, a read without one and the end of
a descriptor act on the channel's descriptor. From 16_host_and_network.md, DMA channels; 16_host_and_network.md, PCI and CAN registers. -/
def Obligations.DmaRows : Prop :=
  ∀ (s : State) (m : Master) (c : Fin 2) (w : Word) (off : Nat) (bytes : List Byte) (ep ok : Bool),
    let ctl := R.PCI_DMA_CTL c
    let en := fun (t : State) => if getF t (F.PCI_DMA_STAT_STATE c) = 2 then setF t (F.PCI_DMA_STAT_STATE c) 0 else t
    (Serves s (R.PCI_DMA_TAIL c) → Acts (.dmaTailWrite m c w) s (emit (push (putReg s (R.PCI_DMA_TAIL c) w) (.dma c)) (.regDone m (R.PCI_DMA_TAIL c) 0 0)))
    ∧ (Serves s ctl → Acts (.dmaEnable m c) s (emit (push (en (setF s (F.PCI_DMA_CTL_EN c) 1)) (.dma c)) (.regDone m ctl 0 0)))
    ∧ (Serves s ctl → let t := dmaAbort (setF s (F.PCI_DMA_CTL_EN c) (getF s (F.PCI_DMA_CTL_EN c))) c true
        Acts (.dmaAbort m c) s (emit (push (if getF s (F.PCI_DMA_CTL_EN c) = 1 then en t else t) (.dma c)) (.regDone m ctl 0 0)))
    ∧ Acts (.dmaHostCompletion c off bytes ep ok) s (hostCompletion s c off bytes ep ok)
    ∧ Acts (.dmaDescriptorDone c) s
      (let d := dmaOf s c
       if holding s = true then s
       else if d.phase = 2 ∧ d.reads = [] ∧ d.lines = [] ∧ (d.status ≠ 0 ∨ (d.todo = [] ∧ d.len ≤ d.next)) then
         dmaEnd s c (if d.status ≠ 0 then d.status else if d.poison then 3 else 0) (pcieUp s && !s.pcie.d3hot)
       else s)
    ∧ Acts (.dmaCompletionTimeout c) s
      (let d := dmaOf s c
       if d.reads = [] then s else setDma s c { d with phase := 2, reads := [], status := if d.status = 0 then 2 else d.status })

/-- A row that is itself a dictionary request reads or writes the entry that the rules name, served at once where no request waits, and
joins the queue otherwise; the request at the front is served. A write of MBX_CMD with START and a write of MBX_CTL with REL act on the
mailbox they name, and the write is answered. From 16_host_and_network.md, The object dictionary; 17_security_and_check_values.md,
Dictionary entries; 17_security_and_check_values.md, Boot image slots; 17_security_and_check_values.md, Rollback counter;
17_security_and_check_values.md, Attestation; 16_host_and_network.md, Mailboxes; 16_host_and_network.md, PCI and CAN registers. -/
def Obligations.DictionaryRows : Prop :=
  (∀ (s : State) (sub : BitVec 8) (sig : Word) (slot : Fin 2) (off : Nat) (bytes : List Byte) (v : Byte) (nonce : BitVec 256),
     let ask := fun (ix sub : Nat) (wr : Bool) (off len : Nat) (data : List Byte) =>
       let t := { s with dictq := s.dictq ++ [{ src := .row, index := ix, sub := sub, wr := wr, off := off, len := len, data := data }] }
       if s.dictq = [] then dictServe t else t
     Acts .dictionaryRequestDone s (dictServe s)
     ∧ Acts (.storeParameters sub sig) s (ask 0x1010 sub.toNat true 0 4 (leBytes 4 sig.toNat))
     ∧ Acts (.restoreDefaultParameters sub sig) s (ask 0x1011 sub.toNat true 0 4 (leBytes 4 sig.toNat))
     ∧ Acts (.bootSlotWrite slot off bytes) s (ask 0x2B60 (slot.val + 1) true off bytes.length bytes)
     ∧ Acts (.bootSlotValidate v) s (ask 0x2B61 6 true 0 1 [v]) ∧ Acts (.bootActiveWrite v) s (ask 0x2B61 1 true 0 1 [v])
     ∧ Acts (.firmwareImageWrite slot off bytes) s (ask 0x2B62 (slot.val + 1) true off bytes.length bytes)
     ∧ Acts (.firmwareActivate v) s (ask 0x2B63 1 true 0 1 [v]) ∧ Acts (.rollbackCommit v) s (ask 0x2B63 2 true 0 1 [v])
     ∧ Acts (.attestNonce nonce) s (ask 0x2B64 1 true 0 32 (leBytes 32 nonce.toNat)) ∧ Acts .attestReportRead s (ask 0x2B64 2 false 0 0x1000 []))
  ∧ (∀ (s : State) (m : Master) (b : Mbx) (w : Word),
     (Serves s (mbxCmdReg b) → Acts (.mbxStart m b w) s (emit (mbxStart s b (w ||| 0x80000000)) (.regDone m (mbxCmdReg b) 0 0)))
     ∧ (Serves s (mbxCtlReg b) → Acts (.mbxRel m b) s (emit (mbxRel s b) (.regDone m (mbxCtlReg b) 0 0))))

/-- NMT commands set the state or reload the node, SDO and Wellhead frames act by what they carry, whichever row brings them, timers and the
bus act, each while the node hears or Chiso runs as the rules name. From 16_host_and_network.md, CAN controller; 16_host_and_network.md, The
object dictionary; 16_host_and_network.md, Wellhead bulk service. -/
def Obligations.NetworkRows : Prop :=
  ∀ (s : State) (n : BitVec 7) (f : BitVec 64) (g : Line) (k : Fin 4),
    let nmt := fun (t : State) => if nmtHears s n.toNat = true then t else s
    Acts (.nmtOperational n) s (nmt (setF s F.CAN_STAT_NMT 2)) ∧ Acts (.nmtStopped n) s (nmt (setF s F.CAN_STAT_NMT 3))
    ∧ Acts (.nmtPreOperational n) s (nmt (setF s F.CAN_STAT_NMT 1))
    ∧ Acts (.nmtResetNode n) s (nmt (nmtReset (reloadCan s))) ∧ Acts (.nmtResetCommunication n) s (nmt (nmtReset s))
    ∧ (∀ r ∈ [Instr.sdoDownload f, .sdoUpload f, .sdoSegment f, .sdoAbort f],
        (fCcs f = 1 → Acts r s (sdoDownload s f))
        ∧ (fCcs f = 2 → Acts r s (if canHears s = false then s
            else askDict (setSdo s none) { src := .sdo none, index := fIndex f, sub := fSub f, wr := false, len := 0x1000000 }))
        ∧ (fCcs f = 4 → Acts r s (if canHears s = false then s else { setSdo s none with dictq := dropDict s.dictq isSdo }))
        ∧ (fCcs f = 0 ∨ fCcs f = 3 → Acts r s (sdoSegment s f))
        ∧ (4 < fCcs f → Acts r s (if canHears s = false then s else sdoBad s f)))
    ∧ Acts .sdoTimeout s (if chisoRuns s = false then s else match s.can.sdo with
      | none => s
      | some x => sdoFail (setF (setSdo s none) F.CAN_ERR_SDO_TO 1) x.index x.sub 0x05040000)
    ∧ (∀ r ∈ [Instr.wellheadOpen g, .wellheadData g, .wellheadAck g, .wellheadEnd g, .wellheadAbort g],
        (wOp g = 3 → Acts r s (wellTake s g)) ∧ (wOp g = 4 → Acts r s (wellAcked s g)) ∧ (wOp g = 5 → Acts r s (wellEnd s g))
        ∧ (wOp g = 7 → Acts r s (if wellHears s = false then s else if s.can.well.isSome = true then wellStop s else s))
        ∧ (wOp g ≠ 3 → wOp g ≠ 4 → wOp g ≠ 5 → wOp g ≠ 7 → Acts r s (wellOpen s g)))
    ∧ Acts .wellheadTimeout s (if chisoRuns s = true ∧ s.can.well.isSome = true then wellFail s 0x05040000 else s)
    ∧ Acts .heartbeatProducer s
      (let st := getF s F.CAN_STAT_NMT
       if chisoRuns s = true ∧ s.can.booted = true ∧ s.can.heart ≠ 0 ∧ st ≠ 0 then
         canSend s (0x700 + nodeId s) [if st = 3 then 0x04 else if st = 2 then 0x05 else 0x7F]
       else s)
    ∧ Acts (.tpdoEventTimer k) s (if (nget s.can.timer k).getD 0 = 0 then s else tpdoTrigger s k)
    ∧ Acts .emcySend s (match s.can.emcy with
      | [] => s
      | e :: rest => if canHears s = true ∧ isF s F.CAN_STAT_LISTEN = false then canSend { s with can := { s.can with emcy := rest } } (0x080 + nodeId s) e else s)
    ∧ Acts .busOff s
      (if busOn s = true then
         let w := Config.freeWord s.fresh
         setF (setF (setF (setF (freshen s) F.CAN_STAT_TEC (bits w 0 8)) F.CAN_STAT_REC (bits w 8 8)) F.CAN_STAT_BUS 3) F.CAN_ERR_BUSOFF 1
       else s)
    ∧ Acts .canTrimRetry s (canTrim s)
    ∧ Acts .busOffRecovery s (if getF s F.CAN_STAT_BUS = 3 then setF (setF (setF s F.CAN_STAT_BUS 1) F.CAN_STAT_TEC 0) F.CAN_STAT_REC 0 else s)

/-- The commands of SEC_CMD and of the CRC units act as writes of their registers and are answered; the engine's operation ends at the slot
that is first. From 17_security_and_check_values.md, Crypto engine; 17_security_and_check_values.md, CRC units;
17_security_and_check_values.md, SEC registers; 17_security_and_check_values.md, CRC registers. -/
def Obligations.EngineRows : Prop :=
  ∀ (s : State) (m : Master) (u : Fin 4) (w : Word),
    let reg := fun (off : Nat) (t : State) => emit t (.regDone m off 0 0)
    (Serves s R.SEC_CMD →
      Acts (.secDigest m) s (reg R.SEC_CMD (secStart (setF s F.SEC_CMD_OP 1) 1)) ∧ Acts (.secVerify m) s (reg R.SEC_CMD (secStart (setF s F.SEC_CMD_OP 2) 2))
      ∧ Acts (.secAttest m) s (reg R.SEC_CMD (secStart (setF s F.SEC_CMD_OP 3) 3))
      ∧ Acts (.secRel m) s (reg R.SEC_CMD (secRel (setF s F.SEC_CMD_OP (getF s F.SEC_CMD_OP)))))
    ∧ Acts .secOperationDone s (if holding s = true then s else secDone s)
    ∧ (Serves s (R.CRC_U_CTL u) →
      (∃ t, SameButRegs s t ∧ OnlyBits s t [F.CRC_U_CTL_POLY u, F.CRC_U_CTL_USEINIT u, F.CRC_U_CTL_COLL u] ∧
        getF t (F.CRC_U_CTL_POLY u) = bits w 0 2 ∧ getF t (F.CRC_U_CTL_USEINIT u) = bits w 2 1 ∧
        Acts (.crcStart m u w) s (reg (R.CRC_U_CTL u)
          (let b := if bit w 9 = true then crcColl t u else crcBegin t u
           if bit w 10 = true then crcRel b u else b)))
      ∧ (∃ t, SameButRegs s t ∧ OnlyBits s t [] ∧ Acts (.crcFin m u) s (reg (R.CRC_U_CTL u) (crcFin t u)))
      ∧ (∃ t, SameButRegs s t ∧ OnlyBits s t [] ∧ Acts (.crcRel m u) s (reg (R.CRC_U_CTL u) (crcRel t u))))
    ∧ (Serves s (R.CRC_U_D8 u) → Acts (.crcFeedD8 m u w) s (reg (R.CRC_U_D8 u) (crcFeed s u (leBytes 1 w.toNat))))
    ∧ (Serves s (R.CRC_U_D16 u) → Acts (.crcFeedD16 m u w) s (reg (R.CRC_U_D16 u) (crcFeed s u (leBytes 2 w.toNat))))
    ∧ (Serves s (R.CRC_U_D32 u) → Acts (.crcFeedD32 m u w) s (reg (R.CRC_U_D32 u) (crcFeed s u (leBytes 4 w.toNat))))

/-- For every row by which a flit arrives on a Vrelcia link: Ident, IdentAck, Epoch, EpochAck, Stand and the notices act on a link in
service, as the rules of the epoch and of leaving say, and are counted and answered with a Nak where the check value is bad; their timers
and REDO act. From 18_startup_and_federation.md, Vrelcia links; 18_startup_and_federation.md, Forming a federation;
18_startup_and_federation.md, Members leaving and joining; 18_startup_and_federation.md, Changing federation settings. -/
def Obligations.FederationRows : Prop :=
  ∀ (s : State) (m : Master) (l : Fin 3) (f : Flit) (d : Fin 4),
    let up := fun (t : State) => if lctlUp s l f = false then lctlElse s l f else t
    let on := fun (t : State) => if lctlOn s l f = false then lctlElse s l f else t
    let b := fun (i : Nat) => (lineByte f.data i).toNat
    (∀ i, Arrives i (.vl l) f → f.ftype = 3 →
      (f.opc = 4 → Acts i s (recvIdent s l f))
      ∧ (f.opc = 5 → Acts i s (on (tryLink (setVl s l { vl s l with lnk := { (vl s l).lnk with capAck := true } }) l)))
      ∧ (f.opc = 6 → let t := fedPrepare s (b 0) (b 1 % 16) (b 2) (b 3 % 4)
          Acts i s (up (emit t (.flit (.vl l) (lctlFlit (.vl l) 7 (ackOf (vl t l).lnk) 0)))))
      ∧ (f.opc = 7 → Acts i s (recvEpochAck s l f))
      ∧ (f.opc = 8 → Acts i s (up
          (if getF s F.FED_STAT_STATE = 2 ∧ s.fed.prepared = false then fedStand s (getF s F.FED_STAT_EPOCH) s.fed.set s.fed.kind 3 else s)))
      ∧ (f.opc = 9 → b 0 = 1 → Acts i s (up (warn s 3)))
      ∧ (f.opc = 9 → b 0 = 2 → Acts i s (up (peerDead s l { dev := b 1 % 4, port := b 2 % 8 })))
      ∧ (f.opc = 9 → b 0 = 3 → Acts i s (up (leaveWalk (setVl s l { vl s l with leaving := true, walked := false }) (farEnd s l))))
      ∧ (f.opc = 9 → b 0 = 4 → Acts i s (up
          (if s.fed.leaving = false then s else leaveDrain { s with fed := { s.fed with leftBy := s.fed.leftBy ++ [farEnd s l] } })))
      ∧ (f.opc = 9 → b 0 = 5 → Acts i s (up (push (setVl s l { vl s l with noQueue := true }) .drain)))
      ∧ (f.opc = 9 → b 0 = 0 ∨ 5 < b 0 → Acts i s (lctlElse s l f)))
    ∧ Acts (.identResend l) s (if ltssm s (.vl l) = 5 ∧ (vl s l).lnk.capAck = false then sendIdent s l else s)
    ∧ Acts (.epochAckTimeout d) s (if s.fed.prepared = true ∧ (unacked s).contains d.val = true then fedDrop s d else s)
    ∧ Acts .leaveWalkDone s (if holding s = true then s else leaveWalkDone s)
    ∧ Acts .fedWaitExpiry s
      (if pdOn s 29 = true ∧ s.start.profile = true ∧ isF s F.FED_SSTAT_FED = false then push { s with fed := { s.fed with waitDone := true } } .fed else s)
    ∧ Acts (.readyTimeout d) s
      (if d.val ≠ self s ∧ known s d = true ∧ isF s (F.FED_LSTAT_PREADY (linkTo s d)) = false then
         push { s with fed := { s.fed with readyTo := if s.fed.readyTo.contains d.val then s.fed.readyTo else s.fed.readyTo ++ [d.val] } } .fed
       else s)
    ∧ (Serves s R.FED_GCTL → Acts (.fedRedo m) s (emit (push (identAll (showDigest (putReg s R.FED_GCTL 1) (raw (putReg s R.FED_GCTL 1)))) .fed)
        (.regDone m R.FED_GCTL 0 0)))

/-- SNAP copies, CLR clears, a write of EVSEL clears its counter in every slice, a write of HCFG clears every histogram, and the index
registers show the counter or bin they select. From 19_register_index.md, MSR registers. -/
def Obligations.MeasureRows : Prop :=
  ∀ (s : State) (m : Master) (k : Fin 8) (w : Word),
    let reg := fun (off : Nat) (t : State) => emit t (.regDone m off 0 0)
    (Serves s R.MSR_CTL → Acts (.msrSnap m) s (reg R.MSR_CTL (msrSnapshot s)) ∧ Acts (.msrClr m) s (reg R.MSR_CTL (msrClear s)))
    ∧ (Serves s (R.MSR_EVSEL k) → let t := setF s (F.MSR_EVSEL_EV k) (bits w 0 5)
        Acts (.msrEvselWrite m k w) s (reg (R.MSR_EVSEL k) { t with slices := t.slices.map (fun e => (e.1, { e.2 with ctr := nerase e.2.ctr k })) }))
    ∧ (Serves s R.MSR_HCFG → let t := setF (setF s F.MSR_HCFG_BASE (bits w 0 8)) F.MSR_HCFG_BINW (bits w 8 8)
        Acts (.msrHcfgWrite m w) s (reg R.MSR_HCFG { t with ports := t.ports.map (fun e => (e.1, { e.2 with histo := [] })) }))
    ∧ (Serves s R.MSR_CIDX → let v := (nget (if bit w 12 = true then (nget s.msr.lctr (bits w 0 5)).getD [] else (slice s (bits w 0 5)).ctr) (bits w 8 3)).getD 0
        let t := setF (setF (setF s F.MSR_CIDX_SLICE (bits w 0 5)) F.MSR_CIDX_CNT (bits w 8 3)) F.MSR_CIDX_LATCH (bits w 12 1)
        Acts (.msrCidxWrite m w) s (reg R.MSR_CIDX (setF (setF t F.MSR_CNT_LO_COUNT v) F.MSR_CNT_HI_COUNT (v >>> 32))))
    ∧ (Serves s R.MSR_HIDX → let h := if bit w 12 = true then (nget s.msr.lhist (bits w 0 3)).getD [] else (port s (bits w 0 3)).histo
        let t := setF (setF (setF s F.MSR_HIDX_PORT (bits w 0 3)) F.MSR_HIDX_BIN (bits w 8 4)) F.MSR_HIDX_LATCH (bits w 12 1)
        Acts (.msrHidxWrite m w) s (reg R.MSR_HIDX (setF t F.MSR_HDAT_COUNT (if bits w 0 3 < 6 then (nget h (bits w 8 4)).getD 0 else 0))))

/-- At a full queue a record is not entered, nothing in the queue moves, and LOST counts it, to 0xFFFF; with room, nothing lost, no pop
waiting and no notice to latch, the record joins at the end. The source the code names is set either way, source 10 with FATAL; a source
already set signals nothing again. Nothing but the queue, the masters' notices and the fields of a signal changes. From
15_control_interfaces.md, Event queue; 15_control_interfaces.md, Interrupts. -/
def Obligations.EventsPosted : Prop :=
  ∀ (s : State) (code unit : Nat) (detail : List Byte),
    let u := post s code unit detail
    (getF u F.EVQ_IRQ_STAT_SRC).testBit (irqOf code) = true
    ∧ (irqOf code = 10 → isF u F.GEN_STAT_FATAL = true)
    ∧ (1024 ≤ s.evq.recs.length → u.evq.recs = s.evq.recs ∧ u.evq.lost = (if s.evq.lost < 0xFFFF then s.evq.lost + 1 else 0xFFFF))
    ∧ (s.evq.recs.length < 1024 → s.evq.lost = 0 → s.evq.waiters = [] → isF s F.EVQ_FN_LATCHED = true →
        u.evq.recs = s.evq.recs ++ [record s code unit detail] ∧ u.evq.lost = 0)
    ∧ ((getF s F.EVQ_IRQ_STAT_SRC).testBit (irqOf code) = true → (getF s F.EVQ_IRQ_STAT_SRC).testBit 0 = true → (getF s F.EVQ_IRQ_STAT_SRC).testBit 2 = true →
        u.out = s.out ∧ u.ports = s.ports ∧ u.pcie = s.pcie ∧ u.can = s.can)
    ∧ Told s u

/-- For every register: a field that is read only, or that holds commands, keeps its bits; a field that is written takes the written value;
a field cleared by writing 1 loses the bits written as 1; a bit of no field stays; no other register changes. From 00_scope.md, Conventions;
15_control_interfaces.md, Access paths. -/
def Obligations.RegisterClasses : Prop :=
  ∀ (s : State) (off : Nat) (w : Word) (r : RegRow), rowAt off = some r →
    let v := raw (putReg s off w) off
    let old := raw s off
    (∀ f ∈ r.flds, (f.acc = .ro ∨ f.acc = .wo) → bits v f.lo f.w = bits old f.lo f.w)
    ∧ (∀ f ∈ r.flds, (f.acc = .rw ∨ f.acc = .rws) → bits v f.lo f.w = bits w f.lo f.w)
    ∧ (∀ f ∈ r.flds, f.acc = .w1c → ∀ b, f.lo ≤ b → b < f.lo + f.w → v.getLsbD b = (old.getLsbD b && !w.getLsbD b))
    ∧ (∀ b, b < 32 → (∀ f ∈ r.flds, b < f.lo ∨ f.lo + f.w ≤ b) → v.getLsbD b = old.getLsbD b)
    ∧ (∀ o, o ≠ off → raw (putReg s off w) o = raw s o) ∧ SameButRegs s (putReg s off w)

/-- The bit of a pair of ways i < j is i × (31 − i) / 2 + (j − i − 1), one of 120 and one for each pair; newer(a, b) reads that bit for a <
b and its complement for a > b; in a zero matrix way 0 is the oldest and way 15 the newest; a slice whose domain is switched on has zero
matrices. Formalises R74. -/
def Obligations.AgeBits : Prop :=
  (∀ i j, i < j → j < 16 → ageBit i j = i * (31 - i) / 2 + (j - i - 1) ∧ ageBit i j < 120)
  ∧ (∀ i j k l, i < j → j < 16 → k < l → l < 16 → ageBit i j = ageBit k l → i = k ∧ j = l)
  ∧ (∀ (m : BitVec 120) (a b : Nat), a < 16 → b < 16 → a ≠ b →
      (newer m a b = true ↔ if a < b then m.getLsbD (ageBit a b) = true else m.getLsbD (ageBit b a) = false))
  ∧ (∀ a b, a < 16 → b < 16 → a ≠ b → newer 0 a b = decide (b < a))
  ∧ (∀ (s : State) (n : Fin 32), nsorted s.slices = true → (slice (domainOn (domainOff s (slicePd n)) (slicePd n)) n).ages = [])

/-- Touching a way makes it newer than every other and leaves every other pair as it was; making it oldest does the opposite; both keep a
strict order strict; the victim of a candidate set is a candidate than which every other candidate is newer, and in a strict order every set
of candidates has one. From 04_slice.md, Replacement. -/
def Obligations.AgeOrder : Prop :=
  ∀ (m : BitVec 120) (w : Nat), w < 16 →
    (∀ a b, a < 16 → b < 16 → a ≠ b →
      newer (touchAge m w) a b = (if a = w then true else if b = w then false else newer m a b)
      ∧ newer (oldestAge m w) a b = (if a = w then false else if b = w then true else newer m a b))
    ∧ (AgeStrict m → AgeStrict (touchAge m w) ∧ AgeStrict (oldestAge m w))
    ∧ (∀ (c : List Nat) (v : Nat), oldestOf m c = some v → v ∈ c ∧ ∀ j ∈ c, j ≠ v → newer m j v = true)
    ∧ (AgeStrict m → ∀ c : List Nat, c ≠ [] → (∀ j ∈ c, j < 16) → ∃ v, oldestOf m c = some v)

/-- While START is below 16,384 and GAP at most 16,384, the lines of a region lie on different slots, none on the gap and none above 16,384;
a gap move keeps those bounds, moves exactly the line whose slot becomes the gap, into the slot that was the gap, and leaves every other
line where it is. From 09_cistern_persistence.md, Wear levelling. -/
def Obligations.GapPlacement : Prop :=
  ∀ g : Region, g.start < 16384 → g.gap ≤ 16384 →
    (∀ l, l < 16384 → slotOf g l ≤ 16384 ∧ slotOf g l ≠ g.gap)
    ∧ (∀ k l, k < 16384 → l < 16384 → slotOf g k = slotOf g l → k = l)
    ∧ (moveGap g).start < 16384 ∧ (moveGap g).gap ≤ 16384
    ∧ (∃ k, k < 16384 ∧ slotOf g k = (moveGap g).gap)
    ∧ (∀ l, l < 16384 → slotOf (moveGap g) l = if slotOf g l = (moveGap g).gap then g.gap else slotOf g l)
    ∧ (moveGap g).wear = g.wear

/-- For each of the three sizes: a word stored with its check bits is clean; one wrong bit, data or check, is corrected with no data bit
left wrong; two wrong bits are uncorrectable; and the outcome depends on the wrong bits alone. From 11_memory_channels_and_ecc.md, Surface
and tag codes. -/
def Obligations.SecDed : Prop :=
  ∀ k r, (k, r) ∈ [(40, 6), (128, 8), (49, 6)] →
    (∀ v, v < 2 ^ k → (secdedDecode k r (v + secdedCheck k r v <<< k)).1 = .clean)
    ∧ secdedDecode k r 0 = (.clean, 0)
    ∧ (∀ i, i ≤ k + r → secdedDecode k r (1 <<< i) = (.corrected, 0))
    ∧ (∀ i j, i < j → j ≤ k + r → (secdedDecode k r (1 <<< i ^^^ 1 <<< j)).1 = .uncorrectable)
    ∧ (∀ v e, v < 2 ^ k → (secdedDecode k r ((v + secdedCheck k r v <<< k) ^^^ e)).1 = (secdedDecode k r e).1)

/-- The syndromes of a line that was encoded with its check symbols and is read with an error are those of the error and of the poison
pattern alone. A line read with errors in the symbols of one device only: with no error it is returned as stored; where at least one
codeword has none, a device in error is found and its symbols corrected, poisoned or not; under the mark of that device it is rebuilt
whatever the error. From 11_memory_channels_and_ecc.md, The chip-failure code. -/
def Obligations.ChipFailure : Prop :=
  (∀ (d : Line) (e : BitVec 640) (p : Bool) (i : Nat), i < 8 → readSyndromes d (lineCheck d p) e i = syndromes e p i)
  ∧ (∀ (e : BitVec 640) (k : Nat) (p : Bool), k < 10 → (∀ i j, i < 8 → j < 10 → j ≠ devPos k → errSym e i j = 0) →
    (e = 0 → rsDecode p e none = { poison := p })
    ∧ (e ≠ 0 → (∃ i, i < 8 ∧ errSym e i (devPos k) = 0) →
        rsDecode p e none = { poison := p, device := some k, words := ((List.range 8).filter (fun i => decide (errSym e i (devPos k) ≠ 0))).length })
    ∧ rsDecode p e (some k) = { poison := p, rebuilt := true })

/-- 0x5A in c_1 and 0xB4 in c_0 of a codeword give S0 = 0xEE and S1 = 0, so that each codeword of a poisoned line without error has that
syndrome and its data is returned as stored; no single symbol error gives S1 = 0 with S0 ≠ 0. Formalises R221. -/
def Obligations.PoisonSyndrome : Prop :=
  (0x5A ^^^ 0xB4 = 0xEE ∧ gfMul 0xB4 (alpha 0) ^^^ gfMul 0x5A (alpha 1) = 0)
  ∧ (∀ i, syndromes 0 true i = (0xEE, 0) ∧ syndromes 0 false i = (0, 0))
  ∧ (∀ j : Fin 10, ∀ e : Fin 256, gfMul e (alpha j) = 0 → e.val = 0)
  ∧ rsDecode true 0 none = { poison := true } ∧ lineErr 0 = 0

/-- With an interleave map that names a device once, two lines of this device's DRAM never share a local address; the two lines of a granule
lie on one channel and rank in opposite subchannels. From 11_memory_channels_and_ecc.md, From address to DRAM cell; 02_address_map.md, DRAM
ranges. -/
def Obligations.DramPlacement : Prop :=
  (∀ (s : State) (k l : LineAddr), (∀ a b, a < ilvWays s → b < ilvWays s → ilvMap s a = ilvMap s b → a = b) →
    route s (k.toNat * 64) = some (.dram, self s) → route s (l.toNat * 64) = some (.dram, self s) →
    laOf s (k.toNat * 64) / 64 = laOf s (l.toNat * 64) / 64 → k = l)
  ∧ (∀ (s : State) (la : Nat), la % 128 = 0 → cellOf s la = { cellOf s (la + 64) with sub := 0 } ∧ (cellOf s (la + 64)).sub = 1)

/-- A well-formed atomic lies within its line; it returns the old operand, and where it writes, the bytes outside the operand stay and the
operand becomes the sum, the swapped value, the signed or unsigned lesser or greater, the AND, OR or exclusive OR; a compare and swap writes
the swap value where the operand matches, and nothing elsewhere. From 05_coherence.md, Atomics; 03_agent_ports.md, Opcodes. -/
def Obligations.AtomicBytes : Prop :=
  ∀ (arg : BitVec 12) (x line : Line), atomOk arg = true →
    let z := atomSize arg
    let o := atomOff arg
    let old := BitVec.ofNat (8 * z) (line.toNat >>> (8 * o))
    let v := BitVec.ofNat (8 * z) x.toNat
    let swap := BitVec.ofNat (8 * z) (x.toNat >>> 128)
    let new := fun (t : Line) => BitVec.ofNat (8 * z) (t.toNat >>> (8 * o))
    let r := atomRun arg x line
    o + z ≤ 64 ∧ r.1 = BitVec.ofNat 512 old.toNat
    ∧ (∀ t, r.2 = some t → ∀ i, i < 64 → (i < o ∨ o + z ≤ i) → lineByte t i = lineByte line i)
    ∧ (aop arg = 0 → ∃ t, r.2 = some t ∧ new t = old + v)
    ∧ (aop arg = 1 → ∃ t, r.2 = some t ∧ new t = v)
    ∧ (aop arg = 3 → ∃ t, r.2 = some t ∧ new t = if old.sle v = true then old else v)
    ∧ (aop arg = 4 → ∃ t, r.2 = some t ∧ new t = if old.sle v = true then v else old)
    ∧ (aop arg = 5 → ∃ t, r.2 = some t ∧ new t = if old.ule v = true then old else v)
    ∧ (aop arg = 6 → ∃ t, r.2 = some t ∧ new t = if old.ule v = true then v else old)
    ∧ (aop arg = 7 → ∃ t, r.2 = some t ∧ new t = old &&& v)
    ∧ (aop arg = 8 → ∃ t, r.2 = some t ∧ new t = old ||| v)
    ∧ (aop arg = 9 → ∃ t, r.2 = some t ∧ new t = old ^^^ v)
    ∧ (aop arg = 2 ∨ aop arg = 10 → (old = v → ∃ t, r.2 = some t ∧ new t = swap) ∧ (old ≠ v → r.2 = none))

/-- The default initial values and final XORs of the four algorithms, and the check value of each over the ASCII string 123456789. From
17_security_and_check_values.md, CRC units. -/
def Obligations.CrcAlgorithms : Prop :=
  let text := ([0x31, 0x32, 0x33, 0x34, 0x35, 0x36, 0x37, 0x38, 0x39] : List Byte)
  let run := fun (poly : Nat) => text.foldl (unitByte poly) (unitInit poly) ^^^ unitFinal poly
  (List.range 4).map unitInit = [0xFFFFFFFF, 0xFFFFFFFF, 0xFFFF, 0] ∧ (List.range 4).map unitFinal = [0xFFFFFFFF, 0xFFFFFFFF, 0, 0]
  ∧ run 0 = 0xCBF43926 ∧ run 1 = 0xE3069283 ∧ run 2 = 0x29B1 ∧ run 3 = 0x6C40DF5F0B497347

/-- START loads the initial value and enters FEED; in FEED, bytes move the register, RES reads BUSY and VAL 0, and feeding in two parts is
feeding the whole; FIN enters DONE with the final XOR in VAL, VALID and the next SEQ; a feed or FIN outside FEED sets COLL alone; other
units and other blocks are untouched. From 17_security_and_check_values.md, CRC units; 17_security_and_check_values.md, CRC registers. -/
def Obligations.CrcUnitRuns : Prop :=
  ∀ (s : State) (u v : Fin 4) (a b : List Byte),
    let c := crcOf s u
    let f := crcFeed s u a
    let g := crcFin s u
    (c.phase = 1 → crcOf f u = { c with reg := BitVec.ofNat 64 (a.foldl (unitByte c.poly) c.reg.toNat), cnt := c.cnt + BitVec.ofNat 32 a.length }
      ∧ crcOf (crcFeed f u b) u = crcOf (crcFeed s u (a ++ b)) u
      ∧ getF f (F.CRC_U_RES_BUSY u) = 1 ∧ getF f (F.CRC_U_RES_VALID u) = 0 ∧ raw f (R.CRC_U_VAL_LO u) = 0 ∧ raw f (R.CRC_U_VAL_HI u) = 0)
    ∧ (c.phase = 1 →
      let t := c.reg ^^^ BitVec.ofNat 64 (unitFinal c.poly)
      (crcOf g u).phase = 2 ∧ (crcOf g u).seq = c.next ∧ (crcOf g u).next = (if c.next = 0xFFFF then 1 else c.next + 1)
      ∧ raw g (R.CRC_U_VAL_LO u) = t.setWidth 32 ∧ raw g (R.CRC_U_VAL_HI u) = (t >>> 32).setWidth 32
      ∧ getF g (F.CRC_U_RES_VALID u) = 1 ∧ getF g (F.CRC_U_RES_BUSY u) = 0 ∧ getF g (F.CRC_U_RES_SEQ u) = c.next % 0x10000
      ∧ (getF g F.EVQ_IRQ_STAT_SRC).testBit 5 = true)
    ∧ (c.phase ≠ 1 → f = setF s (F.CRC_U_CTL_COLL u) 1 ∧ g = setF s (F.CRC_U_CTL_COLL u) 1)
    ∧ (v ≠ u → crcOf f v = crcOf s v ∧ crcOf g v = crcOf s v)
    ∧ (∀ o, (o < R.CRC_U_CTL u ∨ R.CRC_U_CTL u + 0x40 ≤ o) → raw f o = raw s o) ∧ f = { s with csr := f.csr, crcs := f.crcs }

/-- DEAD and RECLAIM set, the port down, its egress, queued requests and forwards gone, its requests at homes kept for reclamation; each
forward of a home here gets the dead answer; each slice that is on takes the agent into its dead mask and drops its reservations; the port's
own work follows. An agent already dead is not declared again. From 03_agent_ports.md, Dead agents and port reset; 06_coherence_races.md,
Dead agents. -/
def Obligations.DeadAgent : Prop :=
  ∀ (s : State) (p : Fin 6) (reason : Nat),
    let u := declareDead s p reason
    let me : Agent := { dev := self s, port := p }
    (isF s (F.APT_STAT_DEAD p) = true → u = s)
    ∧ (isF s (F.APT_STAT_DEAD p) = false →
      isF u (F.APT_STAT_DEAD p) = true ∧ isF u (F.APT_STAT_RECLAIM p) = true ∧ getF u (F.APT_STAT_LTSSM p) = 0 ∧ getF u (F.APT_STAT_UP p) = 0
      ∧ (port u p).txns = (port s p).txns.filter (fun t => decide (t.place = 1)) ∧ (port u p).fwds = [] ∧ (port u p).lnk.egress = []
      ∧ (∀ f ∈ (port s p).fwds, f.peer = none → Flow.answer f.slice { src := me, tx := f.tx, opc := 0x28, line := f.line, dead := true } ∈ u.fabric)
      ∧ (∀ n : Fin 32, sliceUp s n = true → me ∈ (slice u n).dead ∧ (slice u n).dir = (slice s n).dir ∧ (slice u n).ways = (slice s n).ways)
      ∧ (∀ n : Fin 32, sliceUp s n = true → me ∉ (slice s n).dead → me ∈ (slice u n).scans ∧ ∀ e ∈ (slice u n).rsv, e.1 ≠ .agent me)
      ∧ Flow.port p ∈ u.fabric ∧ u.dram = s.dram ∧ u.cis = s.cis)

/-- After a DRAM write, a read without error returns that data and poison, marked device or not, and changes nothing stored; every line at
another place is unchanged; lines stay listed in rising order; the Tier's slot of the line no longer holds it; nothing else changes. From
11_memory_channels_and_ecc.md, Demand correction and uncorrectable DRAM lines; 09_cistern_persistence.md, Tier. -/
def Obligations.DramReadsBack : Prop :=
  ∀ (s : State) (l : LineAddr) (d : Line) (p : Bool),
    let u := dramWrite s l d p
    let place := fun (k : LineAddr) => laOf s (k.toNat * 64) / 64
    (dramRead u l 0).1 = { data := d, poison := p } ∧ (dramRead u l 0).2 = { u with fresh := u.fresh + 1 }
    ∧ (∀ k, place k ≠ place l → nget u.dram (place k) = nget s.dram (place k))
    ∧ (nsorted s.dram = true → nsorted u.dram = true)
    ∧ (nsorted s.cis.tier = true → (tierProbe u l).1 = none)
    ∧ u = { s with dram := u.dram, cis := { s.cis with tier := u.cis.tier } }

/-- An admitted write of a line: it reads back with its data, poison and SEQ; every other line is unchanged; lines stay listed in rising
order; the region's wear and the total go up by one and the governor's level down by one; where a move has copied the line, the new region's
wear too, where the governor has room, or a write of it waits; no other region's wear changes; lines of DRAM and the surface are untouched.
From 09_cistern_persistence.md, Organisation; 09_cistern_persistence.md, Wear levelling; 09_cistern_persistence.md, Wear governor. -/
def Obligations.CisternReadsBack : Prop :=
  ∀ (s : State) (n : Nat) (c : CLine), nsorted s.cis.lines = true →
    let u := cisWrite s n c
    let p := physical s (n / 16384)
    cisGet u n = c ∧ (∀ m, m ≠ n → cisGet u m = cisGet s m) ∧ nsorted u.cis.lines = true
    ∧ u.dram = s.dram ∧ u.slices = s.slices ∧ u.mdata = s.mdata ∧ u.cis.map = s.cis.map ∧ u.cis.tier = s.cis.tier ∧ u.cis.moves = s.cis.moves
    ∧ (∀ q, q ≠ p → (∀ m, moveFrom s p = some m → q ≠ m.dst) → regionOf u q = regionOf s q)
    ∧ (moveFrom s p = none → u.cis.total = s.cis.total + 1 ∧ u.cis.level = s.cis.level - 1 ∧ u.cis.queue = s.cis.queue
        ∧ (regionOf u p).wear = ((regionOf s p).wear + 1) % 2 ^ 48)
    ∧ (∀ m, moveFrom s p = some m → m.dst ≠ p →
        let below := m.copied = true ∨ n % 16384 < m.next
        (regionOf u p).wear = ((regionOf s p).wear + 1) % 2 ^ 48
        ∧ (¬ below → u.cis.total = s.cis.total + 1 ∧ u.cis.queue = s.cis.queue ∧ regionOf u m.dst = regionOf s m.dst)
        ∧ (below → gated s = true →
            u.cis.total = s.cis.total + 2 ∧ (regionOf u m.dst).wear = ((regionOf s m.dst).wear + 1) % 2 ^ 48)
        ∧ (below → gated s = false → s.cis.queue ≠ [] →
            u.cis.total = s.cis.total + 1 ∧ u.cis.queue = s.cis.queue ++ [{ prio := 6, kind := .twin m.dst, left := 1 }] ∧ regionOf u m.dst = regionOf s m.dst))

/-- The bucket is the 8-bit fold of pa[14:7], pa[22:15], pa[30:23], pa[38:31] and pa[41:39], the last entering as the low three bits; bits
6:0 and 45:42 take no part; the two lines of a granule share their bucket and their home. Formalises R36. -/
def Obligations.BucketFold : Prop :=
  (∀ pa : BitVec 46, bucket (pa.extractLsb' 6 40)
    = (pa.extractLsb' 7 8 ^^^ pa.extractLsb' 15 8 ^^^ pa.extractLsb' 23 8 ^^^ pa.extractLsb' 31 8 ^^^ (pa.extractLsb' 39 3).setWidth 8).toNat)
  ∧ (∀ pa qa : BitVec 46, pa.extractLsb' 7 35 = qa.extractLsb' 7 35 → bucket (pa.extractLsb' 6 40) = bucket (qa.extractLsb' 6 40))
  ∧ (∀ (s : State) (k l : LineAddr), granule k = granule l → bucket k = bucket l ∧ homeOf s k = homeOf s l)

/-- Before RdOwn, Upgrade or ItoM is granted, or a write is made, the round sends Inval to each sharer of this device and to each peer in
SHR, and Inval or FwdOwn to the holder, the requester itself aside. From 05_coherence.md, Home transitions; 05_coherence.md, The directory
entry. -/
def Obligations.OwnershipReachesHolders : Prop :=
  ∀ (s : State) (n : Nat) (r : HReq) (d : Dir) (res : Bool),
    r.op ∈ [HOp.rdOwn, .upgrade, .itoM, .write, .stashWr, .atomHome, .atomMem, .maint 6] →
    (∀ p : Fin 6, bit d.shr p = true → agentOf r.who ≠ some { dev := self s, port := p } → d.hld ≠ some { dev := self s, port := p } →
      ∃ t fs, roundOf s n r d res = some (t, fs) ∧ (Target.agent { dev := self s, port := p }, 0x22) ∈ fs)
    ∧ (∀ l : Fin 3, d.dst ≠ 3 → bit d.shr (6 + l) = true → ∃ t fs, roundOf s n r d res = some (t, fs) ∧ (Target.peer l, 0x22) ∈ fs)
    ∧ (∀ h, d.hld = some h → agentOf r.who ≠ some h → ∃ t fs op, roundOf s n r d res = some (t, fs) ∧ (Target.agent h, op) ∈ fs ∧ op ∈ [0x21, 0x22])

/-- Where the line has a directory entry, a grant of E or M leaves it in DX with the grantee as its holder and as its only sharer, TRS as it
was; no other line's entry changes; every other requester's reservation of the granule is gone and the rest stand; other slices and all else
are unchanged. From 05_coherence.md, The directory entry; 05_coherence.md, Reservations. -/
def Obligations.OneOwner : Prop :=
  ∀ (s : State) (n : Nat) (r : HReq) (a : Agent), (findDir (slice s n) r.line).isSome = true →
    let u := grantOwn s n r a
    dirOf (slice u n) r.line = { line := r.line, dst := 3, shr := BitVec.ofNat 9 (1 <<< shrBit s a), hld := some a, trs := (dirOf (slice s n) r.line).trs }
    ∧ (∀ l, l ≠ r.line → dirOf (slice u n) l = dirOf (slice s n) l)
    ∧ (∀ e, e ∈ (slice u n).rsv ↔ e ∈ (slice s n).rsv ∧ (e.2 = granule r.line → e.1 = r.who))
    ∧ (∀ k, k ≠ n → slice u k = slice s k) ∧ u = { s with slices := u.slices }

/-- An ACK that names a flit of the replay buffer releases every flit up to it and keeps those after it; one that names none of them changes
nothing. From 03_agent_ports.md, Acknowledgement and replay. -/
def Obligations.AckReleases : Prop :=
  ∀ (k : Lnk) (ack : Nat),
    (∀ pre f post, k.replay = pre ++ f :: post → f.seq = ack → (∀ g ∈ pre, g.seq ≠ ack) → takeAck k ack = { k with replay := post })
    ∧ ((∀ g ∈ k.replay, g.seq ≠ ack) → takeAck k ack = k)

/-- For every row by which a flit arrives, where the flit carries a message: at once it changes the ports, the links, the work and flits to
come, the dead masks of slices, and what tells the masters of an event; of the registers, those of its own side, the failed-access record
and the fields of a signal. No way, directory entry, MSHR, eviction-buffer entry, line of DRAM or of the Cistern, effective value or other
unit changes. From 03_agent_ports.md, The flit; 03_agent_ports.md, Message classes and credits; 18_startup_and_federation.md, Vrelcia links.
-/
def Obligations.MessageRowsFrame : Prop :=
  ∀ (s : State) (side : Side) (f : Flit) (i : Instr), Arrives i side f → f.message = true →
    ∃ u, Acts i s u
      ∧ u = { s with csr := u.csr, ports := u.ports, vls := u.vls, slices := u.slices, fabric := u.fabric, out := u.out, evq := u.evq, pcie := u.pcie, can := u.can }
      ∧ (∀ n, slice u n = { slice s n with dead := (slice u n).dead })
      ∧ (∀ o, InBlock side o ∨ o ∈ signalRegs ∨ raw u o = raw s o)

/-- The rows of the oscillators, locks, ramps, monitors, HOLD, trims, DVFS and the sensors change at once the clock unit, the hot flags of a
channel, and what tells the masters of an event; of the registers, those of CLK and MSR, the management controller's state, the channels'
refresh flag, and the fields of a signal. Of the supply only the list of monitors that read low changes. No slice, line, link, effective
value or other unit changes. From 13_clocks.md, Clock states; 13_clocks.md, Monitors and the fallback chain; 13_clocks.md, DVFS;
13_clocks.md, Sources and the ROOT PLL. -/
def Obligations.ClockRowsFrame : Prop :=
  ∀ (s : State) (q : TrimPass) (w : Sensor) (t : BitVec 12) (k : Fin 8) (mv : BitVec 14),
    ∀ i ∈ [Instr.troReady, .xtalReady, .xtalTimeout, .rootLock, .spllLock, .referenceChange, .rampDwell, .xmonTrip, .tmonTrip, .rmonTrip, .troRestartTimeout,
        .holdEnd, .troFailedHoldEnd, .trimAutoInterval, .trimPassDone q, .trimPassTimeout, .vcoreReached, .voltageTimeout, .dvfsMStep, .thermalStep,
        .sensorSample w t, .railSample k mv],
    ∃ u, Acts i s u
      ∧ u = { s with csr := u.csr, clk := u.clk, chans := u.chans, ports := u.ports, fabric := u.fabric, out := u.out, evq := u.evq, pcie := u.pcie, can := u.can, fresh := u.fresh,
                      supply := { s.supply with low := u.supply.low } }
      ∧ (∀ p, port u p = { port s p with lnk := { (port s p).lnk with egress := (port u p).lnk.egress } })
      ∧ (∀ c, chan u c = { chan s c with hot := (chan u c).hot })
      ∧ (∀ o, (0x30000 ≤ o ∧ o < 0x40000) ∨ (0xE0000 ≤ o ∧ o < 0xF0000) ∨ o = R.PMU_MCU ∨ (∃ c : Fin 4, o = R.MCH_STAT c) ∨ o ∈ signalRegs ∨ raw u o = raw s o)
end

