-- ==== Sys2Proof/Laws/Maps.lean ====
section
/-! SUPPORT. What reading, setting and erasing an entry of an indexed family come to, and that each keeps the canonical form. -/

namespace Sys2Proof.Machine

variable {α : Type}

@[simp] theorem nget_nil (k : Nat) : nget ([] : NMap α) k = none := rfl

@[simp] theorem nget_nset_same (m : NMap α) (k : Nat) (v : α) : nget (nset m k v) k = some v := by
  induction m with
  | nil => simp [nset, nget]
  | cons e r ih =>
    obtain ⟨i, x⟩ := e
    by_cases h1 : k < i
    · simp [nset, nget, h1]
    · by_cases h2 : i = k
      · simp [nset, nget, h2]
      · simp [nset, nget, h1, h2, ih]

theorem nget_nset_ne (m : NMap α) (k j : Nat) (v : α) (h : j ≠ k) : nget (nset m k v) j = nget m j := by
  induction m with
  | nil =>
    have h' : k ≠ j := fun e => h e.symm
    by_cases h1 : j < k <;> simp [nset, nget, h', h1]
  | cons e r ih =>
    obtain ⟨i, x⟩ := e
    have h' : k ≠ j := fun e => h e.symm
    by_cases h1 : k < i
    · by_cases h2 : j < k
      · have h3 : i ≠ j := by omega
        have h4 : j < i := by omega
        simp [nset, nget, h1, h', h2, h3, h4]
      · simp [nset, nget, h1, h', h2]
    · by_cases h2 : i = k
      · subst h2
        by_cases h3 : j < i <;> simp [nset, nget, h']
      · simp only [nset, h1, h2, if_false, nget]
        by_cases h3 : i = j
        · simp [h3]
        · by_cases h4 : j < i <;> simp [h3, h4, ih]

theorem nget_nset (m : NMap α) (k j : Nat) (v : α) : nget (nset m k v) j = if j = k then some v else nget m j := by
  by_cases h : j = k
  · subst h; simp
  · simp [h, nget_nset_ne m k j v h]

/-- The value at an index where the values are mapped index by index. -/
theorem nget_map {β : Type} (f : Nat → α → β) (m : NMap α) (k : Nat) :
    nget (m.map (fun e => (e.1, f e.1 e.2))) k = (nget m k).map (f k) := by
  induction m with
  | nil => rfl
  | cons e r ih =>
    obtain ⟨i, x⟩ := e
    by_cases h1 : i = k
    · subst h1; simp [nget]
    · by_cases h2 : k < i <;> simp [nget, h1, h2, ih]

/-- The canonical form says that an entry's index lies below all later ones. -/
theorem nsorted_cons {i : Nat} {x : α} {r : NMap α} :
    nsorted ((i, x) :: r) = true ↔ (∀ e ∈ r, i < e.1) ∧ nsorted r = true := by
  induction r generalizing i x with
  | nil => simp [nsorted]
  | cons e r ih =>
    obtain ⟨j, y⟩ := e
    constructor
    · intro h
      have h1 : i < j ∧ nsorted ((j, y) :: r) = true := by simpa [nsorted] using h
      refine ⟨?_, h1.2⟩
      intro e he
      rcases List.mem_cons.mp he with rfl | he
      · exact h1.1
      · exact Nat.lt_trans h1.1 ((ih.mp h1.2).1 e he)
    · rintro ⟨h1, h2⟩
      have h3 : i < j := h1 (j, y) (List.mem_cons_self ..)
      simp [nsorted, h3, h2]

theorem mem_nset_fst (m : NMap α) (k : Nat) (v : α) : ∀ e ∈ nset m k v, e.1 = k ∨ ∃ f ∈ m, f.1 = e.1 := by
  induction m with
  | nil => simp [nset]
  | cons a r ih =>
    obtain ⟨i, x⟩ := a
    intro e he
    by_cases h1 : k < i
    · simp only [nset, h1, if_true, List.mem_cons] at he
      rcases he with rfl | he
      · exact .inl rfl
      · exact .inr ⟨e, List.mem_cons.mpr he, rfl⟩
    · by_cases h2 : i = k
      · subst h2
        simp only [nset, Nat.lt_irrefl, if_false, if_true, List.mem_cons] at he
        rcases he with rfl | he
        · exact .inl rfl
        · exact .inr ⟨e, List.mem_cons.mpr (.inr he), rfl⟩
      · simp only [nset, h1, h2, if_false, List.mem_cons] at he
        rcases he with rfl | he
        · exact .inr ⟨(i, x), List.mem_cons_self .., rfl⟩
        · rcases ih e he with h | ⟨f, hf, h⟩
          · exact .inl h
          · exact .inr ⟨f, List.mem_cons.mpr (.inr hf), h⟩

/-- Setting an entry keeps the canonical form. -/
theorem nsorted_nset (m : NMap α) (k : Nat) (v : α) (h : nsorted m = true) : nsorted (nset m k v) = true := by
  induction m with
  | nil => rfl
  | cons a r ih =>
    obtain ⟨i, x⟩ := a
    obtain ⟨h1, h2⟩ := nsorted_cons.mp h
    by_cases c1 : k < i
    · simp only [nset, c1, if_true]
      refine nsorted_cons.mpr ⟨?_, h⟩
      intro e he
      rcases List.mem_cons.mp he with rfl | he
      · exact c1
      · exact Nat.lt_trans c1 (h1 e he)
    · by_cases c2 : i = k
      · subst c2
        simp only [nset, if_true, Nat.lt_irrefl, if_false]
        exact nsorted_cons.mpr ⟨h1, h2⟩
      · simp only [nset, c1, c2, if_false]
        refine nsorted_cons.mpr ⟨?_, ih h2⟩
        intro e he
        rcases mem_nset_fst r k v e he with hk | ⟨f, hf, hk⟩
        · omega
        · exact hk ▸ h1 f hf

theorem mem_nerase (m : NMap α) (k : Nat) : ∀ e ∈ nerase m k, e ∈ m := by
  induction m with
  | nil => simp [nerase]
  | cons a r ih =>
    obtain ⟨i, x⟩ := a
    intro e he
    by_cases h1 : i = k
    · simp only [nerase, h1, if_true] at he
      exact List.mem_cons_of_mem _ he
    · by_cases h2 : k < i
      · simpa [nerase, h1, h2] using he
      · simp only [nerase, h1, h2, if_false, List.mem_cons] at he
        rcases he with rfl | he
        · exact List.mem_cons_self ..
        · exact List.mem_cons_of_mem _ (ih e he)

/-- Erasing an entry keeps the canonical form. -/
theorem nsorted_nerase (m : NMap α) (k : Nat) (h : nsorted m = true) : nsorted (nerase m k) = true := by
  induction m with
  | nil => rfl
  | cons a r ih =>
    obtain ⟨i, x⟩ := a
    obtain ⟨h1, h2⟩ := nsorted_cons.mp h
    by_cases c1 : i = k
    · simp [nerase, c1, h2]
    · by_cases c2 : k < i
      · simpa [nerase, c1, c2] using h
      · simp only [nerase, c1, c2, if_false]
        exact nsorted_cons.mpr ⟨fun e he => h1 e (mem_nerase r k e he), ih h2⟩

/-- Filtering entries keeps the canonical form. -/
theorem nsorted_filter (m : NMap α) (p : Nat × α → Bool) (h : nsorted m = true) : nsorted (m.filter p) = true := by
  induction m with
  | nil => rfl
  | cons a r ih =>
    obtain ⟨i, x⟩ := a
    obtain ⟨h1, h2⟩ := nsorted_cons.mp h
    by_cases hp : p (i, x) = true
    · rw [List.filter_cons_of_pos hp]
      exact nsorted_cons.mpr ⟨fun e he => h1 e (List.mem_filter.mp he).1, ih h2⟩
    · rw [List.filter_cons_of_neg hp]
      exact ih h2

theorem nsorted_nclear (m : NMap α) (lo hi : Nat) (h : nsorted m = true) : nsorted (nclear m lo hi) = true :=
  nsorted_filter m _ h

theorem nset_nset (m : NMap α) (k : Nat) (v w : α) : nset (nset m k v) k w = nset m k w := by
  induction m with
  | nil => simp [nset]
  | cons e r ih =>
    obtain ⟨i, x⟩ := e
    simp only [nset]
    split
    · simp [nset]
    · split
      · simp [nset]
      · rename_i h1 h2; simp [nset, h1, h2, ih]

end Sys2Proof.Machine
end

