-- ==== Sys2Proof/Laws/State.lean ====
section
/-! SUPPORT. What each update of the machine leaves of each field of the state, and what it sets the field it is for to. -/

namespace Sys2Proof.Machine

variable (s : State)

@[simp] theorem wr_pending (off : Nat) (w : Word) : (wr s off w).pending = s.pending := rfl
@[simp] theorem wr_fabric (off : Nat) (w : Word) : (wr s off w).fabric = s.fabric := rfl
@[simp] theorem wr_out (off : Nat) (w : Word) : (wr s off w).out = s.out := rfl
@[simp] theorem wr_fresh (off : Nat) (w : Word) : (wr s off w).fresh = s.fresh := rfl
@[simp] theorem wr_eff (off : Nat) (w : Word) : (wr s off w).eff = s.eff := rfl
@[simp] theorem wr_tb (off : Nat) (w : Word) : (wr s off w).tb = s.tb := rfl
@[simp] theorem wr_slices (off : Nat) (w : Word) : (wr s off w).slices = s.slices := rfl
@[simp] theorem wr_ports (off : Nat) (w : Word) : (wr s off w).ports = s.ports := rfl
@[simp] theorem wr_vls (off : Nat) (w : Word) : (wr s off w).vls = s.vls := rfl
@[simp] theorem wr_chans (off : Nat) (w : Word) : (wr s off w).chans = s.chans := rfl
@[simp] theorem wr_dram (off : Nat) (w : Word) : (wr s off w).dram = s.dram := rfl
@[simp] theorem wr_cis (off : Nat) (w : Word) : (wr s off w).cis = s.cis := rfl
@[simp] theorem wr_mdata (off : Nat) (w : Word) : (wr s off w).mdata = s.mdata := rfl
@[simp] theorem wr_journal (off : Nat) (w : Word) : (wr s off w).journal = s.journal := rfl
@[simp] theorem wr_boots (off : Nat) (w : Word) : (wr s off w).boots = s.boots := rfl
@[simp] theorem wr_fws (off : Nat) (w : Word) : (wr s off w).fws = s.fws := rfl
@[simp] theorem wr_mops (off : Nat) (w : Word) : (wr s off w).mops = s.mops := rfl
@[simp] theorem wr_ckpt (off : Nat) (w : Word) : (wr s off w).ckpt = s.ckpt := rfl
@[simp] theorem wr_drain (off : Nat) (w : Word) : (wr s off w).drain = s.drain := rfl
@[simp] theorem wr_supply (off : Nat) (w : Word) : (wr s off w).supply = s.supply := rfl
@[simp] theorem wr_start (off : Nat) (w : Word) : (wr s off w).start = s.start := rfl
@[simp] theorem wr_commit (off : Nat) (w : Word) : (wr s off w).commit = s.commit := rfl
@[simp] theorem wr_mode (off : Nat) (w : Word) : (wr s off w).mode = s.mode := rfl
@[simp] theorem wr_seqs (off : Nat) (w : Word) : (wr s off w).seqs = s.seqs := rfl
@[simp] theorem wr_clk (off : Nat) (w : Word) : (wr s off w).clk = s.clk := rfl
@[simp] theorem wr_phu (off : Nat) (w : Word) : (wr s off w).phu = s.phu := rfl
@[simp] theorem wr_evq (off : Nat) (w : Word) : (wr s off w).evq = s.evq := rfl
@[simp] theorem wr_csrWaits (off : Nat) (w : Word) : (wr s off w).csrWaits = s.csrWaits := rfl
@[simp] theorem wr_snaps (off : Nat) (w : Word) : (wr s off w).snaps = s.snaps := rfl
@[simp] theorem wr_indOut (off : Nat) (w : Word) : (wr s off w).indOut = s.indOut := rfl
@[simp] theorem wr_pcie (off : Nat) (w : Word) : (wr s off w).pcie = s.pcie := rfl
@[simp] theorem wr_dmas (off : Nat) (w : Word) : (wr s off w).dmas = s.dmas := rfl
@[simp] theorem wr_mbxs (off : Nat) (w : Word) : (wr s off w).mbxs = s.mbxs := rfl
@[simp] theorem wr_dictq (off : Nat) (w : Word) : (wr s off w).dictq = s.dictq := rfl
@[simp] theorem wr_can (off : Nat) (w : Word) : (wr s off w).can = s.can := rfl
@[simp] theorem wr_sec (off : Nat) (w : Word) : (wr s off w).sec = s.sec := rfl
@[simp] theorem wr_mcu (off : Nat) (w : Word) : (wr s off w).mcu = s.mcu := rfl
@[simp] theorem wr_crcs (off : Nat) (w : Word) : (wr s off w).crcs = s.crcs := rfl
@[simp] theorem wr_msr (off : Nat) (w : Word) : (wr s off w).msr = s.msr := rfl
@[simp] theorem wr_fed (off : Nat) (w : Word) : (wr s off w).fed = s.fed := rfl
@[simp] theorem wr_csr (off : Nat) (w : Word) : (wr s off w).csr = nset s.csr off w := rfl

@[simp] theorem setF_pending (f : Fld) (v : Nat) : (setF s f v).pending = s.pending := rfl
@[simp] theorem setF_fabric (f : Fld) (v : Nat) : (setF s f v).fabric = s.fabric := rfl
@[simp] theorem setF_out (f : Fld) (v : Nat) : (setF s f v).out = s.out := rfl
@[simp] theorem setF_fresh (f : Fld) (v : Nat) : (setF s f v).fresh = s.fresh := rfl
@[simp] theorem setF_eff (f : Fld) (v : Nat) : (setF s f v).eff = s.eff := rfl
@[simp] theorem setF_tb (f : Fld) (v : Nat) : (setF s f v).tb = s.tb := rfl
@[simp] theorem setF_slices (f : Fld) (v : Nat) : (setF s f v).slices = s.slices := rfl
@[simp] theorem setF_ports (f : Fld) (v : Nat) : (setF s f v).ports = s.ports := rfl
@[simp] theorem setF_vls (f : Fld) (v : Nat) : (setF s f v).vls = s.vls := rfl
@[simp] theorem setF_chans (f : Fld) (v : Nat) : (setF s f v).chans = s.chans := rfl
@[simp] theorem setF_dram (f : Fld) (v : Nat) : (setF s f v).dram = s.dram := rfl
@[simp] theorem setF_cis (f : Fld) (v : Nat) : (setF s f v).cis = s.cis := rfl
@[simp] theorem setF_mdata (f : Fld) (v : Nat) : (setF s f v).mdata = s.mdata := rfl
@[simp] theorem setF_journal (f : Fld) (v : Nat) : (setF s f v).journal = s.journal := rfl
@[simp] theorem setF_boots (f : Fld) (v : Nat) : (setF s f v).boots = s.boots := rfl
@[simp] theorem setF_fws (f : Fld) (v : Nat) : (setF s f v).fws = s.fws := rfl
@[simp] theorem setF_mops (f : Fld) (v : Nat) : (setF s f v).mops = s.mops := rfl
@[simp] theorem setF_ckpt (f : Fld) (v : Nat) : (setF s f v).ckpt = s.ckpt := rfl
@[simp] theorem setF_drain (f : Fld) (v : Nat) : (setF s f v).drain = s.drain := rfl
@[simp] theorem setF_supply (f : Fld) (v : Nat) : (setF s f v).supply = s.supply := rfl
@[simp] theorem setF_start (f : Fld) (v : Nat) : (setF s f v).start = s.start := rfl
@[simp] theorem setF_commit (f : Fld) (v : Nat) : (setF s f v).commit = s.commit := rfl
@[simp] theorem setF_mode (f : Fld) (v : Nat) : (setF s f v).mode = s.mode := rfl
@[simp] theorem setF_seqs (f : Fld) (v : Nat) : (setF s f v).seqs = s.seqs := rfl
@[simp] theorem setF_clk (f : Fld) (v : Nat) : (setF s f v).clk = s.clk := rfl
@[simp] theorem setF_phu (f : Fld) (v : Nat) : (setF s f v).phu = s.phu := rfl
@[simp] theorem setF_evq (f : Fld) (v : Nat) : (setF s f v).evq = s.evq := rfl
@[simp] theorem setF_csrWaits (f : Fld) (v : Nat) : (setF s f v).csrWaits = s.csrWaits := rfl
@[simp] theorem setF_snaps (f : Fld) (v : Nat) : (setF s f v).snaps = s.snaps := rfl
@[simp] theorem setF_indOut (f : Fld) (v : Nat) : (setF s f v).indOut = s.indOut := rfl
@[simp] theorem setF_pcie (f : Fld) (v : Nat) : (setF s f v).pcie = s.pcie := rfl
@[simp] theorem setF_dmas (f : Fld) (v : Nat) : (setF s f v).dmas = s.dmas := rfl
@[simp] theorem setF_mbxs (f : Fld) (v : Nat) : (setF s f v).mbxs = s.mbxs := rfl
@[simp] theorem setF_dictq (f : Fld) (v : Nat) : (setF s f v).dictq = s.dictq := rfl
@[simp] theorem setF_can (f : Fld) (v : Nat) : (setF s f v).can = s.can := rfl
@[simp] theorem setF_sec (f : Fld) (v : Nat) : (setF s f v).sec = s.sec := rfl
@[simp] theorem setF_mcu (f : Fld) (v : Nat) : (setF s f v).mcu = s.mcu := rfl
@[simp] theorem setF_crcs (f : Fld) (v : Nat) : (setF s f v).crcs = s.crcs := rfl
@[simp] theorem setF_msr (f : Fld) (v : Nat) : (setF s f v).msr = s.msr := rfl
@[simp] theorem setF_fed (f : Fld) (v : Nat) : (setF s f v).fed = s.fed := rfl

@[simp] theorem flag_pending (f : Fld) : (flag s f).pending = s.pending := rfl
@[simp] theorem flag_fabric (f : Fld) : (flag s f).fabric = s.fabric := rfl
@[simp] theorem flag_out (f : Fld) : (flag s f).out = s.out := rfl
@[simp] theorem flag_fresh (f : Fld) : (flag s f).fresh = s.fresh := rfl
@[simp] theorem flag_eff (f : Fld) : (flag s f).eff = s.eff := rfl
@[simp] theorem flag_tb (f : Fld) : (flag s f).tb = s.tb := rfl
@[simp] theorem flag_slices (f : Fld) : (flag s f).slices = s.slices := rfl
@[simp] theorem flag_ports (f : Fld) : (flag s f).ports = s.ports := rfl
@[simp] theorem flag_vls (f : Fld) : (flag s f).vls = s.vls := rfl
@[simp] theorem flag_chans (f : Fld) : (flag s f).chans = s.chans := rfl
@[simp] theorem flag_dram (f : Fld) : (flag s f).dram = s.dram := rfl
@[simp] theorem flag_cis (f : Fld) : (flag s f).cis = s.cis := rfl
@[simp] theorem flag_mdata (f : Fld) : (flag s f).mdata = s.mdata := rfl
@[simp] theorem flag_journal (f : Fld) : (flag s f).journal = s.journal := rfl
@[simp] theorem flag_boots (f : Fld) : (flag s f).boots = s.boots := rfl
@[simp] theorem flag_fws (f : Fld) : (flag s f).fws = s.fws := rfl
@[simp] theorem flag_mops (f : Fld) : (flag s f).mops = s.mops := rfl
@[simp] theorem flag_ckpt (f : Fld) : (flag s f).ckpt = s.ckpt := rfl
@[simp] theorem flag_drain (f : Fld) : (flag s f).drain = s.drain := rfl
@[simp] theorem flag_supply (f : Fld) : (flag s f).supply = s.supply := rfl
@[simp] theorem flag_start (f : Fld) : (flag s f).start = s.start := rfl
@[simp] theorem flag_commit (f : Fld) : (flag s f).commit = s.commit := rfl
@[simp] theorem flag_mode (f : Fld) : (flag s f).mode = s.mode := rfl
@[simp] theorem flag_seqs (f : Fld) : (flag s f).seqs = s.seqs := rfl
@[simp] theorem flag_clk (f : Fld) : (flag s f).clk = s.clk := rfl
@[simp] theorem flag_phu (f : Fld) : (flag s f).phu = s.phu := rfl
@[simp] theorem flag_evq (f : Fld) : (flag s f).evq = s.evq := rfl
@[simp] theorem flag_csrWaits (f : Fld) : (flag s f).csrWaits = s.csrWaits := rfl
@[simp] theorem flag_snaps (f : Fld) : (flag s f).snaps = s.snaps := rfl
@[simp] theorem flag_indOut (f : Fld) : (flag s f).indOut = s.indOut := rfl
@[simp] theorem flag_pcie (f : Fld) : (flag s f).pcie = s.pcie := rfl
@[simp] theorem flag_dmas (f : Fld) : (flag s f).dmas = s.dmas := rfl
@[simp] theorem flag_mbxs (f : Fld) : (flag s f).mbxs = s.mbxs := rfl
@[simp] theorem flag_dictq (f : Fld) : (flag s f).dictq = s.dictq := rfl
@[simp] theorem flag_can (f : Fld) : (flag s f).can = s.can := rfl
@[simp] theorem flag_sec (f : Fld) : (flag s f).sec = s.sec := rfl
@[simp] theorem flag_mcu (f : Fld) : (flag s f).mcu = s.mcu := rfl
@[simp] theorem flag_crcs (f : Fld) : (flag s f).crcs = s.crcs := rfl
@[simp] theorem flag_msr (f : Fld) : (flag s f).msr = s.msr := rfl
@[simp] theorem flag_fed (f : Fld) : (flag s f).fed = s.fed := rfl

@[simp] theorem setPair_pending (lo hi : Nat) (v : BitVec 64) : (setPair s lo hi v).pending = s.pending := rfl
@[simp] theorem setPair_fabric (lo hi : Nat) (v : BitVec 64) : (setPair s lo hi v).fabric = s.fabric := rfl
@[simp] theorem setPair_out (lo hi : Nat) (v : BitVec 64) : (setPair s lo hi v).out = s.out := rfl
@[simp] theorem setPair_fresh (lo hi : Nat) (v : BitVec 64) : (setPair s lo hi v).fresh = s.fresh := rfl
@[simp] theorem setPair_eff (lo hi : Nat) (v : BitVec 64) : (setPair s lo hi v).eff = s.eff := rfl
@[simp] theorem setPair_tb (lo hi : Nat) (v : BitVec 64) : (setPair s lo hi v).tb = s.tb := rfl
@[simp] theorem setPair_slices (lo hi : Nat) (v : BitVec 64) : (setPair s lo hi v).slices = s.slices := rfl
@[simp] theorem setPair_ports (lo hi : Nat) (v : BitVec 64) : (setPair s lo hi v).ports = s.ports := rfl
@[simp] theorem setPair_vls (lo hi : Nat) (v : BitVec 64) : (setPair s lo hi v).vls = s.vls := rfl
@[simp] theorem setPair_chans (lo hi : Nat) (v : BitVec 64) : (setPair s lo hi v).chans = s.chans := rfl
@[simp] theorem setPair_dram (lo hi : Nat) (v : BitVec 64) : (setPair s lo hi v).dram = s.dram := rfl
@[simp] theorem setPair_cis (lo hi : Nat) (v : BitVec 64) : (setPair s lo hi v).cis = s.cis := rfl
@[simp] theorem setPair_mdata (lo hi : Nat) (v : BitVec 64) : (setPair s lo hi v).mdata = s.mdata := rfl
@[simp] theorem setPair_journal (lo hi : Nat) (v : BitVec 64) : (setPair s lo hi v).journal = s.journal := rfl
@[simp] theorem setPair_boots (lo hi : Nat) (v : BitVec 64) : (setPair s lo hi v).boots = s.boots := rfl
@[simp] theorem setPair_fws (lo hi : Nat) (v : BitVec 64) : (setPair s lo hi v).fws = s.fws := rfl
@[simp] theorem setPair_mops (lo hi : Nat) (v : BitVec 64) : (setPair s lo hi v).mops = s.mops := rfl
@[simp] theorem setPair_ckpt (lo hi : Nat) (v : BitVec 64) : (setPair s lo hi v).ckpt = s.ckpt := rfl
@[simp] theorem setPair_drain (lo hi : Nat) (v : BitVec 64) : (setPair s lo hi v).drain = s.drain := rfl
@[simp] theorem setPair_supply (lo hi : Nat) (v : BitVec 64) : (setPair s lo hi v).supply = s.supply := rfl
@[simp] theorem setPair_start (lo hi : Nat) (v : BitVec 64) : (setPair s lo hi v).start = s.start := rfl
@[simp] theorem setPair_commit (lo hi : Nat) (v : BitVec 64) : (setPair s lo hi v).commit = s.commit := rfl
@[simp] theorem setPair_mode (lo hi : Nat) (v : BitVec 64) : (setPair s lo hi v).mode = s.mode := rfl
@[simp] theorem setPair_seqs (lo hi : Nat) (v : BitVec 64) : (setPair s lo hi v).seqs = s.seqs := rfl
@[simp] theorem setPair_clk (lo hi : Nat) (v : BitVec 64) : (setPair s lo hi v).clk = s.clk := rfl
@[simp] theorem setPair_phu (lo hi : Nat) (v : BitVec 64) : (setPair s lo hi v).phu = s.phu := rfl
@[simp] theorem setPair_evq (lo hi : Nat) (v : BitVec 64) : (setPair s lo hi v).evq = s.evq := rfl
@[simp] theorem setPair_csrWaits (lo hi : Nat) (v : BitVec 64) : (setPair s lo hi v).csrWaits = s.csrWaits := rfl
@[simp] theorem setPair_snaps (lo hi : Nat) (v : BitVec 64) : (setPair s lo hi v).snaps = s.snaps := rfl
@[simp] theorem setPair_indOut (lo hi : Nat) (v : BitVec 64) : (setPair s lo hi v).indOut = s.indOut := rfl
@[simp] theorem setPair_pcie (lo hi : Nat) (v : BitVec 64) : (setPair s lo hi v).pcie = s.pcie := rfl
@[simp] theorem setPair_dmas (lo hi : Nat) (v : BitVec 64) : (setPair s lo hi v).dmas = s.dmas := rfl
@[simp] theorem setPair_mbxs (lo hi : Nat) (v : BitVec 64) : (setPair s lo hi v).mbxs = s.mbxs := rfl
@[simp] theorem setPair_dictq (lo hi : Nat) (v : BitVec 64) : (setPair s lo hi v).dictq = s.dictq := rfl
@[simp] theorem setPair_can (lo hi : Nat) (v : BitVec 64) : (setPair s lo hi v).can = s.can := rfl
@[simp] theorem setPair_sec (lo hi : Nat) (v : BitVec 64) : (setPair s lo hi v).sec = s.sec := rfl
@[simp] theorem setPair_mcu (lo hi : Nat) (v : BitVec 64) : (setPair s lo hi v).mcu = s.mcu := rfl
@[simp] theorem setPair_crcs (lo hi : Nat) (v : BitVec 64) : (setPair s lo hi v).crcs = s.crcs := rfl
@[simp] theorem setPair_msr (lo hi : Nat) (v : BitVec 64) : (setPair s lo hi v).msr = s.msr := rfl
@[simp] theorem setPair_fed (lo hi : Nat) (v : BitVec 64) : (setPair s lo hi v).fed = s.fed := rfl

@[simp] theorem setEff_pending (off : Nat) (w : Word) : (setEff s off w).pending = s.pending := rfl
@[simp] theorem setEff_fabric (off : Nat) (w : Word) : (setEff s off w).fabric = s.fabric := rfl
@[simp] theorem setEff_out (off : Nat) (w : Word) : (setEff s off w).out = s.out := rfl
@[simp] theorem setEff_fresh (off : Nat) (w : Word) : (setEff s off w).fresh = s.fresh := rfl
@[simp] theorem setEff_csr (off : Nat) (w : Word) : (setEff s off w).csr = s.csr := rfl
@[simp] theorem setEff_tb (off : Nat) (w : Word) : (setEff s off w).tb = s.tb := rfl
@[simp] theorem setEff_slices (off : Nat) (w : Word) : (setEff s off w).slices = s.slices := rfl
@[simp] theorem setEff_ports (off : Nat) (w : Word) : (setEff s off w).ports = s.ports := rfl
@[simp] theorem setEff_vls (off : Nat) (w : Word) : (setEff s off w).vls = s.vls := rfl
@[simp] theorem setEff_chans (off : Nat) (w : Word) : (setEff s off w).chans = s.chans := rfl
@[simp] theorem setEff_dram (off : Nat) (w : Word) : (setEff s off w).dram = s.dram := rfl
@[simp] theorem setEff_cis (off : Nat) (w : Word) : (setEff s off w).cis = s.cis := rfl
@[simp] theorem setEff_mdata (off : Nat) (w : Word) : (setEff s off w).mdata = s.mdata := rfl
@[simp] theorem setEff_journal (off : Nat) (w : Word) : (setEff s off w).journal = s.journal := rfl
@[simp] theorem setEff_boots (off : Nat) (w : Word) : (setEff s off w).boots = s.boots := rfl
@[simp] theorem setEff_fws (off : Nat) (w : Word) : (setEff s off w).fws = s.fws := rfl
@[simp] theorem setEff_mops (off : Nat) (w : Word) : (setEff s off w).mops = s.mops := rfl
@[simp] theorem setEff_ckpt (off : Nat) (w : Word) : (setEff s off w).ckpt = s.ckpt := rfl
@[simp] theorem setEff_drain (off : Nat) (w : Word) : (setEff s off w).drain = s.drain := rfl
@[simp] theorem setEff_supply (off : Nat) (w : Word) : (setEff s off w).supply = s.supply := rfl
@[simp] theorem setEff_start (off : Nat) (w : Word) : (setEff s off w).start = s.start := rfl
@[simp] theorem setEff_commit (off : Nat) (w : Word) : (setEff s off w).commit = s.commit := rfl
@[simp] theorem setEff_mode (off : Nat) (w : Word) : (setEff s off w).mode = s.mode := rfl
@[simp] theorem setEff_seqs (off : Nat) (w : Word) : (setEff s off w).seqs = s.seqs := rfl
@[simp] theorem setEff_clk (off : Nat) (w : Word) : (setEff s off w).clk = s.clk := rfl
@[simp] theorem setEff_phu (off : Nat) (w : Word) : (setEff s off w).phu = s.phu := rfl
@[simp] theorem setEff_evq (off : Nat) (w : Word) : (setEff s off w).evq = s.evq := rfl
@[simp] theorem setEff_csrWaits (off : Nat) (w : Word) : (setEff s off w).csrWaits = s.csrWaits := rfl
@[simp] theorem setEff_snaps (off : Nat) (w : Word) : (setEff s off w).snaps = s.snaps := rfl
@[simp] theorem setEff_indOut (off : Nat) (w : Word) : (setEff s off w).indOut = s.indOut := rfl
@[simp] theorem setEff_pcie (off : Nat) (w : Word) : (setEff s off w).pcie = s.pcie := rfl
@[simp] theorem setEff_dmas (off : Nat) (w : Word) : (setEff s off w).dmas = s.dmas := rfl
@[simp] theorem setEff_mbxs (off : Nat) (w : Word) : (setEff s off w).mbxs = s.mbxs := rfl
@[simp] theorem setEff_dictq (off : Nat) (w : Word) : (setEff s off w).dictq = s.dictq := rfl
@[simp] theorem setEff_can (off : Nat) (w : Word) : (setEff s off w).can = s.can := rfl
@[simp] theorem setEff_sec (off : Nat) (w : Word) : (setEff s off w).sec = s.sec := rfl
@[simp] theorem setEff_mcu (off : Nat) (w : Word) : (setEff s off w).mcu = s.mcu := rfl
@[simp] theorem setEff_crcs (off : Nat) (w : Word) : (setEff s off w).crcs = s.crcs := rfl
@[simp] theorem setEff_msr (off : Nat) (w : Word) : (setEff s off w).msr = s.msr := rfl
@[simp] theorem setEff_fed (off : Nat) (w : Word) : (setEff s off w).fed = s.fed := rfl
@[simp] theorem setEff_eff (off : Nat) (w : Word) : (setEff s off w).eff = nset s.eff off w := rfl

@[simp] theorem resetRange_pending (lo hi : Nat) : (resetRange s lo hi).pending = s.pending := rfl
@[simp] theorem resetRange_fabric (lo hi : Nat) : (resetRange s lo hi).fabric = s.fabric := rfl
@[simp] theorem resetRange_out (lo hi : Nat) : (resetRange s lo hi).out = s.out := rfl
@[simp] theorem resetRange_fresh (lo hi : Nat) : (resetRange s lo hi).fresh = s.fresh := rfl
@[simp] theorem resetRange_tb (lo hi : Nat) : (resetRange s lo hi).tb = s.tb := rfl
@[simp] theorem resetRange_slices (lo hi : Nat) : (resetRange s lo hi).slices = s.slices := rfl
@[simp] theorem resetRange_ports (lo hi : Nat) : (resetRange s lo hi).ports = s.ports := rfl
@[simp] theorem resetRange_vls (lo hi : Nat) : (resetRange s lo hi).vls = s.vls := rfl
@[simp] theorem resetRange_chans (lo hi : Nat) : (resetRange s lo hi).chans = s.chans := rfl
@[simp] theorem resetRange_dram (lo hi : Nat) : (resetRange s lo hi).dram = s.dram := rfl
@[simp] theorem resetRange_cis (lo hi : Nat) : (resetRange s lo hi).cis = s.cis := rfl
@[simp] theorem resetRange_mdata (lo hi : Nat) : (resetRange s lo hi).mdata = s.mdata := rfl
@[simp] theorem resetRange_journal (lo hi : Nat) : (resetRange s lo hi).journal = s.journal := rfl
@[simp] theorem resetRange_boots (lo hi : Nat) : (resetRange s lo hi).boots = s.boots := rfl
@[simp] theorem resetRange_fws (lo hi : Nat) : (resetRange s lo hi).fws = s.fws := rfl
@[simp] theorem resetRange_mops (lo hi : Nat) : (resetRange s lo hi).mops = s.mops := rfl
@[simp] theorem resetRange_ckpt (lo hi : Nat) : (resetRange s lo hi).ckpt = s.ckpt := rfl
@[simp] theorem resetRange_drain (lo hi : Nat) : (resetRange s lo hi).drain = s.drain := rfl
@[simp] theorem resetRange_supply (lo hi : Nat) : (resetRange s lo hi).supply = s.supply := rfl
@[simp] theorem resetRange_start (lo hi : Nat) : (resetRange s lo hi).start = s.start := rfl
@[simp] theorem resetRange_commit (lo hi : Nat) : (resetRange s lo hi).commit = s.commit := rfl
@[simp] theorem resetRange_mode (lo hi : Nat) : (resetRange s lo hi).mode = s.mode := rfl
@[simp] theorem resetRange_seqs (lo hi : Nat) : (resetRange s lo hi).seqs = s.seqs := rfl
@[simp] theorem resetRange_clk (lo hi : Nat) : (resetRange s lo hi).clk = s.clk := rfl
@[simp] theorem resetRange_phu (lo hi : Nat) : (resetRange s lo hi).phu = s.phu := rfl
@[simp] theorem resetRange_evq (lo hi : Nat) : (resetRange s lo hi).evq = s.evq := rfl
@[simp] theorem resetRange_csrWaits (lo hi : Nat) : (resetRange s lo hi).csrWaits = s.csrWaits := rfl
@[simp] theorem resetRange_indOut (lo hi : Nat) : (resetRange s lo hi).indOut = s.indOut := rfl
@[simp] theorem resetRange_pcie (lo hi : Nat) : (resetRange s lo hi).pcie = s.pcie := rfl
@[simp] theorem resetRange_dmas (lo hi : Nat) : (resetRange s lo hi).dmas = s.dmas := rfl
@[simp] theorem resetRange_mbxs (lo hi : Nat) : (resetRange s lo hi).mbxs = s.mbxs := rfl
@[simp] theorem resetRange_dictq (lo hi : Nat) : (resetRange s lo hi).dictq = s.dictq := rfl
@[simp] theorem resetRange_can (lo hi : Nat) : (resetRange s lo hi).can = s.can := rfl
@[simp] theorem resetRange_sec (lo hi : Nat) : (resetRange s lo hi).sec = s.sec := rfl
@[simp] theorem resetRange_mcu (lo hi : Nat) : (resetRange s lo hi).mcu = s.mcu := rfl
@[simp] theorem resetRange_crcs (lo hi : Nat) : (resetRange s lo hi).crcs = s.crcs := rfl
@[simp] theorem resetRange_msr (lo hi : Nat) : (resetRange s lo hi).msr = s.msr := rfl
@[simp] theorem resetRange_fed (lo hi : Nat) : (resetRange s lo hi).fed = s.fed := rfl

@[simp] theorem setSlice_pending (n : Nat) (x : Slice) : (setSlice s n x).pending = s.pending := rfl
@[simp] theorem setSlice_fabric (n : Nat) (x : Slice) : (setSlice s n x).fabric = s.fabric := rfl
@[simp] theorem setSlice_out (n : Nat) (x : Slice) : (setSlice s n x).out = s.out := rfl
@[simp] theorem setSlice_fresh (n : Nat) (x : Slice) : (setSlice s n x).fresh = s.fresh := rfl
@[simp] theorem setSlice_csr (n : Nat) (x : Slice) : (setSlice s n x).csr = s.csr := rfl
@[simp] theorem setSlice_eff (n : Nat) (x : Slice) : (setSlice s n x).eff = s.eff := rfl
@[simp] theorem setSlice_tb (n : Nat) (x : Slice) : (setSlice s n x).tb = s.tb := rfl
@[simp] theorem setSlice_ports (n : Nat) (x : Slice) : (setSlice s n x).ports = s.ports := rfl
@[simp] theorem setSlice_vls (n : Nat) (x : Slice) : (setSlice s n x).vls = s.vls := rfl
@[simp] theorem setSlice_chans (n : Nat) (x : Slice) : (setSlice s n x).chans = s.chans := rfl
@[simp] theorem setSlice_dram (n : Nat) (x : Slice) : (setSlice s n x).dram = s.dram := rfl
@[simp] theorem setSlice_cis (n : Nat) (x : Slice) : (setSlice s n x).cis = s.cis := rfl
@[simp] theorem setSlice_mdata (n : Nat) (x : Slice) : (setSlice s n x).mdata = s.mdata := rfl
@[simp] theorem setSlice_journal (n : Nat) (x : Slice) : (setSlice s n x).journal = s.journal := rfl
@[simp] theorem setSlice_boots (n : Nat) (x : Slice) : (setSlice s n x).boots = s.boots := rfl
@[simp] theorem setSlice_fws (n : Nat) (x : Slice) : (setSlice s n x).fws = s.fws := rfl
@[simp] theorem setSlice_mops (n : Nat) (x : Slice) : (setSlice s n x).mops = s.mops := rfl
@[simp] theorem setSlice_ckpt (n : Nat) (x : Slice) : (setSlice s n x).ckpt = s.ckpt := rfl
@[simp] theorem setSlice_drain (n : Nat) (x : Slice) : (setSlice s n x).drain = s.drain := rfl
@[simp] theorem setSlice_supply (n : Nat) (x : Slice) : (setSlice s n x).supply = s.supply := rfl
@[simp] theorem setSlice_start (n : Nat) (x : Slice) : (setSlice s n x).start = s.start := rfl
@[simp] theorem setSlice_commit (n : Nat) (x : Slice) : (setSlice s n x).commit = s.commit := rfl
@[simp] theorem setSlice_mode (n : Nat) (x : Slice) : (setSlice s n x).mode = s.mode := rfl
@[simp] theorem setSlice_seqs (n : Nat) (x : Slice) : (setSlice s n x).seqs = s.seqs := rfl
@[simp] theorem setSlice_clk (n : Nat) (x : Slice) : (setSlice s n x).clk = s.clk := rfl
@[simp] theorem setSlice_phu (n : Nat) (x : Slice) : (setSlice s n x).phu = s.phu := rfl
@[simp] theorem setSlice_evq (n : Nat) (x : Slice) : (setSlice s n x).evq = s.evq := rfl
@[simp] theorem setSlice_csrWaits (n : Nat) (x : Slice) : (setSlice s n x).csrWaits = s.csrWaits := rfl
@[simp] theorem setSlice_snaps (n : Nat) (x : Slice) : (setSlice s n x).snaps = s.snaps := rfl
@[simp] theorem setSlice_indOut (n : Nat) (x : Slice) : (setSlice s n x).indOut = s.indOut := rfl
@[simp] theorem setSlice_pcie (n : Nat) (x : Slice) : (setSlice s n x).pcie = s.pcie := rfl
@[simp] theorem setSlice_dmas (n : Nat) (x : Slice) : (setSlice s n x).dmas = s.dmas := rfl
@[simp] theorem setSlice_mbxs (n : Nat) (x : Slice) : (setSlice s n x).mbxs = s.mbxs := rfl
@[simp] theorem setSlice_dictq (n : Nat) (x : Slice) : (setSlice s n x).dictq = s.dictq := rfl
@[simp] theorem setSlice_can (n : Nat) (x : Slice) : (setSlice s n x).can = s.can := rfl
@[simp] theorem setSlice_sec (n : Nat) (x : Slice) : (setSlice s n x).sec = s.sec := rfl
@[simp] theorem setSlice_mcu (n : Nat) (x : Slice) : (setSlice s n x).mcu = s.mcu := rfl
@[simp] theorem setSlice_crcs (n : Nat) (x : Slice) : (setSlice s n x).crcs = s.crcs := rfl
@[simp] theorem setSlice_msr (n : Nat) (x : Slice) : (setSlice s n x).msr = s.msr := rfl
@[simp] theorem setSlice_fed (n : Nat) (x : Slice) : (setSlice s n x).fed = s.fed := rfl
@[simp] theorem setSlice_slices (n : Nat) (x : Slice) : (setSlice s n x).slices = nset s.slices n x := rfl

@[simp] theorem setPort_pending (p : Nat) (x : Port) : (setPort s p x).pending = s.pending := rfl
@[simp] theorem setPort_fabric (p : Nat) (x : Port) : (setPort s p x).fabric = s.fabric := rfl
@[simp] theorem setPort_out (p : Nat) (x : Port) : (setPort s p x).out = s.out := rfl
@[simp] theorem setPort_fresh (p : Nat) (x : Port) : (setPort s p x).fresh = s.fresh := rfl
@[simp] theorem setPort_csr (p : Nat) (x : Port) : (setPort s p x).csr = s.csr := rfl
@[simp] theorem setPort_eff (p : Nat) (x : Port) : (setPort s p x).eff = s.eff := rfl
@[simp] theorem setPort_tb (p : Nat) (x : Port) : (setPort s p x).tb = s.tb := rfl
@[simp] theorem setPort_slices (p : Nat) (x : Port) : (setPort s p x).slices = s.slices := rfl
@[simp] theorem setPort_vls (p : Nat) (x : Port) : (setPort s p x).vls = s.vls := rfl
@[simp] theorem setPort_chans (p : Nat) (x : Port) : (setPort s p x).chans = s.chans := rfl
@[simp] theorem setPort_dram (p : Nat) (x : Port) : (setPort s p x).dram = s.dram := rfl
@[simp] theorem setPort_cis (p : Nat) (x : Port) : (setPort s p x).cis = s.cis := rfl
@[simp] theorem setPort_mdata (p : Nat) (x : Port) : (setPort s p x).mdata = s.mdata := rfl
@[simp] theorem setPort_journal (p : Nat) (x : Port) : (setPort s p x).journal = s.journal := rfl
@[simp] theorem setPort_boots (p : Nat) (x : Port) : (setPort s p x).boots = s.boots := rfl
@[simp] theorem setPort_fws (p : Nat) (x : Port) : (setPort s p x).fws = s.fws := rfl
@[simp] theorem setPort_mops (p : Nat) (x : Port) : (setPort s p x).mops = s.mops := rfl
@[simp] theorem setPort_ckpt (p : Nat) (x : Port) : (setPort s p x).ckpt = s.ckpt := rfl
@[simp] theorem setPort_drain (p : Nat) (x : Port) : (setPort s p x).drain = s.drain := rfl
@[simp] theorem setPort_supply (p : Nat) (x : Port) : (setPort s p x).supply = s.supply := rfl
@[simp] theorem setPort_start (p : Nat) (x : Port) : (setPort s p x).start = s.start := rfl
@[simp] theorem setPort_commit (p : Nat) (x : Port) : (setPort s p x).commit = s.commit := rfl
@[simp] theorem setPort_mode (p : Nat) (x : Port) : (setPort s p x).mode = s.mode := rfl
@[simp] theorem setPort_seqs (p : Nat) (x : Port) : (setPort s p x).seqs = s.seqs := rfl
@[simp] theorem setPort_clk (p : Nat) (x : Port) : (setPort s p x).clk = s.clk := rfl
@[simp] theorem setPort_phu (p : Nat) (x : Port) : (setPort s p x).phu = s.phu := rfl
@[simp] theorem setPort_evq (p : Nat) (x : Port) : (setPort s p x).evq = s.evq := rfl
@[simp] theorem setPort_csrWaits (p : Nat) (x : Port) : (setPort s p x).csrWaits = s.csrWaits := rfl
@[simp] theorem setPort_snaps (p : Nat) (x : Port) : (setPort s p x).snaps = s.snaps := rfl
@[simp] theorem setPort_indOut (p : Nat) (x : Port) : (setPort s p x).indOut = s.indOut := rfl
@[simp] theorem setPort_pcie (p : Nat) (x : Port) : (setPort s p x).pcie = s.pcie := rfl
@[simp] theorem setPort_dmas (p : Nat) (x : Port) : (setPort s p x).dmas = s.dmas := rfl
@[simp] theorem setPort_mbxs (p : Nat) (x : Port) : (setPort s p x).mbxs = s.mbxs := rfl
@[simp] theorem setPort_dictq (p : Nat) (x : Port) : (setPort s p x).dictq = s.dictq := rfl
@[simp] theorem setPort_can (p : Nat) (x : Port) : (setPort s p x).can = s.can := rfl
@[simp] theorem setPort_sec (p : Nat) (x : Port) : (setPort s p x).sec = s.sec := rfl
@[simp] theorem setPort_mcu (p : Nat) (x : Port) : (setPort s p x).mcu = s.mcu := rfl
@[simp] theorem setPort_crcs (p : Nat) (x : Port) : (setPort s p x).crcs = s.crcs := rfl
@[simp] theorem setPort_msr (p : Nat) (x : Port) : (setPort s p x).msr = s.msr := rfl
@[simp] theorem setPort_fed (p : Nat) (x : Port) : (setPort s p x).fed = s.fed := rfl
@[simp] theorem setPort_ports (p : Nat) (x : Port) : (setPort s p x).ports = nset s.ports p x := rfl

@[simp] theorem setVl_pending (l : Nat) (x : Vl) : (setVl s l x).pending = s.pending := rfl
@[simp] theorem setVl_fabric (l : Nat) (x : Vl) : (setVl s l x).fabric = s.fabric := rfl
@[simp] theorem setVl_out (l : Nat) (x : Vl) : (setVl s l x).out = s.out := rfl
@[simp] theorem setVl_fresh (l : Nat) (x : Vl) : (setVl s l x).fresh = s.fresh := rfl
@[simp] theorem setVl_csr (l : Nat) (x : Vl) : (setVl s l x).csr = s.csr := rfl
@[simp] theorem setVl_eff (l : Nat) (x : Vl) : (setVl s l x).eff = s.eff := rfl
@[simp] theorem setVl_tb (l : Nat) (x : Vl) : (setVl s l x).tb = s.tb := rfl
@[simp] theorem setVl_slices (l : Nat) (x : Vl) : (setVl s l x).slices = s.slices := rfl
@[simp] theorem setVl_ports (l : Nat) (x : Vl) : (setVl s l x).ports = s.ports := rfl
@[simp] theorem setVl_chans (l : Nat) (x : Vl) : (setVl s l x).chans = s.chans := rfl
@[simp] theorem setVl_dram (l : Nat) (x : Vl) : (setVl s l x).dram = s.dram := rfl
@[simp] theorem setVl_cis (l : Nat) (x : Vl) : (setVl s l x).cis = s.cis := rfl
@[simp] theorem setVl_mdata (l : Nat) (x : Vl) : (setVl s l x).mdata = s.mdata := rfl
@[simp] theorem setVl_journal (l : Nat) (x : Vl) : (setVl s l x).journal = s.journal := rfl
@[simp] theorem setVl_boots (l : Nat) (x : Vl) : (setVl s l x).boots = s.boots := rfl
@[simp] theorem setVl_fws (l : Nat) (x : Vl) : (setVl s l x).fws = s.fws := rfl
@[simp] theorem setVl_mops (l : Nat) (x : Vl) : (setVl s l x).mops = s.mops := rfl
@[simp] theorem setVl_ckpt (l : Nat) (x : Vl) : (setVl s l x).ckpt = s.ckpt := rfl
@[simp] theorem setVl_drain (l : Nat) (x : Vl) : (setVl s l x).drain = s.drain := rfl
@[simp] theorem setVl_supply (l : Nat) (x : Vl) : (setVl s l x).supply = s.supply := rfl
@[simp] theorem setVl_start (l : Nat) (x : Vl) : (setVl s l x).start = s.start := rfl
@[simp] theorem setVl_commit (l : Nat) (x : Vl) : (setVl s l x).commit = s.commit := rfl
@[simp] theorem setVl_mode (l : Nat) (x : Vl) : (setVl s l x).mode = s.mode := rfl
@[simp] theorem setVl_seqs (l : Nat) (x : Vl) : (setVl s l x).seqs = s.seqs := rfl
@[simp] theorem setVl_clk (l : Nat) (x : Vl) : (setVl s l x).clk = s.clk := rfl
@[simp] theorem setVl_phu (l : Nat) (x : Vl) : (setVl s l x).phu = s.phu := rfl
@[simp] theorem setVl_evq (l : Nat) (x : Vl) : (setVl s l x).evq = s.evq := rfl
@[simp] theorem setVl_csrWaits (l : Nat) (x : Vl) : (setVl s l x).csrWaits = s.csrWaits := rfl
@[simp] theorem setVl_snaps (l : Nat) (x : Vl) : (setVl s l x).snaps = s.snaps := rfl
@[simp] theorem setVl_indOut (l : Nat) (x : Vl) : (setVl s l x).indOut = s.indOut := rfl
@[simp] theorem setVl_pcie (l : Nat) (x : Vl) : (setVl s l x).pcie = s.pcie := rfl
@[simp] theorem setVl_dmas (l : Nat) (x : Vl) : (setVl s l x).dmas = s.dmas := rfl
@[simp] theorem setVl_mbxs (l : Nat) (x : Vl) : (setVl s l x).mbxs = s.mbxs := rfl
@[simp] theorem setVl_dictq (l : Nat) (x : Vl) : (setVl s l x).dictq = s.dictq := rfl
@[simp] theorem setVl_can (l : Nat) (x : Vl) : (setVl s l x).can = s.can := rfl
@[simp] theorem setVl_sec (l : Nat) (x : Vl) : (setVl s l x).sec = s.sec := rfl
@[simp] theorem setVl_mcu (l : Nat) (x : Vl) : (setVl s l x).mcu = s.mcu := rfl
@[simp] theorem setVl_crcs (l : Nat) (x : Vl) : (setVl s l x).crcs = s.crcs := rfl
@[simp] theorem setVl_msr (l : Nat) (x : Vl) : (setVl s l x).msr = s.msr := rfl
@[simp] theorem setVl_fed (l : Nat) (x : Vl) : (setVl s l x).fed = s.fed := rfl
@[simp] theorem setVl_vls (l : Nat) (x : Vl) : (setVl s l x).vls = nset s.vls l x := rfl

@[simp] theorem setChan_pending (c : Nat) (x : Chan) : (setChan s c x).pending = s.pending := rfl
@[simp] theorem setChan_fabric (c : Nat) (x : Chan) : (setChan s c x).fabric = s.fabric := rfl
@[simp] theorem setChan_out (c : Nat) (x : Chan) : (setChan s c x).out = s.out := rfl
@[simp] theorem setChan_fresh (c : Nat) (x : Chan) : (setChan s c x).fresh = s.fresh := rfl
@[simp] theorem setChan_csr (c : Nat) (x : Chan) : (setChan s c x).csr = s.csr := rfl
@[simp] theorem setChan_eff (c : Nat) (x : Chan) : (setChan s c x).eff = s.eff := rfl
@[simp] theorem setChan_tb (c : Nat) (x : Chan) : (setChan s c x).tb = s.tb := rfl
@[simp] theorem setChan_slices (c : Nat) (x : Chan) : (setChan s c x).slices = s.slices := rfl
@[simp] theorem setChan_ports (c : Nat) (x : Chan) : (setChan s c x).ports = s.ports := rfl
@[simp] theorem setChan_vls (c : Nat) (x : Chan) : (setChan s c x).vls = s.vls := rfl
@[simp] theorem setChan_dram (c : Nat) (x : Chan) : (setChan s c x).dram = s.dram := rfl
@[simp] theorem setChan_cis (c : Nat) (x : Chan) : (setChan s c x).cis = s.cis := rfl
@[simp] theorem setChan_mdata (c : Nat) (x : Chan) : (setChan s c x).mdata = s.mdata := rfl
@[simp] theorem setChan_journal (c : Nat) (x : Chan) : (setChan s c x).journal = s.journal := rfl
@[simp] theorem setChan_boots (c : Nat) (x : Chan) : (setChan s c x).boots = s.boots := rfl
@[simp] theorem setChan_fws (c : Nat) (x : Chan) : (setChan s c x).fws = s.fws := rfl
@[simp] theorem setChan_mops (c : Nat) (x : Chan) : (setChan s c x).mops = s.mops := rfl
@[simp] theorem setChan_ckpt (c : Nat) (x : Chan) : (setChan s c x).ckpt = s.ckpt := rfl
@[simp] theorem setChan_drain (c : Nat) (x : Chan) : (setChan s c x).drain = s.drain := rfl
@[simp] theorem setChan_supply (c : Nat) (x : Chan) : (setChan s c x).supply = s.supply := rfl
@[simp] theorem setChan_start (c : Nat) (x : Chan) : (setChan s c x).start = s.start := rfl
@[simp] theorem setChan_commit (c : Nat) (x : Chan) : (setChan s c x).commit = s.commit := rfl
@[simp] theorem setChan_mode (c : Nat) (x : Chan) : (setChan s c x).mode = s.mode := rfl
@[simp] theorem setChan_seqs (c : Nat) (x : Chan) : (setChan s c x).seqs = s.seqs := rfl
@[simp] theorem setChan_clk (c : Nat) (x : Chan) : (setChan s c x).clk = s.clk := rfl
@[simp] theorem setChan_phu (c : Nat) (x : Chan) : (setChan s c x).phu = s.phu := rfl
@[simp] theorem setChan_evq (c : Nat) (x : Chan) : (setChan s c x).evq = s.evq := rfl
@[simp] theorem setChan_csrWaits (c : Nat) (x : Chan) : (setChan s c x).csrWaits = s.csrWaits := rfl
@[simp] theorem setChan_snaps (c : Nat) (x : Chan) : (setChan s c x).snaps = s.snaps := rfl
@[simp] theorem setChan_indOut (c : Nat) (x : Chan) : (setChan s c x).indOut = s.indOut := rfl
@[simp] theorem setChan_pcie (c : Nat) (x : Chan) : (setChan s c x).pcie = s.pcie := rfl
@[simp] theorem setChan_dmas (c : Nat) (x : Chan) : (setChan s c x).dmas = s.dmas := rfl
@[simp] theorem setChan_mbxs (c : Nat) (x : Chan) : (setChan s c x).mbxs = s.mbxs := rfl
@[simp] theorem setChan_dictq (c : Nat) (x : Chan) : (setChan s c x).dictq = s.dictq := rfl
@[simp] theorem setChan_can (c : Nat) (x : Chan) : (setChan s c x).can = s.can := rfl
@[simp] theorem setChan_sec (c : Nat) (x : Chan) : (setChan s c x).sec = s.sec := rfl
@[simp] theorem setChan_mcu (c : Nat) (x : Chan) : (setChan s c x).mcu = s.mcu := rfl
@[simp] theorem setChan_crcs (c : Nat) (x : Chan) : (setChan s c x).crcs = s.crcs := rfl
@[simp] theorem setChan_msr (c : Nat) (x : Chan) : (setChan s c x).msr = s.msr := rfl
@[simp] theorem setChan_fed (c : Nat) (x : Chan) : (setChan s c x).fed = s.fed := rfl
@[simp] theorem setChan_chans (c : Nat) (x : Chan) : (setChan s c x).chans = nset s.chans c x := rfl

@[simp] theorem setMop_pending (k : Nat) (x : Mop) : (setMop s k x).pending = s.pending := rfl
@[simp] theorem setMop_fabric (k : Nat) (x : Mop) : (setMop s k x).fabric = s.fabric := rfl
@[simp] theorem setMop_out (k : Nat) (x : Mop) : (setMop s k x).out = s.out := rfl
@[simp] theorem setMop_fresh (k : Nat) (x : Mop) : (setMop s k x).fresh = s.fresh := rfl
@[simp] theorem setMop_csr (k : Nat) (x : Mop) : (setMop s k x).csr = s.csr := rfl
@[simp] theorem setMop_eff (k : Nat) (x : Mop) : (setMop s k x).eff = s.eff := rfl
@[simp] theorem setMop_tb (k : Nat) (x : Mop) : (setMop s k x).tb = s.tb := rfl
@[simp] theorem setMop_slices (k : Nat) (x : Mop) : (setMop s k x).slices = s.slices := rfl
@[simp] theorem setMop_ports (k : Nat) (x : Mop) : (setMop s k x).ports = s.ports := rfl
@[simp] theorem setMop_vls (k : Nat) (x : Mop) : (setMop s k x).vls = s.vls := rfl
@[simp] theorem setMop_chans (k : Nat) (x : Mop) : (setMop s k x).chans = s.chans := rfl
@[simp] theorem setMop_dram (k : Nat) (x : Mop) : (setMop s k x).dram = s.dram := rfl
@[simp] theorem setMop_cis (k : Nat) (x : Mop) : (setMop s k x).cis = s.cis := rfl
@[simp] theorem setMop_mdata (k : Nat) (x : Mop) : (setMop s k x).mdata = s.mdata := rfl
@[simp] theorem setMop_journal (k : Nat) (x : Mop) : (setMop s k x).journal = s.journal := rfl
@[simp] theorem setMop_boots (k : Nat) (x : Mop) : (setMop s k x).boots = s.boots := rfl
@[simp] theorem setMop_fws (k : Nat) (x : Mop) : (setMop s k x).fws = s.fws := rfl
@[simp] theorem setMop_ckpt (k : Nat) (x : Mop) : (setMop s k x).ckpt = s.ckpt := rfl
@[simp] theorem setMop_drain (k : Nat) (x : Mop) : (setMop s k x).drain = s.drain := rfl
@[simp] theorem setMop_supply (k : Nat) (x : Mop) : (setMop s k x).supply = s.supply := rfl
@[simp] theorem setMop_start (k : Nat) (x : Mop) : (setMop s k x).start = s.start := rfl
@[simp] theorem setMop_commit (k : Nat) (x : Mop) : (setMop s k x).commit = s.commit := rfl
@[simp] theorem setMop_mode (k : Nat) (x : Mop) : (setMop s k x).mode = s.mode := rfl
@[simp] theorem setMop_seqs (k : Nat) (x : Mop) : (setMop s k x).seqs = s.seqs := rfl
@[simp] theorem setMop_clk (k : Nat) (x : Mop) : (setMop s k x).clk = s.clk := rfl
@[simp] theorem setMop_phu (k : Nat) (x : Mop) : (setMop s k x).phu = s.phu := rfl
@[simp] theorem setMop_evq (k : Nat) (x : Mop) : (setMop s k x).evq = s.evq := rfl
@[simp] theorem setMop_csrWaits (k : Nat) (x : Mop) : (setMop s k x).csrWaits = s.csrWaits := rfl
@[simp] theorem setMop_snaps (k : Nat) (x : Mop) : (setMop s k x).snaps = s.snaps := rfl
@[simp] theorem setMop_indOut (k : Nat) (x : Mop) : (setMop s k x).indOut = s.indOut := rfl
@[simp] theorem setMop_pcie (k : Nat) (x : Mop) : (setMop s k x).pcie = s.pcie := rfl
@[simp] theorem setMop_dmas (k : Nat) (x : Mop) : (setMop s k x).dmas = s.dmas := rfl
@[simp] theorem setMop_mbxs (k : Nat) (x : Mop) : (setMop s k x).mbxs = s.mbxs := rfl
@[simp] theorem setMop_dictq (k : Nat) (x : Mop) : (setMop s k x).dictq = s.dictq := rfl
@[simp] theorem setMop_can (k : Nat) (x : Mop) : (setMop s k x).can = s.can := rfl
@[simp] theorem setMop_sec (k : Nat) (x : Mop) : (setMop s k x).sec = s.sec := rfl
@[simp] theorem setMop_mcu (k : Nat) (x : Mop) : (setMop s k x).mcu = s.mcu := rfl
@[simp] theorem setMop_crcs (k : Nat) (x : Mop) : (setMop s k x).crcs = s.crcs := rfl
@[simp] theorem setMop_msr (k : Nat) (x : Mop) : (setMop s k x).msr = s.msr := rfl
@[simp] theorem setMop_fed (k : Nat) (x : Mop) : (setMop s k x).fed = s.fed := rfl
@[simp] theorem setMop_mops (k : Nat) (x : Mop) : (setMop s k x).mops = nset s.mops k x := rfl

@[simp] theorem setDma_pending (c : Nat) (x : Dma) : (setDma s c x).pending = s.pending := rfl
@[simp] theorem setDma_fabric (c : Nat) (x : Dma) : (setDma s c x).fabric = s.fabric := rfl
@[simp] theorem setDma_out (c : Nat) (x : Dma) : (setDma s c x).out = s.out := rfl
@[simp] theorem setDma_fresh (c : Nat) (x : Dma) : (setDma s c x).fresh = s.fresh := rfl
@[simp] theorem setDma_csr (c : Nat) (x : Dma) : (setDma s c x).csr = s.csr := rfl
@[simp] theorem setDma_eff (c : Nat) (x : Dma) : (setDma s c x).eff = s.eff := rfl
@[simp] theorem setDma_tb (c : Nat) (x : Dma) : (setDma s c x).tb = s.tb := rfl
@[simp] theorem setDma_slices (c : Nat) (x : Dma) : (setDma s c x).slices = s.slices := rfl
@[simp] theorem setDma_ports (c : Nat) (x : Dma) : (setDma s c x).ports = s.ports := rfl
@[simp] theorem setDma_vls (c : Nat) (x : Dma) : (setDma s c x).vls = s.vls := rfl
@[simp] theorem setDma_chans (c : Nat) (x : Dma) : (setDma s c x).chans = s.chans := rfl
@[simp] theorem setDma_dram (c : Nat) (x : Dma) : (setDma s c x).dram = s.dram := rfl
@[simp] theorem setDma_cis (c : Nat) (x : Dma) : (setDma s c x).cis = s.cis := rfl
@[simp] theorem setDma_mdata (c : Nat) (x : Dma) : (setDma s c x).mdata = s.mdata := rfl
@[simp] theorem setDma_journal (c : Nat) (x : Dma) : (setDma s c x).journal = s.journal := rfl
@[simp] theorem setDma_boots (c : Nat) (x : Dma) : (setDma s c x).boots = s.boots := rfl
@[simp] theorem setDma_fws (c : Nat) (x : Dma) : (setDma s c x).fws = s.fws := rfl
@[simp] theorem setDma_mops (c : Nat) (x : Dma) : (setDma s c x).mops = s.mops := rfl
@[simp] theorem setDma_ckpt (c : Nat) (x : Dma) : (setDma s c x).ckpt = s.ckpt := rfl
@[simp] theorem setDma_drain (c : Nat) (x : Dma) : (setDma s c x).drain = s.drain := rfl
@[simp] theorem setDma_supply (c : Nat) (x : Dma) : (setDma s c x).supply = s.supply := rfl
@[simp] theorem setDma_start (c : Nat) (x : Dma) : (setDma s c x).start = s.start := rfl
@[simp] theorem setDma_commit (c : Nat) (x : Dma) : (setDma s c x).commit = s.commit := rfl
@[simp] theorem setDma_mode (c : Nat) (x : Dma) : (setDma s c x).mode = s.mode := rfl
@[simp] theorem setDma_seqs (c : Nat) (x : Dma) : (setDma s c x).seqs = s.seqs := rfl
@[simp] theorem setDma_clk (c : Nat) (x : Dma) : (setDma s c x).clk = s.clk := rfl
@[simp] theorem setDma_phu (c : Nat) (x : Dma) : (setDma s c x).phu = s.phu := rfl
@[simp] theorem setDma_evq (c : Nat) (x : Dma) : (setDma s c x).evq = s.evq := rfl
@[simp] theorem setDma_csrWaits (c : Nat) (x : Dma) : (setDma s c x).csrWaits = s.csrWaits := rfl
@[simp] theorem setDma_snaps (c : Nat) (x : Dma) : (setDma s c x).snaps = s.snaps := rfl
@[simp] theorem setDma_indOut (c : Nat) (x : Dma) : (setDma s c x).indOut = s.indOut := rfl
@[simp] theorem setDma_pcie (c : Nat) (x : Dma) : (setDma s c x).pcie = s.pcie := rfl
@[simp] theorem setDma_mbxs (c : Nat) (x : Dma) : (setDma s c x).mbxs = s.mbxs := rfl
@[simp] theorem setDma_dictq (c : Nat) (x : Dma) : (setDma s c x).dictq = s.dictq := rfl
@[simp] theorem setDma_can (c : Nat) (x : Dma) : (setDma s c x).can = s.can := rfl
@[simp] theorem setDma_sec (c : Nat) (x : Dma) : (setDma s c x).sec = s.sec := rfl
@[simp] theorem setDma_mcu (c : Nat) (x : Dma) : (setDma s c x).mcu = s.mcu := rfl
@[simp] theorem setDma_crcs (c : Nat) (x : Dma) : (setDma s c x).crcs = s.crcs := rfl
@[simp] theorem setDma_msr (c : Nat) (x : Dma) : (setDma s c x).msr = s.msr := rfl
@[simp] theorem setDma_fed (c : Nat) (x : Dma) : (setDma s c x).fed = s.fed := rfl
@[simp] theorem setDma_dmas (c : Nat) (x : Dma) : (setDma s c x).dmas = nset s.dmas c x := rfl

@[simp] theorem setCrc_pending (u : Nat) (x : Crc) : (setCrc s u x).pending = s.pending := rfl
@[simp] theorem setCrc_fabric (u : Nat) (x : Crc) : (setCrc s u x).fabric = s.fabric := rfl
@[simp] theorem setCrc_out (u : Nat) (x : Crc) : (setCrc s u x).out = s.out := rfl
@[simp] theorem setCrc_fresh (u : Nat) (x : Crc) : (setCrc s u x).fresh = s.fresh := rfl
@[simp] theorem setCrc_csr (u : Nat) (x : Crc) : (setCrc s u x).csr = s.csr := rfl
@[simp] theorem setCrc_eff (u : Nat) (x : Crc) : (setCrc s u x).eff = s.eff := rfl
@[simp] theorem setCrc_tb (u : Nat) (x : Crc) : (setCrc s u x).tb = s.tb := rfl
@[simp] theorem setCrc_slices (u : Nat) (x : Crc) : (setCrc s u x).slices = s.slices := rfl
@[simp] theorem setCrc_ports (u : Nat) (x : Crc) : (setCrc s u x).ports = s.ports := rfl
@[simp] theorem setCrc_vls (u : Nat) (x : Crc) : (setCrc s u x).vls = s.vls := rfl
@[simp] theorem setCrc_chans (u : Nat) (x : Crc) : (setCrc s u x).chans = s.chans := rfl
@[simp] theorem setCrc_dram (u : Nat) (x : Crc) : (setCrc s u x).dram = s.dram := rfl
@[simp] theorem setCrc_cis (u : Nat) (x : Crc) : (setCrc s u x).cis = s.cis := rfl
@[simp] theorem setCrc_mdata (u : Nat) (x : Crc) : (setCrc s u x).mdata = s.mdata := rfl
@[simp] theorem setCrc_journal (u : Nat) (x : Crc) : (setCrc s u x).journal = s.journal := rfl
@[simp] theorem setCrc_boots (u : Nat) (x : Crc) : (setCrc s u x).boots = s.boots := rfl
@[simp] theorem setCrc_fws (u : Nat) (x : Crc) : (setCrc s u x).fws = s.fws := rfl
@[simp] theorem setCrc_mops (u : Nat) (x : Crc) : (setCrc s u x).mops = s.mops := rfl
@[simp] theorem setCrc_ckpt (u : Nat) (x : Crc) : (setCrc s u x).ckpt = s.ckpt := rfl
@[simp] theorem setCrc_drain (u : Nat) (x : Crc) : (setCrc s u x).drain = s.drain := rfl
@[simp] theorem setCrc_supply (u : Nat) (x : Crc) : (setCrc s u x).supply = s.supply := rfl
@[simp] theorem setCrc_start (u : Nat) (x : Crc) : (setCrc s u x).start = s.start := rfl
@[simp] theorem setCrc_commit (u : Nat) (x : Crc) : (setCrc s u x).commit = s.commit := rfl
@[simp] theorem setCrc_mode (u : Nat) (x : Crc) : (setCrc s u x).mode = s.mode := rfl
@[simp] theorem setCrc_seqs (u : Nat) (x : Crc) : (setCrc s u x).seqs = s.seqs := rfl
@[simp] theorem setCrc_clk (u : Nat) (x : Crc) : (setCrc s u x).clk = s.clk := rfl
@[simp] theorem setCrc_phu (u : Nat) (x : Crc) : (setCrc s u x).phu = s.phu := rfl
@[simp] theorem setCrc_evq (u : Nat) (x : Crc) : (setCrc s u x).evq = s.evq := rfl
@[simp] theorem setCrc_csrWaits (u : Nat) (x : Crc) : (setCrc s u x).csrWaits = s.csrWaits := rfl
@[simp] theorem setCrc_snaps (u : Nat) (x : Crc) : (setCrc s u x).snaps = s.snaps := rfl
@[simp] theorem setCrc_indOut (u : Nat) (x : Crc) : (setCrc s u x).indOut = s.indOut := rfl
@[simp] theorem setCrc_pcie (u : Nat) (x : Crc) : (setCrc s u x).pcie = s.pcie := rfl
@[simp] theorem setCrc_dmas (u : Nat) (x : Crc) : (setCrc s u x).dmas = s.dmas := rfl
@[simp] theorem setCrc_mbxs (u : Nat) (x : Crc) : (setCrc s u x).mbxs = s.mbxs := rfl
@[simp] theorem setCrc_dictq (u : Nat) (x : Crc) : (setCrc s u x).dictq = s.dictq := rfl
@[simp] theorem setCrc_can (u : Nat) (x : Crc) : (setCrc s u x).can = s.can := rfl
@[simp] theorem setCrc_sec (u : Nat) (x : Crc) : (setCrc s u x).sec = s.sec := rfl
@[simp] theorem setCrc_mcu (u : Nat) (x : Crc) : (setCrc s u x).mcu = s.mcu := rfl
@[simp] theorem setCrc_msr (u : Nat) (x : Crc) : (setCrc s u x).msr = s.msr := rfl
@[simp] theorem setCrc_fed (u : Nat) (x : Crc) : (setCrc s u x).fed = s.fed := rfl
@[simp] theorem setCrc_crcs (u : Nat) (x : Crc) : (setCrc s u x).crcs = nset s.crcs u x := rfl

@[simp] theorem setBoot_pending (k : Nat) (x : BootHdr) : (setBoot s k x).pending = s.pending := rfl
@[simp] theorem setBoot_fabric (k : Nat) (x : BootHdr) : (setBoot s k x).fabric = s.fabric := rfl
@[simp] theorem setBoot_out (k : Nat) (x : BootHdr) : (setBoot s k x).out = s.out := rfl
@[simp] theorem setBoot_fresh (k : Nat) (x : BootHdr) : (setBoot s k x).fresh = s.fresh := rfl
@[simp] theorem setBoot_csr (k : Nat) (x : BootHdr) : (setBoot s k x).csr = s.csr := rfl
@[simp] theorem setBoot_eff (k : Nat) (x : BootHdr) : (setBoot s k x).eff = s.eff := rfl
@[simp] theorem setBoot_tb (k : Nat) (x : BootHdr) : (setBoot s k x).tb = s.tb := rfl
@[simp] theorem setBoot_slices (k : Nat) (x : BootHdr) : (setBoot s k x).slices = s.slices := rfl
@[simp] theorem setBoot_ports (k : Nat) (x : BootHdr) : (setBoot s k x).ports = s.ports := rfl
@[simp] theorem setBoot_vls (k : Nat) (x : BootHdr) : (setBoot s k x).vls = s.vls := rfl
@[simp] theorem setBoot_chans (k : Nat) (x : BootHdr) : (setBoot s k x).chans = s.chans := rfl
@[simp] theorem setBoot_dram (k : Nat) (x : BootHdr) : (setBoot s k x).dram = s.dram := rfl
@[simp] theorem setBoot_cis (k : Nat) (x : BootHdr) : (setBoot s k x).cis = s.cis := rfl
@[simp] theorem setBoot_mdata (k : Nat) (x : BootHdr) : (setBoot s k x).mdata = s.mdata := rfl
@[simp] theorem setBoot_journal (k : Nat) (x : BootHdr) : (setBoot s k x).journal = s.journal := rfl
@[simp] theorem setBoot_fws (k : Nat) (x : BootHdr) : (setBoot s k x).fws = s.fws := rfl
@[simp] theorem setBoot_mops (k : Nat) (x : BootHdr) : (setBoot s k x).mops = s.mops := rfl
@[simp] theorem setBoot_ckpt (k : Nat) (x : BootHdr) : (setBoot s k x).ckpt = s.ckpt := rfl
@[simp] theorem setBoot_drain (k : Nat) (x : BootHdr) : (setBoot s k x).drain = s.drain := rfl
@[simp] theorem setBoot_supply (k : Nat) (x : BootHdr) : (setBoot s k x).supply = s.supply := rfl
@[simp] theorem setBoot_start (k : Nat) (x : BootHdr) : (setBoot s k x).start = s.start := rfl
@[simp] theorem setBoot_commit (k : Nat) (x : BootHdr) : (setBoot s k x).commit = s.commit := rfl
@[simp] theorem setBoot_mode (k : Nat) (x : BootHdr) : (setBoot s k x).mode = s.mode := rfl
@[simp] theorem setBoot_seqs (k : Nat) (x : BootHdr) : (setBoot s k x).seqs = s.seqs := rfl
@[simp] theorem setBoot_clk (k : Nat) (x : BootHdr) : (setBoot s k x).clk = s.clk := rfl
@[simp] theorem setBoot_phu (k : Nat) (x : BootHdr) : (setBoot s k x).phu = s.phu := rfl
@[simp] theorem setBoot_evq (k : Nat) (x : BootHdr) : (setBoot s k x).evq = s.evq := rfl
@[simp] theorem setBoot_csrWaits (k : Nat) (x : BootHdr) : (setBoot s k x).csrWaits = s.csrWaits := rfl
@[simp] theorem setBoot_snaps (k : Nat) (x : BootHdr) : (setBoot s k x).snaps = s.snaps := rfl
@[simp] theorem setBoot_indOut (k : Nat) (x : BootHdr) : (setBoot s k x).indOut = s.indOut := rfl
@[simp] theorem setBoot_pcie (k : Nat) (x : BootHdr) : (setBoot s k x).pcie = s.pcie := rfl
@[simp] theorem setBoot_dmas (k : Nat) (x : BootHdr) : (setBoot s k x).dmas = s.dmas := rfl
@[simp] theorem setBoot_mbxs (k : Nat) (x : BootHdr) : (setBoot s k x).mbxs = s.mbxs := rfl
@[simp] theorem setBoot_dictq (k : Nat) (x : BootHdr) : (setBoot s k x).dictq = s.dictq := rfl
@[simp] theorem setBoot_can (k : Nat) (x : BootHdr) : (setBoot s k x).can = s.can := rfl
@[simp] theorem setBoot_sec (k : Nat) (x : BootHdr) : (setBoot s k x).sec = s.sec := rfl
@[simp] theorem setBoot_mcu (k : Nat) (x : BootHdr) : (setBoot s k x).mcu = s.mcu := rfl
@[simp] theorem setBoot_crcs (k : Nat) (x : BootHdr) : (setBoot s k x).crcs = s.crcs := rfl
@[simp] theorem setBoot_msr (k : Nat) (x : BootHdr) : (setBoot s k x).msr = s.msr := rfl
@[simp] theorem setBoot_fed (k : Nat) (x : BootHdr) : (setBoot s k x).fed = s.fed := rfl
@[simp] theorem setBoot_boots (k : Nat) (x : BootHdr) : (setBoot s k x).boots = nset s.boots k x := rfl

@[simp] theorem setFw_pending (k : Nat) (x : Fw) : (setFw s k x).pending = s.pending := rfl
@[simp] theorem setFw_fabric (k : Nat) (x : Fw) : (setFw s k x).fabric = s.fabric := rfl
@[simp] theorem setFw_out (k : Nat) (x : Fw) : (setFw s k x).out = s.out := rfl
@[simp] theorem setFw_fresh (k : Nat) (x : Fw) : (setFw s k x).fresh = s.fresh := rfl
@[simp] theorem setFw_csr (k : Nat) (x : Fw) : (setFw s k x).csr = s.csr := rfl
@[simp] theorem setFw_eff (k : Nat) (x : Fw) : (setFw s k x).eff = s.eff := rfl
@[simp] theorem setFw_tb (k : Nat) (x : Fw) : (setFw s k x).tb = s.tb := rfl
@[simp] theorem setFw_slices (k : Nat) (x : Fw) : (setFw s k x).slices = s.slices := rfl
@[simp] theorem setFw_ports (k : Nat) (x : Fw) : (setFw s k x).ports = s.ports := rfl
@[simp] theorem setFw_vls (k : Nat) (x : Fw) : (setFw s k x).vls = s.vls := rfl
@[simp] theorem setFw_chans (k : Nat) (x : Fw) : (setFw s k x).chans = s.chans := rfl
@[simp] theorem setFw_dram (k : Nat) (x : Fw) : (setFw s k x).dram = s.dram := rfl
@[simp] theorem setFw_cis (k : Nat) (x : Fw) : (setFw s k x).cis = s.cis := rfl
@[simp] theorem setFw_mdata (k : Nat) (x : Fw) : (setFw s k x).mdata = s.mdata := rfl
@[simp] theorem setFw_journal (k : Nat) (x : Fw) : (setFw s k x).journal = s.journal := rfl
@[simp] theorem setFw_boots (k : Nat) (x : Fw) : (setFw s k x).boots = s.boots := rfl
@[simp] theorem setFw_mops (k : Nat) (x : Fw) : (setFw s k x).mops = s.mops := rfl
@[simp] theorem setFw_ckpt (k : Nat) (x : Fw) : (setFw s k x).ckpt = s.ckpt := rfl
@[simp] theorem setFw_drain (k : Nat) (x : Fw) : (setFw s k x).drain = s.drain := rfl
@[simp] theorem setFw_supply (k : Nat) (x : Fw) : (setFw s k x).supply = s.supply := rfl
@[simp] theorem setFw_start (k : Nat) (x : Fw) : (setFw s k x).start = s.start := rfl
@[simp] theorem setFw_commit (k : Nat) (x : Fw) : (setFw s k x).commit = s.commit := rfl
@[simp] theorem setFw_mode (k : Nat) (x : Fw) : (setFw s k x).mode = s.mode := rfl
@[simp] theorem setFw_seqs (k : Nat) (x : Fw) : (setFw s k x).seqs = s.seqs := rfl
@[simp] theorem setFw_clk (k : Nat) (x : Fw) : (setFw s k x).clk = s.clk := rfl
@[simp] theorem setFw_phu (k : Nat) (x : Fw) : (setFw s k x).phu = s.phu := rfl
@[simp] theorem setFw_evq (k : Nat) (x : Fw) : (setFw s k x).evq = s.evq := rfl
@[simp] theorem setFw_csrWaits (k : Nat) (x : Fw) : (setFw s k x).csrWaits = s.csrWaits := rfl
@[simp] theorem setFw_snaps (k : Nat) (x : Fw) : (setFw s k x).snaps = s.snaps := rfl
@[simp] theorem setFw_indOut (k : Nat) (x : Fw) : (setFw s k x).indOut = s.indOut := rfl
@[simp] theorem setFw_pcie (k : Nat) (x : Fw) : (setFw s k x).pcie = s.pcie := rfl
@[simp] theorem setFw_dmas (k : Nat) (x : Fw) : (setFw s k x).dmas = s.dmas := rfl
@[simp] theorem setFw_mbxs (k : Nat) (x : Fw) : (setFw s k x).mbxs = s.mbxs := rfl
@[simp] theorem setFw_dictq (k : Nat) (x : Fw) : (setFw s k x).dictq = s.dictq := rfl
@[simp] theorem setFw_can (k : Nat) (x : Fw) : (setFw s k x).can = s.can := rfl
@[simp] theorem setFw_sec (k : Nat) (x : Fw) : (setFw s k x).sec = s.sec := rfl
@[simp] theorem setFw_mcu (k : Nat) (x : Fw) : (setFw s k x).mcu = s.mcu := rfl
@[simp] theorem setFw_crcs (k : Nat) (x : Fw) : (setFw s k x).crcs = s.crcs := rfl
@[simp] theorem setFw_msr (k : Nat) (x : Fw) : (setFw s k x).msr = s.msr := rfl
@[simp] theorem setFw_fed (k : Nat) (x : Fw) : (setFw s k x).fed = s.fed := rfl
@[simp] theorem setFw_fws (k : Nat) (x : Fw) : (setFw s k x).fws = nset s.fws k x := rfl

@[simp] theorem setMbx_pending (m : Mbx) (x : MbxSt) : (setMbx s m x).pending = s.pending := rfl
@[simp] theorem setMbx_fabric (m : Mbx) (x : MbxSt) : (setMbx s m x).fabric = s.fabric := rfl
@[simp] theorem setMbx_out (m : Mbx) (x : MbxSt) : (setMbx s m x).out = s.out := rfl
@[simp] theorem setMbx_fresh (m : Mbx) (x : MbxSt) : (setMbx s m x).fresh = s.fresh := rfl
@[simp] theorem setMbx_csr (m : Mbx) (x : MbxSt) : (setMbx s m x).csr = s.csr := rfl
@[simp] theorem setMbx_eff (m : Mbx) (x : MbxSt) : (setMbx s m x).eff = s.eff := rfl
@[simp] theorem setMbx_tb (m : Mbx) (x : MbxSt) : (setMbx s m x).tb = s.tb := rfl
@[simp] theorem setMbx_slices (m : Mbx) (x : MbxSt) : (setMbx s m x).slices = s.slices := rfl
@[simp] theorem setMbx_ports (m : Mbx) (x : MbxSt) : (setMbx s m x).ports = s.ports := rfl
@[simp] theorem setMbx_vls (m : Mbx) (x : MbxSt) : (setMbx s m x).vls = s.vls := rfl
@[simp] theorem setMbx_chans (m : Mbx) (x : MbxSt) : (setMbx s m x).chans = s.chans := rfl
@[simp] theorem setMbx_dram (m : Mbx) (x : MbxSt) : (setMbx s m x).dram = s.dram := rfl
@[simp] theorem setMbx_cis (m : Mbx) (x : MbxSt) : (setMbx s m x).cis = s.cis := rfl
@[simp] theorem setMbx_mdata (m : Mbx) (x : MbxSt) : (setMbx s m x).mdata = s.mdata := rfl
@[simp] theorem setMbx_journal (m : Mbx) (x : MbxSt) : (setMbx s m x).journal = s.journal := rfl
@[simp] theorem setMbx_boots (m : Mbx) (x : MbxSt) : (setMbx s m x).boots = s.boots := rfl
@[simp] theorem setMbx_fws (m : Mbx) (x : MbxSt) : (setMbx s m x).fws = s.fws := rfl
@[simp] theorem setMbx_mops (m : Mbx) (x : MbxSt) : (setMbx s m x).mops = s.mops := rfl
@[simp] theorem setMbx_ckpt (m : Mbx) (x : MbxSt) : (setMbx s m x).ckpt = s.ckpt := rfl
@[simp] theorem setMbx_drain (m : Mbx) (x : MbxSt) : (setMbx s m x).drain = s.drain := rfl
@[simp] theorem setMbx_supply (m : Mbx) (x : MbxSt) : (setMbx s m x).supply = s.supply := rfl
@[simp] theorem setMbx_start (m : Mbx) (x : MbxSt) : (setMbx s m x).start = s.start := rfl
@[simp] theorem setMbx_commit (m : Mbx) (x : MbxSt) : (setMbx s m x).commit = s.commit := rfl
@[simp] theorem setMbx_mode (m : Mbx) (x : MbxSt) : (setMbx s m x).mode = s.mode := rfl
@[simp] theorem setMbx_seqs (m : Mbx) (x : MbxSt) : (setMbx s m x).seqs = s.seqs := rfl
@[simp] theorem setMbx_clk (m : Mbx) (x : MbxSt) : (setMbx s m x).clk = s.clk := rfl
@[simp] theorem setMbx_phu (m : Mbx) (x : MbxSt) : (setMbx s m x).phu = s.phu := rfl
@[simp] theorem setMbx_evq (m : Mbx) (x : MbxSt) : (setMbx s m x).evq = s.evq := rfl
@[simp] theorem setMbx_csrWaits (m : Mbx) (x : MbxSt) : (setMbx s m x).csrWaits = s.csrWaits := rfl
@[simp] theorem setMbx_snaps (m : Mbx) (x : MbxSt) : (setMbx s m x).snaps = s.snaps := rfl
@[simp] theorem setMbx_indOut (m : Mbx) (x : MbxSt) : (setMbx s m x).indOut = s.indOut := rfl
@[simp] theorem setMbx_pcie (m : Mbx) (x : MbxSt) : (setMbx s m x).pcie = s.pcie := rfl
@[simp] theorem setMbx_dmas (m : Mbx) (x : MbxSt) : (setMbx s m x).dmas = s.dmas := rfl
@[simp] theorem setMbx_dictq (m : Mbx) (x : MbxSt) : (setMbx s m x).dictq = s.dictq := rfl
@[simp] theorem setMbx_can (m : Mbx) (x : MbxSt) : (setMbx s m x).can = s.can := rfl
@[simp] theorem setMbx_sec (m : Mbx) (x : MbxSt) : (setMbx s m x).sec = s.sec := rfl
@[simp] theorem setMbx_mcu (m : Mbx) (x : MbxSt) : (setMbx s m x).mcu = s.mcu := rfl
@[simp] theorem setMbx_crcs (m : Mbx) (x : MbxSt) : (setMbx s m x).crcs = s.crcs := rfl
@[simp] theorem setMbx_msr (m : Mbx) (x : MbxSt) : (setMbx s m x).msr = s.msr := rfl
@[simp] theorem setMbx_fed (m : Mbx) (x : MbxSt) : (setMbx s m x).fed = s.fed := rfl
@[simp] theorem setMbx_mbxs (m : Mbx) (x : MbxSt) : (setMbx s m x).mbxs = nset s.mbxs (mbxIx m) x := rfl

@[simp] theorem push_pending (f : Flow) : (push s f).pending = s.pending := rfl
@[simp] theorem push_out (f : Flow) : (push s f).out = s.out := rfl
@[simp] theorem push_fresh (f : Flow) : (push s f).fresh = s.fresh := rfl
@[simp] theorem push_csr (f : Flow) : (push s f).csr = s.csr := rfl
@[simp] theorem push_eff (f : Flow) : (push s f).eff = s.eff := rfl
@[simp] theorem push_tb (f : Flow) : (push s f).tb = s.tb := rfl
@[simp] theorem push_slices (f : Flow) : (push s f).slices = s.slices := rfl
@[simp] theorem push_ports (f : Flow) : (push s f).ports = s.ports := rfl
@[simp] theorem push_vls (f : Flow) : (push s f).vls = s.vls := rfl
@[simp] theorem push_chans (f : Flow) : (push s f).chans = s.chans := rfl
@[simp] theorem push_dram (f : Flow) : (push s f).dram = s.dram := rfl
@[simp] theorem push_cis (f : Flow) : (push s f).cis = s.cis := rfl
@[simp] theorem push_mdata (f : Flow) : (push s f).mdata = s.mdata := rfl
@[simp] theorem push_journal (f : Flow) : (push s f).journal = s.journal := rfl
@[simp] theorem push_boots (f : Flow) : (push s f).boots = s.boots := rfl
@[simp] theorem push_fws (f : Flow) : (push s f).fws = s.fws := rfl
@[simp] theorem push_mops (f : Flow) : (push s f).mops = s.mops := rfl
@[simp] theorem push_ckpt (f : Flow) : (push s f).ckpt = s.ckpt := rfl
@[simp] theorem push_drain (f : Flow) : (push s f).drain = s.drain := rfl
@[simp] theorem push_supply (f : Flow) : (push s f).supply = s.supply := rfl
@[simp] theorem push_start (f : Flow) : (push s f).start = s.start := rfl
@[simp] theorem push_commit (f : Flow) : (push s f).commit = s.commit := rfl
@[simp] theorem push_mode (f : Flow) : (push s f).mode = s.mode := rfl
@[simp] theorem push_seqs (f : Flow) : (push s f).seqs = s.seqs := rfl
@[simp] theorem push_clk (f : Flow) : (push s f).clk = s.clk := rfl
@[simp] theorem push_phu (f : Flow) : (push s f).phu = s.phu := rfl
@[simp] theorem push_evq (f : Flow) : (push s f).evq = s.evq := rfl
@[simp] theorem push_csrWaits (f : Flow) : (push s f).csrWaits = s.csrWaits := rfl
@[simp] theorem push_snaps (f : Flow) : (push s f).snaps = s.snaps := rfl
@[simp] theorem push_indOut (f : Flow) : (push s f).indOut = s.indOut := rfl
@[simp] theorem push_pcie (f : Flow) : (push s f).pcie = s.pcie := rfl
@[simp] theorem push_dmas (f : Flow) : (push s f).dmas = s.dmas := rfl
@[simp] theorem push_mbxs (f : Flow) : (push s f).mbxs = s.mbxs := rfl
@[simp] theorem push_dictq (f : Flow) : (push s f).dictq = s.dictq := rfl
@[simp] theorem push_can (f : Flow) : (push s f).can = s.can := rfl
@[simp] theorem push_sec (f : Flow) : (push s f).sec = s.sec := rfl
@[simp] theorem push_mcu (f : Flow) : (push s f).mcu = s.mcu := rfl
@[simp] theorem push_crcs (f : Flow) : (push s f).crcs = s.crcs := rfl
@[simp] theorem push_msr (f : Flow) : (push s f).msr = s.msr := rfl
@[simp] theorem push_fed (f : Flow) : (push s f).fed = s.fed := rfl
@[simp] theorem push_fabric (f : Flow) : (push s f).fabric = s.fabric ++ [f] := rfl

@[simp] theorem emit_pending (o : Out) : (emit s o).pending = s.pending := rfl
@[simp] theorem emit_fabric (o : Out) : (emit s o).fabric = s.fabric := rfl
@[simp] theorem emit_fresh (o : Out) : (emit s o).fresh = s.fresh := rfl
@[simp] theorem emit_csr (o : Out) : (emit s o).csr = s.csr := rfl
@[simp] theorem emit_eff (o : Out) : (emit s o).eff = s.eff := rfl
@[simp] theorem emit_tb (o : Out) : (emit s o).tb = s.tb := rfl
@[simp] theorem emit_slices (o : Out) : (emit s o).slices = s.slices := rfl
@[simp] theorem emit_ports (o : Out) : (emit s o).ports = s.ports := rfl
@[simp] theorem emit_vls (o : Out) : (emit s o).vls = s.vls := rfl
@[simp] theorem emit_chans (o : Out) : (emit s o).chans = s.chans := rfl
@[simp] theorem emit_dram (o : Out) : (emit s o).dram = s.dram := rfl
@[simp] theorem emit_cis (o : Out) : (emit s o).cis = s.cis := rfl
@[simp] theorem emit_mdata (o : Out) : (emit s o).mdata = s.mdata := rfl
@[simp] theorem emit_journal (o : Out) : (emit s o).journal = s.journal := rfl
@[simp] theorem emit_boots (o : Out) : (emit s o).boots = s.boots := rfl
@[simp] theorem emit_fws (o : Out) : (emit s o).fws = s.fws := rfl
@[simp] theorem emit_mops (o : Out) : (emit s o).mops = s.mops := rfl
@[simp] theorem emit_ckpt (o : Out) : (emit s o).ckpt = s.ckpt := rfl
@[simp] theorem emit_drain (o : Out) : (emit s o).drain = s.drain := rfl
@[simp] theorem emit_supply (o : Out) : (emit s o).supply = s.supply := rfl
@[simp] theorem emit_start (o : Out) : (emit s o).start = s.start := rfl
@[simp] theorem emit_commit (o : Out) : (emit s o).commit = s.commit := rfl
@[simp] theorem emit_mode (o : Out) : (emit s o).mode = s.mode := rfl
@[simp] theorem emit_seqs (o : Out) : (emit s o).seqs = s.seqs := rfl
@[simp] theorem emit_clk (o : Out) : (emit s o).clk = s.clk := rfl
@[simp] theorem emit_phu (o : Out) : (emit s o).phu = s.phu := rfl
@[simp] theorem emit_evq (o : Out) : (emit s o).evq = s.evq := rfl
@[simp] theorem emit_csrWaits (o : Out) : (emit s o).csrWaits = s.csrWaits := rfl
@[simp] theorem emit_snaps (o : Out) : (emit s o).snaps = s.snaps := rfl
@[simp] theorem emit_indOut (o : Out) : (emit s o).indOut = s.indOut := rfl
@[simp] theorem emit_pcie (o : Out) : (emit s o).pcie = s.pcie := rfl
@[simp] theorem emit_dmas (o : Out) : (emit s o).dmas = s.dmas := rfl
@[simp] theorem emit_mbxs (o : Out) : (emit s o).mbxs = s.mbxs := rfl
@[simp] theorem emit_dictq (o : Out) : (emit s o).dictq = s.dictq := rfl
@[simp] theorem emit_can (o : Out) : (emit s o).can = s.can := rfl
@[simp] theorem emit_sec (o : Out) : (emit s o).sec = s.sec := rfl
@[simp] theorem emit_mcu (o : Out) : (emit s o).mcu = s.mcu := rfl
@[simp] theorem emit_crcs (o : Out) : (emit s o).crcs = s.crcs := rfl
@[simp] theorem emit_msr (o : Out) : (emit s o).msr = s.msr := rfl
@[simp] theorem emit_fed (o : Out) : (emit s o).fed = s.fed := rfl
@[simp] theorem emit_out (o : Out) : (emit s o).out = s.out ++ [o] := rfl

@[simp] theorem freshen_pending : (freshen s).pending = s.pending := rfl
@[simp] theorem freshen_fabric : (freshen s).fabric = s.fabric := rfl
@[simp] theorem freshen_out : (freshen s).out = s.out := rfl
@[simp] theorem freshen_csr : (freshen s).csr = s.csr := rfl
@[simp] theorem freshen_eff : (freshen s).eff = s.eff := rfl
@[simp] theorem freshen_tb : (freshen s).tb = s.tb := rfl
@[simp] theorem freshen_slices : (freshen s).slices = s.slices := rfl
@[simp] theorem freshen_ports : (freshen s).ports = s.ports := rfl
@[simp] theorem freshen_vls : (freshen s).vls = s.vls := rfl
@[simp] theorem freshen_chans : (freshen s).chans = s.chans := rfl
@[simp] theorem freshen_dram : (freshen s).dram = s.dram := rfl
@[simp] theorem freshen_cis : (freshen s).cis = s.cis := rfl
@[simp] theorem freshen_mdata : (freshen s).mdata = s.mdata := rfl
@[simp] theorem freshen_journal : (freshen s).journal = s.journal := rfl
@[simp] theorem freshen_boots : (freshen s).boots = s.boots := rfl
@[simp] theorem freshen_fws : (freshen s).fws = s.fws := rfl
@[simp] theorem freshen_mops : (freshen s).mops = s.mops := rfl
@[simp] theorem freshen_ckpt : (freshen s).ckpt = s.ckpt := rfl
@[simp] theorem freshen_drain : (freshen s).drain = s.drain := rfl
@[simp] theorem freshen_supply : (freshen s).supply = s.supply := rfl
@[simp] theorem freshen_start : (freshen s).start = s.start := rfl
@[simp] theorem freshen_commit : (freshen s).commit = s.commit := rfl
@[simp] theorem freshen_mode : (freshen s).mode = s.mode := rfl
@[simp] theorem freshen_seqs : (freshen s).seqs = s.seqs := rfl
@[simp] theorem freshen_clk : (freshen s).clk = s.clk := rfl
@[simp] theorem freshen_phu : (freshen s).phu = s.phu := rfl
@[simp] theorem freshen_evq : (freshen s).evq = s.evq := rfl
@[simp] theorem freshen_csrWaits : (freshen s).csrWaits = s.csrWaits := rfl
@[simp] theorem freshen_snaps : (freshen s).snaps = s.snaps := rfl
@[simp] theorem freshen_indOut : (freshen s).indOut = s.indOut := rfl
@[simp] theorem freshen_pcie : (freshen s).pcie = s.pcie := rfl
@[simp] theorem freshen_dmas : (freshen s).dmas = s.dmas := rfl
@[simp] theorem freshen_mbxs : (freshen s).mbxs = s.mbxs := rfl
@[simp] theorem freshen_dictq : (freshen s).dictq = s.dictq := rfl
@[simp] theorem freshen_can : (freshen s).can = s.can := rfl
@[simp] theorem freshen_sec : (freshen s).sec = s.sec := rfl
@[simp] theorem freshen_mcu : (freshen s).mcu = s.mcu := rfl
@[simp] theorem freshen_crcs : (freshen s).crcs = s.crcs := rfl
@[simp] theorem freshen_msr : (freshen s).msr = s.msr := rfl
@[simp] theorem freshen_fed : (freshen s).fed = s.fed := rfl
@[simp] theorem freshen_fresh : (freshen s).fresh = s.fresh + 1 := rfl

end Sys2Proof.Machine
end

