-- ==== Sys2Proof/Laws/Regs.lean ====
section
/-! SUPPORT. The algebra of registers and fields: what a store of a word or a field does to every read, and the reset of a range. -/

namespace Sys2Proof.Machine

@[simp] theorem raw_wr_same (s : State) (o : Nat) (w : Word) : raw (wr s o w) o = w := by simp [raw]

theorem raw_wr_ne (s : State) (o p : Nat) (w : Word) (h : p ≠ o) : raw (wr s o w) p = raw s p := by
  simp [raw, nget_nset_ne _ _ _ _ h]

theorem raw_wr (s : State) (o p : Nat) (w : Word) : raw (wr s o w) p = if p = o then w else raw s p := by
  by_cases h : p = o
  · subst h; simp
  · simp [h, raw_wr_ne s o p w h]

@[simp] theorem effWord_setEff_same (s : State) (o : Nat) (w : Word) : effWord (setEff s o w) o = w := by simp [effWord]

theorem effWord_setEff_ne (s : State) (o p : Nat) (w : Word) (h : p ≠ o) : effWord (setEff s o w) p = effWord s p := by
  simp [effWord, nget_nset_ne _ _ _ _ h]

/-- A read of a register depends on the stored registers alone. -/
theorem raw_congr {s t : State} (h : s.csr = t.csr) (o : Nat) : raw s o = raw t o := by simp [raw, h]
theorem getF_congr {s t : State} (h : s.csr = t.csr) (f : Fld) : getF s f = getF t f := by simp [getF, raw_congr h]
theorem isF_congr {s t : State} (h : s.csr = t.csr) (f : Fld) : isF s f = isF t f := by simp [isF, getF_congr h]
theorem effWord_congr {s t : State} (h : s.eff = t.eff) (o : Nat) : effWord s o = effWord t o := by simp [effWord, h]
theorem effF_congr {s t : State} (h : s.eff = t.eff) (f : Fld) : effF s f = effF t f := by simp [effF, effWord_congr h]

/-- A bit of a word with a field replaced. -/
theorem getLsbD_putBits (v : Word) (lo w x i : Nat) (hi : i < 32) :
    (putBits v lo w x).getLsbD i = if lo ≤ i ∧ i < lo + w then x.testBit (i - lo) else v.getLsbD i := by
  simp only [putBits, BitVec.getLsbD_or, BitVec.getLsbD_and, BitVec.getLsbD_not, BitVec.getLsbD_ofNat, hi, decide_true, Bool.true_and,
    Nat.testBit_shiftLeft, Nat.testBit_two_pow_sub_one, Nat.testBit_mod_two_pow]
  by_cases h1 : lo ≤ i
  · by_cases h2 : i < lo + w
    · have h3 : i - lo < w := by omega
      simp [h1, h2, h3]
    · have h3 : ¬ (i - lo < w) := by omega
      simp [h1, h2, h3]
  · simp [h1]

/-- A bit of a field's value. -/
theorem testBit_bits (v : Word) (lo w i : Nat) : (bits v lo w).testBit i = (decide (i < w) && v.getLsbD (lo + i)) := by
  simp [bits, Nat.testBit_mod_two_pow, Nat.testBit_shiftRight, BitVec.getLsbD]

/-- A field read back from the word it was put in. -/
theorem bits_putBits_same (v : Word) (lo w x : Nat) (h : lo + w ≤ 32) : bits (putBits v lo w x) lo w = x % 2 ^ w := by
  apply Nat.eq_of_testBit_eq
  intro i
  rw [testBit_bits, Nat.testBit_mod_two_pow]
  by_cases hi : i < w
  · rw [getLsbD_putBits _ _ _ _ _ (by omega)]
    have : lo ≤ lo + i ∧ lo + i < lo + w := by omega
    simp [hi]
  · simp [hi]

/-- A field of a word that does not meet the one that is put keeps its value. -/
theorem bits_putBits_disjoint (v : Word) (lo w x lo' w' : Nat) (h : lo' + w' ≤ lo ∨ lo + w ≤ lo') (h' : lo' + w' ≤ 32) :
    bits (putBits v lo w x) lo' w' = bits v lo' w' := by
  apply Nat.eq_of_testBit_eq
  intro i
  rw [testBit_bits, testBit_bits]
  by_cases hi : i < w'
  · rw [getLsbD_putBits _ _ _ _ _ (by omega)]
    have : ¬ (lo ≤ lo' + i ∧ lo' + i < lo + w) := by omega
    simp [this]
  · simp [hi]

theorem getF_wr_ne (s : State) (o : Nat) (w : Word) (f : Fld) (h : f.off ≠ o) : getF (wr s o w) f = getF s f := by
  simp [getF, raw_wr_ne s o f.off w h]

/-- A stored field reads back, cut to its width. -/
theorem getF_setF_same (s : State) (f : Fld) (v : Nat) (h : f.lo + f.w ≤ 32) : getF (setF s f v) f = v % 2 ^ f.w := by
  simp [getF, setF, bits_putBits_same _ _ _ _ h]

/-- A field of another register keeps its value. -/
theorem getF_setF_other (s : State) (f g : Fld) (v : Nat) (h : g.off ≠ f.off) : getF (setF s f v) g = getF s g := by
  simp [setF, getF_wr_ne _ _ _ _ h]

/-- A field of the same register that does not meet the stored one keeps its value. -/
theorem getF_setF_disjoint (s : State) (f g : Fld) (v : Nat) (h : g.off = f.off)
    (hd : g.lo + g.w ≤ f.lo ∨ f.lo + f.w ≤ g.lo) (hw : g.lo + g.w ≤ 32) : getF (setF s f v) g = getF s g := by
  simp only [getF, setF, h, raw_wr_same]
  exact bits_putBits_disjoint _ _ _ _ _ _ hd hw

theorem raw_setF_ne (s : State) (f : Fld) (v o : Nat) (h : o ≠ f.off) : raw (setF s f v) o = raw s o := by
  simp [setF, raw_wr_ne _ _ _ _ h]

theorem getF_lt (s : State) (f : Fld) : getF s f < 2 ^ f.w := Nat.mod_lt _ (Nat.two_pow_pos _)

/-- A one-bit flag set reads as set. -/
theorem isF_flag_same (s : State) (f : Fld) (h : f.lo + f.w ≤ 32) (hw : f.w = 1) : isF (flag s f) f = true := by
  simp [isF, flag, getF_setF_same s f 1 h, hw]

theorem getF_flag_other (s : State) (f g : Fld) (h : g.off ≠ f.off) : getF (flag s f) g = getF s g := getF_setF_other s f g 1 h

/-- Every register of a range reads as after reset, every other one as before. -/
theorem raw_resetRange (s : State) (lo hi o : Nat) :
    raw (resetRange s lo hi) o = if lo ≤ o ∧ o < hi then resetWord o else raw s o := by
  have h := nget_map (fun k v => if lo ≤ k ∧ k < hi then resetWord k else v) s.csr o
  simp only [raw, resetRange, atReset]
  rw [h]
  by_cases c : lo ≤ o ∧ o < hi
  · cases nget s.csr o <;> simp [c]
  · cases nget s.csr o <;> simp [c]

theorem effWord_resetRange (s : State) (lo hi o : Nat) :
    effWord (resetRange s lo hi) o = if lo ≤ o ∧ o < hi then resetWord o else effWord s o := by
  have h := nget_map (fun k v => if lo ≤ k ∧ k < hi then resetWord k else v) s.eff o
  simp only [effWord, resetRange, atReset]
  rw [h]
  by_cases c : lo ≤ o ∧ o < hi
  · cases nget s.eff o <;> simp [c]
  · cases nget s.eff o <;> simp [c]

/-- The units' records read back, and the others keep theirs. -/
theorem slice_setSlice (s : State) (n k : Nat) (x : Slice) : slice (setSlice s n x) k = if k = n then x else slice s k := by
  by_cases h : k = n <;> simp [slice, nget_nset, h]
theorem port_setPort (s : State) (p k : Nat) (x : Port) : port (setPort s p x) k = if k = p then x else port s k := by
  by_cases h : k = p <;> simp [port, nget_nset, h]
theorem vl_setVl (s : State) (l k : Nat) (x : Vl) : vl (setVl s l x) k = if k = l then x else vl s k := by
  by_cases h : k = l <;> simp [vl, nget_nset, h]
theorem chan_setChan (s : State) (c k : Nat) (x : Chan) : chan (setChan s c x) k = if k = c then x else chan s k := by
  by_cases h : k = c <;> simp [chan, nget_nset, h]
theorem mopOf_setMop (s : State) (n k : Nat) (x : Mop) : mopOf (setMop s n x) k = if k = n then x else mopOf s k := by
  by_cases h : k = n <;> simp [mopOf, nget_nset, h]
theorem dmaOf_setDma (s : State) (c k : Nat) (x : Dma) : dmaOf (setDma s c x) k = if k = c then x else dmaOf s k := by
  by_cases h : k = c <;> simp [dmaOf, nget_nset, h]
theorem crcOf_setCrc (s : State) (u k : Nat) (x : Crc) : crcOf (setCrc s u x) k = if k = u then x else crcOf s k := by
  by_cases h : k = u <;> simp [crcOf, nget_nset, h]
theorem fwOf_setFw (s : State) (n k : Nat) (x : Fw) : fwOf (setFw s n x) k = if k = n then x else fwOf s k := by
  by_cases h : k = n <;> simp [fwOf, nget_nset, h]
theorem bootOf_setBoot (s : State) (n k : Nat) (x : BootHdr) : bootOf (setBoot s n x) k = if k = n then x else bootOf s k := by
  by_cases h : k = n <;> simp [bootOf, nget_nset, h]

end Sys2Proof.Machine
end

