-- ==== Sys2Proof/Laws/Events.lean ====
section
/-! SUPPORT. What posting a record and raising a source do: nothing beyond telling the masters (R304–R310, R335). -/

namespace Sys2Proof.Machine

theorem OnlyBits.refl (s : State) (fs : List Fld) : OnlyBits s s fs := fun _ _ _ _ => rfl

theorem OnlyBits.trans {s t u : State} {fs : List Fld} (h1 : OnlyBits s t fs) (h2 : OnlyBits t u fs) : OnlyBits s u fs :=
  fun o b hb hn => (h2 o b hb hn).trans (h1 o b hb hn)

/-- A state that differs in other parts only has the same bits. -/
theorem OnlyBits.of_csr {s t : State} {fs : List Fld} (h : t.csr = s.csr) : OnlyBits s t fs :=
  fun o _ _ _ => by rw [raw_congr h]

theorem OnlyBits.setF {s : State} {fs : List Fld} {f : Fld} (v : Nat) (h : f ∈ fs) : OnlyBits s (setF s f v) fs := by
  intro o b hb hn
  by_cases ho : o = f.off
  · subst ho
    rw [Sys2Proof.Machine.setF, raw_wr_same, getLsbD_putBits _ _ _ _ _ hb]
    rw [if_neg]
    rintro ⟨h1, h2⟩
    exact hn ⟨f, h, rfl, h1, h2⟩
  · rw [raw_setF_ne _ _ _ _ ho]

theorem Told.refl (s : State) : Told s s := ⟨rfl, OnlyBits.refl s _⟩

theorem Told.trans {s t u : State} (h1 : Told s t) (h2 : Told t u) : Told s u := by
  refine ⟨?_, h1.2.trans h2.2⟩
  have a := h1.1
  have b := h2.1
  rw [a] at b
  exact b

/-- A change of the parts that telling the masters may change, with the registers as they are. -/
theorem Told.parts {s u : State} (h : u = { s with evq := u.evq, ports := u.ports, fabric := u.fabric, out := u.out, pcie := u.pcie, can := u.can }) :
    Told s u := by
  have hc : u.csr = s.csr := by rw [h]
  refine ⟨?_, OnlyBits.of_csr hc⟩
  rw [hc]
  exact h

theorem told_setF {s : State} {f : Fld} (v : Nat) (h : f ∈ signalFlds) : Told s (setF s f v) := ⟨rfl, OnlyBits.setF v h⟩

theorem told_push (s : State) (f : Flow) : Told s (push s f) := Told.parts rfl

theorem told_egress (s : State) (p : Nat) (m : Msg) : Told s (egress s (apS p) m) := Told.parts rfl

theorem told_notify (s : State) (src p : Nat) : Told s (notify s src p) := by
  unfold notify
  split
  · exact told_egress _ _ _
  · exact Told.refl _

theorem told_ite {s a b : State} {c : Prop} [Decidable c] (h1 : Told s a) (h2 : Told s b) : Told s (if c then a else b) := by
  split
  · exact h1
  · exact h2

theorem told_foldl {α : Type} (f : State → α → State) (h : ∀ s a, Told s (f s a)) (l : List α) : ∀ s, Told s (l.foldl f s) := by
  induction l with
  | nil => exact fun s => Told.refl s
  | cons a r ih => exact fun s => (h s a).trans (ih _)

theorem told_notifyAgents (s : State) (src : Nat) : Told s (notifyAgents s src) := by
  unfold notifyAgents
  split
  · exact told_foldl _ (fun s p => told_notify s src p) _ _
  · split
    · exact told_foldl _ (fun s p => told_notify s src p) _ _
    · exact Told.refl _

theorem told_notifyHost (s : State) (src : Nat) : Told s (notifyHost s src) := by
  unfold notifyHost msix
  split
  · split <;> exact Told.parts rfl
  · exact Told.refl _

theorem told_queueEmcy (s : State) (b : List Byte) : Told s (queueEmcy s b) := by
  unfold queueEmcy
  split
  · exact Told.parts rfl
  · exact told_setF 1 (by simp [signalFlds])

theorem told_emcyFor (s : State) (src : Nat) : Told s (emcyFor s src) := by
  unfold emcyFor
  split
  · exact told_queueEmcy _ _
  · exact Told.refl _

theorem told_refreshErr (s : State) : Told s (refreshErr s) := by
  unfold refreshErr
  have h : Told s { s with can := { s.can with errReg := errorRegister s } } := Told.parts rfl
  simp only
  split
  · exact h.trans (told_queueEmcy _ _)
  · exact h

/-- Raising a source changes nothing but what tells the masters (R309, R310, R335). -/
theorem told_irq (s : State) (src : Nat) : Told s (irq s src) := by
  unfold irq
  have h0 : Told s (if src = 10 then flag s F.GEN_STAT_FATAL else s) := by
    split
    · exact told_setF 1 (by simp [signalFlds])
    · exact Told.refl _
  simp only
  have h4 : ∀ t v, Told t (refreshErr (emcyFor (notifyHost (notifyAgents (setF t F.EVQ_IRQ_STAT_SRC v) src) src) src)) := fun t v =>
    (told_setF v (by simp [signalFlds])).trans ((told_notifyAgents _ _).trans ((told_notifyHost _ _).trans ((told_emcyFor _ _).trans (told_refreshErr _))))
  exact told_ite h0 (h0.trans (h4 _ _))

theorem told_enterRaw (s : State) (r : List Word) : Told s (enterRaw s r) := by
  unfold enterRaw
  split <;> exact Told.parts rfl

theorem told_floatLatch (s : State) : Told s (floatLatch s floatEvq) := by
  refine ⟨rfl, ?_⟩
  intro o b hb hn
  have h1 : o ≠ R.EVQ_FN_T_LO := fun h => hn ⟨⟨R.EVQ_FN_T_LO, 0, 32⟩, by simp [signalFlds], h.symm, Nat.zero_le _, by simpa using hb⟩
  have h2 : o ≠ R.EVQ_FN_T_HI := fun h => hn ⟨⟨R.EVQ_FN_T_HI, 0, 32⟩, by simp [signalFlds], h.symm, Nat.zero_le _, by simpa using hb⟩
  rw [floatLatch, setPair, raw_wr_ne _ _ _ _ (by exact h2), raw_wr_ne _ _ _ _ (by exact h1)]
  exact OnlyBits.setF 1 (fs := signalFlds) (by simp [signalFlds, floatEvq]) o b hb hn

/-- Entering a record changes nothing but what tells the masters (R304, R305). -/
theorem told_enter (s : State) (r : List Word) : Told s (enter s r) := by
  unfold enter
  have h1 := told_enterRaw s r
  have h2 : Told s (if getF (enterRaw s r) F.EVQ_FN_PEAK < (enterRaw s r).evq.recs.length then
      setF (enterRaw s r) F.EVQ_FN_PEAK (enterRaw s r).evq.recs.length else enterRaw s r) :=
    told_ite (h1.trans (told_setF _ (by simp [signalFlds]))) h1
  have h3 := told_ite (c := s.evq.recs.length = 0 ∧ 0 < (enterRaw s r).evq.recs.length) (h2.trans (told_irq _ 0)) h2
  simp only
  refine told_ite (h3.trans ?_) h3
  refine (told_floatLatch _).trans (Told.trans ?_ (told_irq _ 2))
  refine told_ite (Told.trans ?_ (told_enterRaw _ _)) ?_ <;> exact Told.parts rfl

theorem told_tellChiso (s : State) (code : Nat) (d : List Byte) (r : List Word) : Told s (tellChiso s code d r) := by
  unfold tellChiso
  exact told_ite (told_push _ _) (Told.refl _)

@[simp] theorem tellChiso_evq (s : State) (code : Nat) (d : List Byte) (r : List Word) : (tellChiso s code d r).evq = s.evq := by
  unfold tellChiso; split <;> rfl
@[simp] theorem tellChiso_csr (s : State) (code : Nat) (d : List Byte) (r : List Word) : (tellChiso s code d r).csr = s.csr := by
  unfold tellChiso; split <;> rfl

/-- Posting a record changes nothing but what tells the masters (R305–R310). -/
theorem told_post (s : State) (code unit : Nat) (d : List Byte) : Told s (post s code unit d) := by
  unfold post
  have h0 : Told s { s with evq := { s.evq with last := nset s.evq.last (irqOf code) (code, unit) } } := Told.parts rfl
  have hl : ∀ t : State, Told t (enterLost t) := fun t => by
    unfold enterLost
    exact Told.trans (Told.parts rfl) ((told_enter _ _).trans (told_irq _ 0))
  have h1 := told_ite (c := s.evq.lost ≠ 0 ∧ s.evq.recs.length < 1024) (h0.trans (hl _)) h0
  simp only
  refine Told.trans ?_ (told_irq _ _)
  refine Told.trans ?_ (told_tellChiso _ _ _ _)
  exact told_ite (h1.trans (told_enter _ _)) (h1.trans (Told.parts rfl))

/-- What a signal leaves alone: effective values and every field outside those it may write. -/
theorem Told.eff {s u : State} (h : Told s u) : u.eff = s.eff := by rw [h.1]
theorem Told.slices {s u : State} (h : Told s u) : u.slices = s.slices := by rw [h.1]
theorem Told.dram {s u : State} (h : Told s u) : u.dram = s.dram := by rw [h.1]
theorem Told.cis {s u : State} (h : Told s u) : u.cis = s.cis := by rw [h.1]
theorem Told.vls {s u : State} (h : Told s u) : u.vls = s.vls := by rw [h.1]
theorem Told.crcs {s u : State} (h : Told s u) : u.crcs = s.crcs := by rw [h.1]

/-- A register without a field that a signal may write keeps its word. -/
theorem Told.raw {s u : State} (h : Told s u) {o : Nat} (ho : ∀ f ∈ signalFlds, f.off ≠ o) : Sys2Proof.Machine.raw u o = Sys2Proof.Machine.raw s o := by
  apply BitVec.eq_of_getLsbD_eq
  intro b hb
  exact h.2 o b hb (fun ⟨f, hf, e, _⟩ => ho f hf e)

theorem Told.getF {s u : State} (h : Told s u) {g : Fld} (hg : ∀ f ∈ signalFlds, f.off ≠ g.off) :
    Sys2Proof.Machine.getF u g = Sys2Proof.Machine.getF s g := by
  rw [Sys2Proof.Machine.getF, h.raw hg, Sys2Proof.Machine.getF]

theorem foldl_evq {α : Type} (f : State → α → State) (h : ∀ s a, (f s a).evq = s.evq) (l : List α) : ∀ s : State, (l.foldl f s).evq = s.evq := by
  induction l with
  | nil => exact fun s => rfl
  | cons a r ih => exact fun s => (ih _).trans (h s a)

@[simp] theorem notify_evq (s : State) (src p : Nat) : (notify s src p).evq = s.evq := by unfold notify; split <;> rfl

@[simp] theorem notifyAgents_evq (s : State) (src : Nat) : (notifyAgents s src).evq = s.evq := by
  unfold notifyAgents
  split
  · exact foldl_evq _ (fun s p => notify_evq s src p) _ _
  · split
    · exact foldl_evq _ (fun s p => notify_evq s src p) _ _
    · rfl

@[simp] theorem notifyHost_evq (s : State) (src : Nat) : (notifyHost s src).evq = s.evq := by
  unfold notifyHost msix; split
  · split <;> rfl
  · rfl

@[simp] theorem queueEmcy_evq (s : State) (b : List Byte) : (queueEmcy s b).evq = s.evq := by unfold queueEmcy; split <;> rfl

@[simp] theorem emcyFor_evq (s : State) (src : Nat) : (emcyFor s src).evq = s.evq := by
  unfold emcyFor; split
  · exact queueEmcy_evq _ _
  · rfl

@[simp] theorem refreshErr_evq (s : State) : (refreshErr s).evq = s.evq := by
  unfold refreshErr; simp only; split
  · exact queueEmcy_evq _ _
  · rfl

/-- Raising a source touches no record. -/
@[simp] theorem irq_evq (s : State) (src : Nat) : (irq s src).evq = s.evq := by
  have h : (if src = 10 then flag s F.GEN_STAT_FATAL else s).evq = s.evq := by split <;> rfl
  unfold irq
  generalize (if src = 10 then flag s F.GEN_STAT_FATAL else s) = t at h
  simp only [apply_ite State.evq, refreshErr_evq, emcyFor_evq, notifyHost_evq, notifyAgents_evq]
  split
  · exact h
  · exact h

/-- A source that is set already signals nothing (R309). -/
theorem irq_set {s : State} {src : Nat} (h : (getF s F.EVQ_IRQ_STAT_SRC).testBit src = true) :
    irq s src = if src = 10 then flag s F.GEN_STAT_FATAL else s := by
  have h' : (getF (if src = 10 then flag s F.GEN_STAT_FATAL else s) F.EVQ_IRQ_STAT_SRC).testBit src = true := by
    split
    · rw [getF_flag_other _ _ _ (by decide)]; exact h
    · exact h
  unfold irq
  simp only [h', if_true]

end Sys2Proof.Machine
end

