-- ==== Sys2Proof/Laws/Steps.lean ====
section
/-! SUPPORT. What a command's outcome is in the terms of Safety, and what the CSR root does with an access that it serves or refuses. -/

namespace Sys2Proof.Machine

@[simp] theorem apS_val (p : Fin 6) : apS p.val = .ap p := by simp [apS]
@[simp] theorem vlS_val (l : Fin 3) : vlS l.val = .vl l := by simp [vlS]

/-- A row without a condition on its term. -/
theorem acts_after {i : Instr} {s t u : State} (e : exec i s = after s t) (h : t = u) : Acts i s u := by
  subst h; rw [Acts, e]; rfl

/-- Nothing but the front of the queue is asked of the command's outcome. -/
theorem settled_pending (s u : State) : (settled s u).pending = s.pending := rfl

theorem serves_block {s : State} {off : Nat} (h : Serves s off) : ¬ ((place off).isNone = true ∨ blockUp s off = false) := by
  obtain ⟨_, _, h3, h4, _⟩ := h
  rintro (h' | h')
  · cases hp : place off <;> simp_all
  · simp_all

theorem serves_clock {s : State} {off : Nat} (h : Serves s off) : ¬ ((domainAt off).isSome = true ∧ clocksRun s = false) := by
  rintro ⟨h1, h2⟩
  have := h.2.2.2.2 h1
  simp_all

theorem csrAt_serves_write {s : State} {a : CsrAcc} {off : Nat} (h : Serves s off) (hw : a.wr = true) :
    csrAt s a off = .done (regWrite s off a.word) 0 := by
  rw [csrAt, if_neg (serves_block h), if_neg (serves_clock h), if_pos hw]

theorem csrAt_serves_read {s : State} {a : CsrAcc} {off : Nat} (h : Serves s off) (hw : a.wr = false) (hp : off ≠ R.EVQ_POP) :
    csrAt s a off = .done (noteRead s a.m off) (readReg s a.m off) := by
  rw [csrAt, if_neg (serves_block h), if_neg (serves_clock h), if_neg (by simp [hw]), if_neg hp]

theorem csrAt_refused {s : State} {a : CsrAcc} {off : Nat} (h : (place off).isNone = true ∨ blockUp s off = false) : csrAt s a off = .fail 6 := by
  rw [csrAt, if_pos h]

/-- An access arrives at a root that holds none (R293). -/
theorem csrArrive_free {s : State} (a : CsrAcc) (h1 : s.csrWaits = []) (h2 : s.indOut = none) : csrArrive s a = csrRun s a 2 := by
  rw [csrArrive, if_pos ⟨h1, by rw [h2]; rfl⟩]

/-- The word of a write of 4 bytes. -/
theorem word_of_put (m : Master) (off : Nat) (w : Word) : CsrAcc.word { m := m, off := off, wr := true, w := BitVec.ofNat 64 w.toNat } = w := by
  have := w.isLt
  apply BitVec.eq_of_toNat_eq
  simp [CsrAcc.word, wordAt]
  omega

/-- The root runs an access of 4 bytes that is not to the data register of a pair. -/
theorem csrRun_four {s : State} (a : CsrAcc) (h1 : a.low = none) (h2 : a.len = 4) (hi : indPair a.off = none) :
    csrRun s a 2 = (match csrAt s a a.off with
      | .wait s1 => s1
      | .fail c => csrFail s a c
      | .done s1 w => csrDeliver s1 a (BitVec.ofNat 64 w.toNat) 0) := by
  have e : a.at = a.off := by simp [CsrAcc.at, h1]
  rw [csrRun, e, hi]
  dsimp only
  cases csrAt s a a.off <;> simp [indAdvance, hi, h1, h2]

/-- One to the data register of a pair (R295). -/
theorem csrRun_pair {s : State} (a : CsrAcc) (k : Nat) (h1 : a.low = none) (h2 : a.len = 4) (hi : indPair a.off = some k) :
    csrRun s a 2 = (match indAt s a k with
      | .wait s1 => s1
      | .fail c => csrFail s a c
      | .done s1 w => csrDeliver (indAdvance s1 a.off) a (BitVec.ofNat 64 w.toNat) 0) := by
  have e : a.at = a.off := by simp [CsrAcc.at, h1]
  rw [csrRun, e, hi]
  dsimp only
  cases indAt s a k <;> simp [h1, h2]

/-- A write of a register that the root serves (R292). -/
theorem csrPut_serves {s : State} {m : Master} {off : Nat} {w : Word} (h : Serves s off) (h4 : off % 4 = 0) (hi : indPair off = none) :
    csrPut s m off w = emit (regWrite s off w) (.regDone m off 0 0) := by
  rw [csrPut, if_neg (by omega), csrArrive_free _ h.1 h.2.1, csrRun_four _ rfl rfl hi, csrAt_serves_write h rfl, word_of_put]
  simp [csrDeliver]

/-- An access to a block that is off, gated or absent (R38). -/
theorem csrPut_refused {s : State} {m : Master} {off : Nat} {w : Word} (h1 : s.csrWaits = []) (h2 : s.indOut = none) (h4 : off % 4 = 0) (hi : indPair off = none)
    (h : (place off).isNone = true ∨ blockUp s off = false) :
    csrPut s m off w = emit (if m = .host then aer (pciErr (failAccess s (csrAddr s off) 6 (masterIx m)) F.PCI_ERR_CA) 1
      else failAccess s (csrAddr s off) 6 (masterIx m)) (.regDone m off 0 6) := by
  rw [csrPut, if_neg (by omega), csrArrive_free _ h1 h2, csrRun_four _ rfl rfl hi, csrAt_refused h]
  simp [csrFail, csrDeliver]

end Sys2Proof.Machine
end

