-- ==== Sys2Proof/Laws/Messages.lean ====
section
/-! SUPPORT. Every row by which a message arrives is one arrival at the link layer. -/

namespace Sys2Proof.Machine

theorem exec_flitRows {i : Instr} {side : Side} {f : Flit} (s : State) (h : i ∈ flitRows side f) : exec i s = after s (recvFlit s side f) := by
  simp only [flitRows, answerRows, List.cons_append, List.nil_append, List.mem_cons, List.not_mem_nil, or_false] at h
  rcases h with rfl | rfl | rfl | rfl | rfl | rfl | rfl | rfl | rfl | rfl | rfl | rfl | rfl | rfl | rfl | rfl | rfl | rfl | rfl | rfl | rfl | rfl |
    rfl | rfl | rfl | rfl | rfl | rfl | rfl | rfl <;> rfl

/-- What a row that brings a flit does is the flit's arrival (R45). -/
theorem exec_arrives {i : Instr} {side : Side} {f : Flit} (s : State) (h : Arrives i side f) : exec i s = after s (recvFlit s side f) := by
  rcases h with h | rfl | ⟨p, rfl, h⟩ | ⟨l, rfl, rfl | h⟩
  · exact exec_flitRows s h
  · rfl
  · simp only [portRows, List.mem_cons, List.not_mem_nil, or_false] at h
    rcases h with rfl | rfl | rfl | rfl | rfl <;> rfl
  · rfl
  · simp only [linkRows, List.mem_cons, List.not_mem_nil, or_false] at h
    rcases h with rfl | rfl | rfl | rfl | rfl | rfl | rfl | rfl | rfl | rfl <;> rfl

theorem acts_arrives {i : Instr} {side : Side} {f : Flit} {s u : State} (h : Arrives i side f) (e : recvFlit s side f = u) :
    Acts i s u := acts_after (exec_arrives s h) e

/-- A request at a port is such a message. -/
theorem requestRows_arrive {i : Instr} {p : Fin 6} {f : Flit} (h : i ∈ requestRows p f) : Arrives i (.ap p) f := by
  simp only [requestRows, List.mem_cons, List.not_mem_nil, or_false] at h
  rcases h with rfl | rfl | rfl | rfl | rfl | rfl | rfl | rfl | rfl | rfl | rfl | rfl | rfl | rfl | rfl | rfl | rfl | rfl | rfl | rfl | rfl | rfl | rfl
  all_goals first
    | (refine .inl ?_; simp [flitRows]; done)
    | (refine .inr (.inr (.inl ⟨p, rfl, ?_⟩)); simp [portRows])

theorem answerRows_arrive {i : Instr} {side : Side} {f : Flit} (h : i ∈ answerRows side f) : Arrives i side f :=
  .inl (by simp only [flitRows, List.mem_append]; exact .inr h)

/-- What a flit carries does not depend on its route word. -/
@[simp] theorem flitOn_hdr (f : Flit) (side : Side) : (flitOn f side).hdr = f.hdr := by cases side <;> rfl
@[simp] theorem flitOn_data (f : Flit) (side : Side) : (flitOn f side).data = f.data := by cases side <;> rfl
@[simp] theorem flitOn_message (f : Flit) (side : Side) : (flitOn f side).message = f.message := by cases side <;> rfl
@[simp] theorem flitOn_ftype (f : Flit) (side : Side) : (flitOn f side).ftype = f.ftype := by cases side <;> rfl
@[simp] theorem flitOn_opc (f : Flit) (side : Side) : (flitOn f side).opc = f.opc := by cases side <;> rfl
@[simp] theorem flitOn_fSeq (f : Flit) (side : Side) : fSeq (flitOn f side) = fSeq f := by cases side <;> rfl
@[simp] theorem flitOn_fAck (f : Flit) (side : Side) : fAck (flitOn f side) = fAck f := by cases side <;> rfl
@[simp] theorem flitOn_goodCheck (f : Flit) (side : Side) : goodCheck side (flitOn f side) = goodCheck side f := by cases side <;> rfl

/-- A flit with a message goes to the message layer. -/
theorem recvFlit_message {s : State} {side : Side} {f : Flit} (h : f.message = true) : recvFlit s side f = recvMsg s side (flitOn f side) := by
  have h' : f.ftype = 1 ∨ f.ftype = 2 := by simpa [Flit.message] using h
  unfold recvFlit
  simp only [flitOn_ftype]
  rcases h' with h' | h' <;> simp only [h']

@[simp] theorem takeAck_rxSeq (k : Lnk) (a : Nat) : (takeAck k a).rxSeq = k.rxSeq := by
  simp only [takeAck]; split <;> rfl
@[simp] theorem takeAck_room (k : Lnk) (a : Nat) : (takeAck k a).room = k.room := by
  simp only [takeAck]; split <;> rfl
@[simp] theorem takeAck_owed (k : Lnk) (a : Nat) : (takeAck k a).owed = k.owed := by
  simp only [takeAck]; split <;> rfl
@[simp] theorem takeAck_txSeq (k : Lnk) (a : Nat) : (takeAck k a).txSeq = k.txSeq := by
  simp only [takeAck]; split <;> rfl
@[simp] theorem takeAck_egress (k : Lnk) (a : Nat) : (takeAck k a).egress = k.egress := by
  simp only [takeAck]; split <;> rfl
@[simp] theorem takeAck_crd (k : Lnk) (a : Nat) : (takeAck k a).crd = k.crd := by
  simp only [takeAck]; split <;> rfl

/-- The link state after a flit in sequence (R48, R53). -/
def heard (k : Lnk) (f : Flit) : Lnk :=
  let k1 := takeAck k (fAck f)
  { k1 with rxSeq := (k1.rxSeq + 1) % 256, nakked := false, crd := setCr k1.crd (fCrcls f) (cr k1.crd (fCrcls f) + fCrcnt f) }

/-- The link layer takes a flit in sequence, and none out of it (R48). -/
theorem accept_in {s : State} {side : Side} {f : Flit} (h : fSeq f = (lnkOf s side).rxSeq) :
    accept s side f = (push (setLnk s side (heard (lnkOf s side) f)) (.egress side), true) := by
  unfold accept; simp only [takeAck_rxSeq, if_pos h]; simp [heard]
theorem accept_out {s : State} {side : Side} {f : Flit} (h : fSeq f ≠ (lnkOf s side).rxSeq) : accept s side f = (s, false) := by
  unfold accept; simp only [takeAck_rxSeq, if_neg h]

theorem recvMsg_in {s : State} {side : Side} {f : Flit} (h1 : ltssm s side = 6) (h2 : goodCheck side f = true)
    (h3 : fSeq f = (lnkOf s side).rxSeq) (h4 : getF s F.CLK_STAT_CST ≠ 4) :
    recvMsg s side f = takeMsg (push (setLnk s side (heard (lnkOf s side) f)) (.egress side)) side f := by
  unfold recvMsg
  rw [if_neg (by simp [h1]), if_neg (by simp [h2]), accept_in h3]
  simp [h4]

theorem acts_hears {i : Instr} {side : Side} {f : Flit} {s u : State} (h : Arrives i side f) (a : Hears s side f)
    (e : takeMsg (push (setLnk s side (heard (lnkOf s side) (flitOn f side))) (.egress side)) side (flitOn f side) = u) : Acts i s u :=
  acts_arrives h (by rw [recvFlit_message a.1, recvMsg_in a.2.1 (by simpa using a.2.2.1) (by simpa using a.2.2.2.1) a.2.2.2.2, e])

/-- The header's opcode, as the decoder and as well-formedness read it. -/
theorem fOpc_eq (f : Flit) : fOpc f = f.opc := by
  simp [fOpc, Flit.opc, bits, Nat.shiftRight_eq_div_pow]

/-- What the port does with a request in sequence that has room (R53, R55). -/
theorem portMsg_request {s : State} {p : Fin 6} {f : Flit} (h : 1 ≤ fOpc f ∧ fOpc f ≤ 0x0F) (hd : opData (fOpc f) = decide (fType f = 2))
    (hr : 0 < (port s p).lnk.room.1) :
    portMsg s p f = portReq (setPort s p { port s p with lnk := { (port s p).lnk with room := ((port s p).lnk.room.1 - 1, (port s p).lnk.room.2) } }) p f := by
  have c : opClass (fOpc f) = some 0 := by
    unfold opClass; rw [if_neg (by omega), if_pos (by omega)]
  have a : opFromAgent (fOpc f) = true := by simp [opFromAgent]; omega
  have z : cr (port s p).lnk.room 0 = (port s p).lnk.room.1 := rfl
  unfold portMsg
  simp only [c, a, apS_val]
  rw [if_neg (by simp), if_neg (by simp [hd])]
  simp [takeRoom, lnkOf, z, Nat.pos_iff_ne_zero.mp hr, setLnk, setCr]

end Sys2Proof.Machine
end

