-- ==== Sys2Proof/Laws/PerInstr.lean ====
section
/-! SUPPORT. For each command: it completes, and the commands that wait are untouched. -/

namespace Sys2Proof.Laws

open Sys2Proof Sys2Proof.Machine

/-- The command answers a next state for every machine, and leaves the queue alone. -/
def Completes.Statement (i : Instr) : Prop := ∀ s : State, ∃ u : State, exec i s = .next u ∧ u.pending = s.pending

theorem Completes.rdShared (side : Side) (f : Flit) (flip : Option Flip) :
    Completes.Statement (.rdShared side f flip) := fun _ => ⟨_, rfl, rfl⟩
theorem Completes.rdOwn (side : Side) (f : Flit) : Completes.Statement (.rdOwn side f) := fun _ => ⟨_, rfl, rfl⟩
theorem Completes.rdOnce (side : Side) (f : Flit) : Completes.Statement (.rdOnce side f) := fun _ => ⟨_, rfl, rfl⟩
theorem Completes.upgrade (side : Side) (f : Flit) : Completes.Statement (.upgrade side f) := fun _ => ⟨_, rfl, rfl⟩
theorem Completes.itom (side : Side) (f : Flit) : Completes.Statement (.itom side f) := fun _ => ⟨_, rfl, rfl⟩
theorem Completes.wrPtl (side : Side) (f : Flit) : Completes.Statement (.wrPtl side f) := fun _ => ⟨_, rfl, rfl⟩
theorem Completes.wrLine (side : Side) (f : Flit) : Completes.Statement (.wrLine side f) := fun _ => ⟨_, rfl, rfl⟩
theorem Completes.stashWr (side : Side) (f : Flit) : Completes.Statement (.stashWr side f) := fun _ => ⟨_, rfl, rfl⟩
theorem Completes.evict (side : Side) (f : Flit) : Completes.Statement (.evict side f) := fun _ => ⟨_, rfl, rfl⟩
theorem Completes.atomHome (side : Side) (f : Flit) : Completes.Statement (.atomHome side f) := fun _ => ⟨_, rfl, rfl⟩
theorem Completes.atomMem (side : Side) (f : Flit) : Completes.Statement (.atomMem side f) := fun _ => ⟨_, rfl, rfl⟩
theorem Completes.rsvLd (side : Side) (f : Flit) : Completes.Statement (.rsvLd side f) := fun _ => ⟨_, rfl, rfl⟩
theorem Completes.condSt (side : Side) (f : Flit) : Completes.Statement (.condSt side f) := fun _ => ⟨_, rfl, rfl⟩
theorem Completes.fenceLb (p : Fin 6) (f : Flit) : Completes.Statement (.fenceLb p f) := fun _ => ⟨_, rfl, rfl⟩
theorem Completes.fenceSb (p : Fin 6) (f : Flit) : Completes.Statement (.fenceSb p f) := fun _ => ⟨_, rfl, rfl⟩
theorem Completes.fenceFb (p : Fin 6) (f : Flit) : Completes.Statement (.fenceFb p f) := fun _ => ⟨_, rfl, rfl⟩
theorem Completes.maintClean (side : Side) (f : Flit) : Completes.Statement (.maintClean side f) := fun _ => ⟨_, rfl, rfl⟩
theorem Completes.maintInvalidate (side : Side) (f : Flit) : Completes.Statement (.maintInvalidate side f) := fun _ => ⟨_, rfl, rfl⟩
theorem Completes.maintCleanAndInvalidate (side : Side) (f : Flit) :
    Completes.Statement (.maintCleanAndInvalidate side f) := fun _ => ⟨_, rfl, rfl⟩
theorem Completes.maintPersist (side : Side) (f : Flit) : Completes.Statement (.maintPersist side f) := fun _ => ⟨_, rfl, rfl⟩
theorem Completes.maintPreloadLock (side : Side) (f : Flit) :
    Completes.Statement (.maintPreloadLock side f) := fun _ => ⟨_, rfl, rfl⟩
theorem Completes.maintUnlock (side : Side) (f : Flit) : Completes.Statement (.maintUnlock side f) := fun _ => ⟨_, rfl, rfl⟩
theorem Completes.zeroLine (side : Side) (f : Flit) : Completes.Statement (.zeroLine side f) := fun _ => ⟨_, rfl, rfl⟩
theorem Completes.linkKeep (side : Side) (f : Flit) : Completes.Statement (.linkKeep side f) := fun _ => ⟨_, rfl, rfl⟩
theorem Completes.null (side : Side) (f : Flit) : Completes.Statement (.null side f) := fun _ => ⟨_, rfl, rfl⟩
theorem Completes.rspI (side : Side) (f : Flit) : Completes.Statement (.rspI side f) := fun _ => ⟨_, rfl, rfl⟩
theorem Completes.rspS (side : Side) (f : Flit) : Completes.Statement (.rspS side f) := fun _ => ⟨_, rfl, rfl⟩
theorem Completes.rspF (side : Side) (f : Flit) : Completes.Statement (.rspF side f) := fun _ => ⟨_, rfl, rfl⟩
theorem Completes.rspWbPending (side : Side) (f : Flit) : Completes.Statement (.rspWbPending side f) := fun _ => ⟨_, rfl, rfl⟩
theorem Completes.datClean (side : Side) (f : Flit) : Completes.Statement (.datClean side f) := fun _ => ⟨_, rfl, rfl⟩
theorem Completes.datDirty (side : Side) (f : Flit) : Completes.Statement (.datDirty side f) := fun _ => ⟨_, rfl, rfl⟩
theorem Completes.wbData (side : Side) (f : Flit) : Completes.Statement (.wbData side f) := fun _ => ⟨_, rfl, rfl⟩
theorem Completes.nak (side : Side) (f : Flit) : Completes.Statement (.nak side f) := fun _ => ⟨_, rfl, rfl⟩
theorem Completes.cap (p : Fin 6) (f : Flit) : Completes.Statement (.cap p f) := fun _ => ⟨_, rfl, rfl⟩
theorem Completes.capAck (p : Fin 6) (f : Flit) : Completes.Statement (.capAck p f) := fun _ => ⟨_, rfl, rfl⟩
theorem Completes.badCheckValue (side : Side) : Completes.Statement (.badCheckValue side) := fun _ => ⟨_, rfl, rfl⟩
theorem Completes.ackDue (side : Side) : Completes.Statement (.ackDue side) := fun _ => ⟨_, rfl, rfl⟩
theorem Completes.replayTimeout (side : Side) : Completes.Statement (.replayTimeout side) := fun _ => ⟨_, rfl, rfl⟩
theorem Completes.blockLockLoss (side : Side) : Completes.Statement (.blockLockLoss side) := fun _ => ⟨_, rfl, rfl⟩
theorem Completes.retrain (m : Master) (side : Side) : Completes.Statement (.retrain m side) := fun _ => ⟨_, rfl, rfl⟩
theorem Completes.recoveryTimeout (side : Side) : Completes.Statement (.recoveryTimeout side) := fun _ => ⟨_, rfl, rfl⟩
theorem Completes.ltssmAdvance (side : Side) (lanes : BitVec 16) (reversed : Bool) :
    Completes.Statement (.ltssmAdvance side lanes reversed) := fun _ => ⟨_, rfl, rfl⟩
theorem Completes.trainingTimeout (side : Side) : Completes.Statement (.trainingTimeout side) := fun _ => ⟨_, rfl, rfl⟩
theorem Completes.capResend (p : Fin 6) : Completes.Statement (.capResend p) := fun _ => ⟨_, rfl, rfl⟩
theorem Completes.linkkeepInterval (side : Side) : Completes.Statement (.linkkeepInterval side) := fun _ => ⟨_, rfl, rfl⟩
theorem Completes.heartbeatTimeout (side : Side) : Completes.Statement (.heartbeatTimeout side) := fun _ => ⟨_, rfl, rfl⟩
theorem Completes.forwardTimeout (p : Fin 6) (txid : BitVec 10) : Completes.Statement (.forwardTimeout p txid) := fun _ => ⟨_, rfl, rfl⟩
theorem Completes.portReset (m : Master) (p : Fin 6) : Completes.Statement (.portReset m p) := fun _ => ⟨_, rfl, rfl⟩
theorem Completes.deadAgentScanDone (slice : Fin 32) (dev : Fin 4) (port : Fin 6) :
    Completes.Statement (.deadAgentScanDone slice dev port) := fun _ => ⟨_, rfl, rfl⟩
theorem Completes.reclamationDone (p : Fin 6) : Completes.Statement (.reclamationDone p) := fun _ => ⟨_, rfl, rfl⟩
theorem Completes.fill (slice : Fin 32) (line : LineAddr) (err : BitVec 640) :
    Completes.Statement (.fill slice line err) := fun _ => ⟨_, rfl, rfl⟩
theorem Completes.repairAction (loc : RepairLoc) : Completes.Statement (.repairAction loc) := fun _ => ⟨_, rfl, rfl⟩
theorem Completes.conflictQueueLeave (slice : Fin 32) : Completes.Statement (.conflictQueueLeave slice) := fun _ => ⟨_, rfl, rfl⟩
theorem Completes.evictionIssue (slice : Fin 32) (line : LineAddr) :
    Completes.Statement (.evictionIssue slice line) := fun _ => ⟨_, rfl, rfl⟩
theorem Completes.evictionConfirm (slice : Fin 32) (line : LineAddr) :
    Completes.Statement (.evictionConfirm slice line) := fun _ => ⟨_, rfl, rfl⟩
theorem Completes.atomMemCompletion (slice : Fin 32) (line : LineAddr) (err : BitVec 640) :
    Completes.Statement (.atomMemCompletion slice line err) := fun _ => ⟨_, rfl, rfl⟩
theorem Completes.iwbAgeExpiry (p : Fin 6) (entry : Nat) : Completes.Statement (.iwbAgeExpiry p entry) := fun _ => ⟨_, rfl, rfl⟩
theorem Completes.iwbEntryTaken (p : Fin 6) (entry : Nat) : Completes.Statement (.iwbEntryTaken p entry) := fun _ => ⟨_, rfl, rfl⟩
theorem Completes.inboundPieceTaken : Completes.Statement .inboundPieceTaken := fun _ => ⟨_, rfl, rfl⟩
theorem Completes.sliceInitDone (slice : Fin 32) : Completes.Statement (.sliceInitDone slice) := fun _ => ⟨_, rfl, rfl⟩
theorem Completes.drainingWalkDone (slice : Fin 32) : Completes.Statement (.drainingWalkDone slice) := fun _ => ⟨_, rfl, rfl⟩
theorem Completes.evacuationEmpty (slice : Fin 32) : Completes.Statement (.evacuationEmpty slice) := fun _ => ⟨_, rfl, rfl⟩
theorem Completes.cleaningConfirm (slice : Fin 32) (line : LineAddr) :
    Completes.Statement (.cleaningConfirm slice line) := fun _ => ⟨_, rfl, rfl⟩
theorem Completes.mopClean (m : Master) (slot : Fin 4) (scope : BitVec 3) (prio : Bool) :
    Completes.Statement (.mopClean m slot scope prio) := fun _ => ⟨_, rfl, rfl⟩
theorem Completes.mopInvalidate (m : Master) (slot : Fin 4) (scope : BitVec 3) (prio : Bool) :
    Completes.Statement (.mopInvalidate m slot scope prio) := fun _ => ⟨_, rfl, rfl⟩
theorem Completes.mopCleanAndInvalidate (m : Master) (slot : Fin 4) (scope : BitVec 3) (prio : Bool) :
    Completes.Statement (.mopCleanAndInvalidate m slot scope prio) := fun _ => ⟨_, rfl, rfl⟩
theorem Completes.mopPersist (m : Master) (slot : Fin 4) (scope : BitVec 3) (prio : Bool) :
    Completes.Statement (.mopPersist m slot scope prio) := fun _ => ⟨_, rfl, rfl⟩
theorem Completes.mopPreloadLock (m : Master) (slot : Fin 4) (scope : BitVec 3) (prio : Bool) :
    Completes.Statement (.mopPreloadLock m slot scope prio) := fun _ => ⟨_, rfl, rfl⟩
theorem Completes.mopUnlock (m : Master) (slot : Fin 4) (scope : BitVec 3) (prio : Bool) :
    Completes.Statement (.mopUnlock m slot scope prio) := fun _ => ⟨_, rfl, rfl⟩
theorem Completes.mopZeroLine (m : Master) (slot : Fin 4) (scope : BitVec 3) (prio : Bool) :
    Completes.Statement (.mopZeroLine m slot scope prio) := fun _ => ⟨_, rfl, rfl⟩
theorem Completes.mopSweep (m : Master) (slot : Fin 4) (scope : BitVec 3) (prio : Bool) :
    Completes.Statement (.mopSweep m slot scope prio) := fun _ => ⟨_, rfl, rfl⟩
theorem Completes.mopAbort (m : Master) (slot : Fin 4) : Completes.Statement (.mopAbort m slot) := fun _ => ⟨_, rfl, rfl⟩
theorem Completes.mopRel (m : Master) (slot : Fin 4) : Completes.Statement (.mopRel m slot) := fun _ => ⟨_, rfl, rfl⟩
theorem Completes.mopLinePerformed (slot : Fin 4) : Completes.Statement (.mopLinePerformed slot) := fun _ => ⟨_, rfl, rfl⟩
theorem Completes.sweepGapExpiry (slot : Fin 4) : Completes.Statement (.sweepGapExpiry slot) := fun _ => ⟨_, rfl, rfl⟩
theorem Completes.slcRmapWrite (m : Master) (slice : Fin 32) (k : Fin 8) (w : Word) :
    Completes.Statement (.slcRmapWrite m slice k w) := fun _ => ⟨_, rfl, rfl⟩
theorem Completes.wayRemapDone (slice : Fin 32) (k : Fin 8) : Completes.Statement (.wayRemapDone slice k) := fun _ => ⟨_, rfl, rfl⟩
theorem Completes.cstRmdatWrite (m : Master) (w : Word) : Completes.Statement (.cstRmdatWrite m w) := fun _ => ⟨_, rfl, rfl⟩
theorem Completes.cisternRemapCopyDone (die : Fin 2) (entry : Fin 64) :
    Completes.Statement (.cisternRemapCopyDone die entry) := fun _ => ⟨_, rfl, rfl⟩
theorem Completes.cstRmidxWrite (m : Master) (w : Word) : Completes.Statement (.cstRmidxWrite m w) := fun _ => ⟨_, rfl, rfl⟩
theorem Completes.cstRidxWrite (m : Master) (w : Word) : Completes.Statement (.cstRidxWrite m w) := fun _ => ⟨_, rfl, rfl⟩
theorem Completes.slcDbgIdxWrite (m : Master) (slice : Fin 32) (w : Word) :
    Completes.Statement (.slcDbgIdxWrite m slice w) := fun _ => ⟨_, rfl, rfl⟩
theorem Completes.gapMove (preg : BitVec 8) : Completes.Statement (.gapMove preg) := fun _ => ⟨_, rfl, rfl⟩
theorem Completes.wearCompare : Completes.Statement .wearCompare := fun _ => ⟨_, rfl, rfl⟩
theorem Completes.regionCopyDone (die : Fin 2) : Completes.Statement (.regionCopyDone die) := fun _ => ⟨_, rfl, rfl⟩
theorem Completes.regionMapConfirmed (die : Fin 2) : Completes.Statement (.regionMapConfirmed die) := fun _ => ⟨_, rfl, rfl⟩
theorem Completes.governorAdmit : Completes.Statement .governorAdmit := fun _ => ⟨_, rfl, rfl⟩
theorem Completes.checkpointGo (m : Master) : Completes.Statement (.checkpointGo m) := fun _ => ⟨_, rfl, rfl⟩
theorem Completes.checkpointRel (m : Master) : Completes.Statement (.checkpointRel m) := fun _ => ⟨_, rfl, rfl⟩
theorem Completes.checkpointWritesConfirmed : Completes.Statement .checkpointWritesConfirmed := fun _ => ⟨_, rfl, rfl⟩
theorem Completes.checkpointRecordConfirmed : Completes.Statement .checkpointRecordConfirmed := fun _ => ⟨_, rfl, rfl⟩
theorem Completes.settingsRecordConfirmed : Completes.Statement .settingsRecordConfirmed := fun _ => ⟨_, rfl, rfl⟩
theorem Completes.warnTrip : Completes.Statement .warnTrip := fun _ => ⟨_, rfl, rfl⟩
theorem Completes.resetTrip : Completes.Statement .resetTrip := fun _ => ⟨_, rfl, rfl⟩
theorem Completes.sagComparatorClear (warn : Bool) : Completes.Statement (.sagComparatorClear warn) := fun _ => ⟨_, rfl, rfl⟩
theorem Completes.railMonitorTrip (k : Fin 8) : Completes.Statement (.railMonitorTrip k) := fun _ => ⟨_, rfl, rfl⟩
theorem Completes.railBelowMinimum (k : Fin 8) : Completes.Statement (.railBelowMinimum k) := fun _ => ⟨_, rfl, rfl⟩
theorem Completes.channelShed (c : Fin 4) : Completes.Statement (.channelShed c) := fun _ => ⟨_, rfl, rfl⟩
theorem Completes.peerReportWaitExpiry : Completes.Statement .peerReportWaitExpiry := fun _ => ⟨_, rfl, rfl⟩
theorem Completes.drainScanDone (slice : Fin 32) : Completes.Statement (.drainScanDone slice) := fun _ => ⟨_, rfl, rfl⟩
theorem Completes.segmentConfirmed (slice : Fin 32) : Completes.Statement (.segmentConfirmed slice) := fun _ => ⟨_, rfl, rfl⟩
theorem Completes.drainForwardTimeout (p : Fin 6) (txid : BitVec 10) :
    Completes.Statement (.drainForwardTimeout p txid) := fun _ => ⟨_, rfl, rfl⟩
theorem Completes.drainPassDone : Completes.Statement .drainPassDone := fun _ => ⟨_, rfl, rfl⟩
theorem Completes.sealConfirmed : Completes.Statement .sealConfirmed := fun _ => ⟨_, rfl, rfl⟩
theorem Completes.supplyRecovery : Completes.Statement .supplyRecovery := fun _ => ⟨_, rfl, rfl⟩
theorem Completes.warmReset (m : Master) (w : Word) : Completes.Statement (.warmReset m w) := fun _ => ⟨_, rfl, rfl⟩
theorem Completes.warmResetEntryTimeout : Completes.Statement .warmResetEntryTimeout := fun _ => ⟨_, rfl, rfl⟩
theorem Completes.suspectAccept (m : Master) (w : Word) : Completes.Statement (.suspectAccept m w) := fun _ => ⟨_, rfl, rfl⟩
theorem Completes.primingDone : Completes.Statement .primingDone := fun _ => ⟨_, rfl, rfl⟩
theorem Completes.refresh (c : Fin 4) : Completes.Statement (.refresh c) := fun _ => ⟨_, rfl, rfl⟩
theorem Completes.caParityAlert (c : Fin 4) (sub : BitVec 1) (rank : BitVec 2) (retryOk : Bool) :
    Completes.Statement (.caParityAlert c sub rank retryOk) := fun _ => ⟨_, rfl, rfl⟩
theorem Completes.channelTrainingDone (c : Fin 4) (ok : Bool) : Completes.Statement (.channelTrainingDone c ok) := fun _ => ⟨_, rfl, rfl⟩
theorem Completes.markLeak (c : Fin 4) : Completes.Statement (.markLeak c) := fun _ => ⟨_, rfl, rfl⟩
theorem Completes.mchMarkWrite (m : Master) (c : Fin 4) (k : Fin 8) (w : Word) :
    Completes.Statement (.mchMarkWrite m c k w) := fun _ => ⟨_, rfl, rfl⟩
theorem Completes.mchCidxWrite (m : Master) (c : Fin 4) (w : Word) : Completes.Statement (.mchCidxWrite m c w) := fun _ => ⟨_, rfl, rfl⟩
theorem Completes.phaseAEdge (rising : Bool) : Completes.Statement (.phaseAEdge rising) := fun _ => ⟨_, rfl, rfl⟩
theorem Completes.phaseZEdge (rising : Bool) : Completes.Statement (.phaseZEdge rising) := fun _ => ⟨_, rfl, rfl⟩
theorem Completes.quadCount (q : Quad) : Completes.Statement (.quadCount q) := fun _ => ⟨_, rfl, rfl⟩
theorem Completes.coastedBoundary : Completes.Statement .coastedBoundary := fun _ => ⟨_, rfl, rfl⟩
theorem Completes.quadNoEdgeTimeout : Completes.Statement .quadNoEdgeTimeout := fun _ => ⟨_, rfl, rfl⟩
theorem Completes.openQuietWindow (k : Fin 32) : Completes.Statement (.openQuietWindow k) := fun _ => ⟨_, rfl, rfl⟩
theorem Completes.closeQuietWindow (k : Fin 32) : Completes.Statement (.closeQuietWindow k) := fun _ => ⟨_, rfl, rfl⟩
theorem Completes.quietWindowMax : Completes.Statement .quietWindowMax := fun _ => ⟨_, rfl, rfl⟩
theorem Completes.applyBoundary (slot : Option (Fin 32)) : Completes.Statement (.applyBoundary slot) := fun _ => ⟨_, rfl, rfl⟩
theorem Completes.slotCheckpoint (k : Fin 32) : Completes.Statement (.slotCheckpoint k) := fun _ => ⟨_, rfl, rfl⟩
theorem Completes.measurementSnapshot (k : Fin 32) : Completes.Statement (.measurementSnapshot k) := fun _ => ⟨_, rfl, rfl⟩
theorem Completes.raiseEvent (k : Fin 32) : Completes.Statement (.raiseEvent k) := fun _ => ⟨_, rfl, rfl⟩
theorem Completes.troReady : Completes.Statement .troReady := fun _ => ⟨_, rfl, rfl⟩
theorem Completes.xtalReady : Completes.Statement .xtalReady := fun _ => ⟨_, rfl, rfl⟩
theorem Completes.xtalTimeout : Completes.Statement .xtalTimeout := fun _ => ⟨_, rfl, rfl⟩
theorem Completes.rootLock : Completes.Statement .rootLock := fun _ => ⟨_, rfl, rfl⟩
theorem Completes.spllLock : Completes.Statement .spllLock := fun _ => ⟨_, rfl, rfl⟩
theorem Completes.referenceChange : Completes.Statement .referenceChange := fun _ => ⟨_, rfl, rfl⟩
theorem Completes.rampDwell : Completes.Statement .rampDwell := fun _ => ⟨_, rfl, rfl⟩
theorem Completes.xmonTrip : Completes.Statement .xmonTrip := fun _ => ⟨_, rfl, rfl⟩
theorem Completes.tmonTrip : Completes.Statement .tmonTrip := fun _ => ⟨_, rfl, rfl⟩
theorem Completes.rmonTrip : Completes.Statement .rmonTrip := fun _ => ⟨_, rfl, rfl⟩
theorem Completes.troRestartTimeout : Completes.Statement .troRestartTimeout := fun _ => ⟨_, rfl, rfl⟩
theorem Completes.holdEnd : Completes.Statement .holdEnd := fun _ => ⟨_, rfl, rfl⟩
theorem Completes.troFailedHoldEnd : Completes.Statement .troFailedHoldEnd := fun _ => ⟨_, rfl, rfl⟩
theorem Completes.trimGo (m : Master) : Completes.Statement (.trimGo m) := fun _ => ⟨_, rfl, rfl⟩
theorem Completes.trimAutoInterval : Completes.Statement .trimAutoInterval := fun _ => ⟨_, rfl, rfl⟩
theorem Completes.trimPassDone (p : TrimPass) : Completes.Statement (.trimPassDone p) := fun _ => ⟨_, rfl, rfl⟩
theorem Completes.trimPassTimeout : Completes.Statement .trimPassTimeout := fun _ => ⟨_, rfl, rfl⟩
theorem Completes.vcoreReached : Completes.Statement .vcoreReached := fun _ => ⟨_, rfl, rfl⟩
theorem Completes.voltageTimeout : Completes.Statement .voltageTimeout := fun _ => ⟨_, rfl, rfl⟩
theorem Completes.dvfsMStep : Completes.Statement .dvfsMStep := fun _ => ⟨_, rfl, rfl⟩
theorem Completes.thermalStep : Completes.Statement .thermalStep := fun _ => ⟨_, rfl, rfl⟩
theorem Completes.sensorSample (which : Sensor) (temp : BitVec 12) :
    Completes.Statement (.sensorSample which temp) := fun _ => ⟨_, rfl, rfl⟩
theorem Completes.railSample (k : Fin 8) (mv : BitVec 14) : Completes.Statement (.railSample k mv) := fun _ => ⟨_, rfl, rfl⟩
theorem Completes.commit (m : Master) (mask : Word) : Completes.Statement (.commit m mask) := fun _ => ⟨_, rfl, rfl⟩
theorem Completes.modeChangeAck (who : Participant) : Completes.Statement (.modeChangeAck who) := fun _ => ⟨_, rfl, rfl⟩
theorem Completes.modeChangeTimeout : Completes.Statement .modeChangeTimeout := fun _ => ⟨_, rfl, rfl⟩
theorem Completes.domainOnDone (d : Fin 30) : Completes.Statement (.domainOnDone d) := fun _ => ⟨_, rfl, rfl⟩
theorem Completes.domainOffDone (d : Fin 30) : Completes.Statement (.domainOffDone d) := fun _ => ⟨_, rfl, rfl⟩
theorem Completes.mcuRestart (m : Master) : Completes.Statement (.mcuRestart m) := fun _ => ⟨_, rfl, rfl⟩
theorem Completes.chisoRun : Completes.Statement .chisoRun := fun _ => ⟨_, rfl, rfl⟩
theorem Completes.mcuFallback : Completes.Statement .mcuFallback := fun _ => ⟨_, rfl, rfl⟩
theorem Completes.csrWrite (m : Master) (off : BitVec 24) (w : Word) :
    Completes.Statement (.csrWrite m off w) := fun _ => ⟨_, rfl, rfl⟩
theorem Completes.csrTimeout : Completes.Statement .csrTimeout := fun _ => ⟨_, rfl, rfl⟩
theorem Completes.indDataRead (m : Master) (k : Fin 4) : Completes.Statement (.indDataRead m k) := fun _ => ⟨_, rfl, rfl⟩
theorem Completes.indDataWrite (m : Master) (k : Fin 4) (w : Word) : Completes.Statement (.indDataWrite m k w) := fun _ => ⟨_, rfl, rfl⟩
theorem Completes.evqPop (m : Master) : Completes.Statement (.evqPop m) := fun _ => ⟨_, rfl, rfl⟩
theorem Completes.evqPopStall (m : Master) : Completes.Statement (.evqPopStall m) := fun _ => ⟨_, rfl, rfl⟩
theorem Completes.msixUnmask (v : Fin 64) : Completes.Statement (.msixUnmask v) := fun _ => ⟨_, rfl, rfl⟩
theorem Completes.bar0Read (off : BitVec 24) (len : Nat) (tag : Nat) :
    Completes.Statement (.bar0Read off len tag) := fun _ => ⟨_, rfl, rfl⟩
theorem Completes.bar0Write (off : BitVec 24) (bytes : List Byte) (ep : Bool) :
    Completes.Statement (.bar0Write off bytes ep) := fun _ => ⟨_, rfl, rfl⟩
theorem Completes.bar2Read (off : BitVec 28) (len : Nat) (tag : Nat) :
    Completes.Statement (.bar2Read off len tag) := fun _ => ⟨_, rfl, rfl⟩
theorem Completes.bar2Write (off : BitVec 28) (bytes : List (Option Byte)) (ep : Bool) (th : Bool) (st : BitVec 8) :
    Completes.Statement (.bar2Write off bytes ep th st) := fun _ => ⟨_, rfl, rfl⟩
theorem Completes.bar4Write (off : BitVec 14) (w : Word) : Completes.Statement (.bar4Write off w) := fun _ => ⟨_, rfl, rfl⟩
theorem Completes.pcieCompletionTimeout (tag : Nat) : Completes.Statement (.pcieCompletionTimeout tag) := fun _ => ⟨_, rfl, rfl⟩
theorem Completes.functionLevelReset : Completes.Statement .functionLevelReset := fun _ => ⟨_, rfl, rfl⟩
theorem Completes.hotReset : Completes.Statement .hotReset := fun _ => ⟨_, rfl, rfl⟩
theorem Completes.pciePerst : Completes.Statement .pciePerst := fun _ => ⟨_, rfl, rfl⟩
theorem Completes.dmaTailWrite (m : Master) (c : Fin 2) (w : Word) : Completes.Statement (.dmaTailWrite m c w) := fun _ => ⟨_, rfl, rfl⟩
theorem Completes.dmaEnable (m : Master) (c : Fin 2) : Completes.Statement (.dmaEnable m c) := fun _ => ⟨_, rfl, rfl⟩
theorem Completes.dmaAbort (m : Master) (c : Fin 2) : Completes.Statement (.dmaAbort m c) := fun _ => ⟨_, rfl, rfl⟩
theorem Completes.dmaHostCompletion (c : Fin 2) (off : Nat) (bytes : List Byte) (ep : Bool) (ok : Bool) :
    Completes.Statement (.dmaHostCompletion c off bytes ep ok) := fun _ => ⟨_, rfl, rfl⟩
theorem Completes.dmaDescriptorDone (c : Fin 2) : Completes.Statement (.dmaDescriptorDone c) := fun _ => ⟨_, rfl, rfl⟩
theorem Completes.mbxStart (m : Master) (which : Mbx) (w : Word) : Completes.Statement (.mbxStart m which w) := fun _ => ⟨_, rfl, rfl⟩
theorem Completes.mbxRel (m : Master) (which : Mbx) : Completes.Statement (.mbxRel m which) := fun _ => ⟨_, rfl, rfl⟩
theorem Completes.dictionaryRequestDone : Completes.Statement .dictionaryRequestDone := fun _ => ⟨_, rfl, rfl⟩
theorem Completes.nmtOperational (node : BitVec 7) : Completes.Statement (.nmtOperational node) := fun _ => ⟨_, rfl, rfl⟩
theorem Completes.nmtStopped (node : BitVec 7) : Completes.Statement (.nmtStopped node) := fun _ => ⟨_, rfl, rfl⟩
theorem Completes.nmtPreOperational (node : BitVec 7) : Completes.Statement (.nmtPreOperational node) := fun _ => ⟨_, rfl, rfl⟩
theorem Completes.nmtResetNode (node : BitVec 7) : Completes.Statement (.nmtResetNode node) := fun _ => ⟨_, rfl, rfl⟩
theorem Completes.nmtResetCommunication (node : BitVec 7) : Completes.Statement (.nmtResetCommunication node) := fun _ => ⟨_, rfl, rfl⟩
theorem Completes.sdoDownload (frame : BitVec 64) : Completes.Statement (.sdoDownload frame) := fun _ => ⟨_, rfl, rfl⟩
theorem Completes.sdoUpload (frame : BitVec 64) : Completes.Statement (.sdoUpload frame) := fun _ => ⟨_, rfl, rfl⟩
theorem Completes.sdoSegment (frame : BitVec 64) : Completes.Statement (.sdoSegment frame) := fun _ => ⟨_, rfl, rfl⟩
theorem Completes.sdoAbort (frame : BitVec 64) : Completes.Statement (.sdoAbort frame) := fun _ => ⟨_, rfl, rfl⟩
theorem Completes.sdoTimeout : Completes.Statement .sdoTimeout := fun _ => ⟨_, rfl, rfl⟩
theorem Completes.wellheadOpen (frame : Line) : Completes.Statement (.wellheadOpen frame) := fun _ => ⟨_, rfl, rfl⟩
theorem Completes.wellheadData (frame : Line) : Completes.Statement (.wellheadData frame) := fun _ => ⟨_, rfl, rfl⟩
theorem Completes.wellheadAck (frame : Line) : Completes.Statement (.wellheadAck frame) := fun _ => ⟨_, rfl, rfl⟩
theorem Completes.wellheadEnd (frame : Line) : Completes.Statement (.wellheadEnd frame) := fun _ => ⟨_, rfl, rfl⟩
theorem Completes.wellheadAbort (frame : Line) : Completes.Statement (.wellheadAbort frame) := fun _ => ⟨_, rfl, rfl⟩
theorem Completes.wellheadTimeout : Completes.Statement .wellheadTimeout := fun _ => ⟨_, rfl, rfl⟩
theorem Completes.heartbeatProducer : Completes.Statement .heartbeatProducer := fun _ => ⟨_, rfl, rfl⟩
theorem Completes.tpdoEventTimer (k : Fin 4) : Completes.Statement (.tpdoEventTimer k) := fun _ => ⟨_, rfl, rfl⟩
theorem Completes.emcySend : Completes.Statement .emcySend := fun _ => ⟨_, rfl, rfl⟩
theorem Completes.busOff : Completes.Statement .busOff := fun _ => ⟨_, rfl, rfl⟩
theorem Completes.canTrimRetry : Completes.Statement .canTrimRetry := fun _ => ⟨_, rfl, rfl⟩
theorem Completes.storeParameters (sub : BitVec 8) (sig : Word) : Completes.Statement (.storeParameters sub sig) := fun _ => ⟨_, rfl, rfl⟩
theorem Completes.restoreDefaultParameters (sub : BitVec 8) (sig : Word) :
    Completes.Statement (.restoreDefaultParameters sub sig) := fun _ => ⟨_, rfl, rfl⟩
theorem Completes.bootSlotWrite (slot : Fin 2) (off : Nat) (bytes : List Byte) :
    Completes.Statement (.bootSlotWrite slot off bytes) := fun _ => ⟨_, rfl, rfl⟩
theorem Completes.bootSlotValidate (v : Byte) : Completes.Statement (.bootSlotValidate v) := fun _ => ⟨_, rfl, rfl⟩
theorem Completes.bootActiveWrite (v : Byte) : Completes.Statement (.bootActiveWrite v) := fun _ => ⟨_, rfl, rfl⟩
theorem Completes.firmwareImageWrite (slot : Fin 2) (off : Nat) (bytes : List Byte) :
    Completes.Statement (.firmwareImageWrite slot off bytes) := fun _ => ⟨_, rfl, rfl⟩
theorem Completes.firmwareActivate (v : Byte) : Completes.Statement (.firmwareActivate v) := fun _ => ⟨_, rfl, rfl⟩
theorem Completes.rollbackCommit (v : Byte) : Completes.Statement (.rollbackCommit v) := fun _ => ⟨_, rfl, rfl⟩
theorem Completes.attestNonce (nonce : BitVec 256) : Completes.Statement (.attestNonce nonce) := fun _ => ⟨_, rfl, rfl⟩
theorem Completes.attestReportRead : Completes.Statement .attestReportRead := fun _ => ⟨_, rfl, rfl⟩
theorem Completes.bootRomVerifyDone : Completes.Statement .bootRomVerifyDone := fun _ => ⟨_, rfl, rfl⟩
theorem Completes.secDigest (m : Master) : Completes.Statement (.secDigest m) := fun _ => ⟨_, rfl, rfl⟩
theorem Completes.secVerify (m : Master) : Completes.Statement (.secVerify m) := fun _ => ⟨_, rfl, rfl⟩
theorem Completes.secAttest (m : Master) : Completes.Statement (.secAttest m) := fun _ => ⟨_, rfl, rfl⟩
theorem Completes.secRel (m : Master) : Completes.Statement (.secRel m) := fun _ => ⟨_, rfl, rfl⟩
theorem Completes.secOperationDone : Completes.Statement .secOperationDone := fun _ => ⟨_, rfl, rfl⟩
theorem Completes.crcStart (m : Master) (u : Fin 4) (w : Word) : Completes.Statement (.crcStart m u w) := fun _ => ⟨_, rfl, rfl⟩
theorem Completes.crcFeedD8 (m : Master) (u : Fin 4) (w : Word) : Completes.Statement (.crcFeedD8 m u w) := fun _ => ⟨_, rfl, rfl⟩
theorem Completes.crcFeedD16 (m : Master) (u : Fin 4) (w : Word) : Completes.Statement (.crcFeedD16 m u w) := fun _ => ⟨_, rfl, rfl⟩
theorem Completes.crcFeedD32 (m : Master) (u : Fin 4) (w : Word) : Completes.Statement (.crcFeedD32 m u w) := fun _ => ⟨_, rfl, rfl⟩
theorem Completes.crcFin (m : Master) (u : Fin 4) : Completes.Statement (.crcFin m u) := fun _ => ⟨_, rfl, rfl⟩
theorem Completes.crcRel (m : Master) (u : Fin 4) : Completes.Statement (.crcRel m u) := fun _ => ⟨_, rfl, rfl⟩
theorem Completes.pwrgdIn (devid : BitVec 2) : Completes.Statement (.pwrgdIn devid) := fun _ => ⟨_, rfl, rfl⟩
theorem Completes.settingsStoreReadDone : Completes.Statement .settingsStoreReadDone := fun _ => ⟨_, rfl, rfl⟩
theorem Completes.agentRelease : Completes.Statement .agentRelease := fun _ => ⟨_, rfl, rfl⟩
theorem Completes.fedArstHoldWrite (m : Master) (w : Word) : Completes.Statement (.fedArstHoldWrite m w) := fun _ => ⟨_, rfl, rfl⟩
theorem Completes.arstDriveDelay (p : Fin 6) : Completes.Statement (.arstDriveDelay p) := fun _ => ⟨_, rfl, rfl⟩
theorem Completes.vrAlert : Completes.Statement .vrAlert := fun _ => ⟨_, rfl, rfl⟩
theorem Completes.ident (l : Fin 3) (f : Flit) : Completes.Statement (.ident l f) := fun _ => ⟨_, rfl, rfl⟩
theorem Completes.identAck (l : Fin 3) (f : Flit) : Completes.Statement (.identAck l f) := fun _ => ⟨_, rfl, rfl⟩
theorem Completes.identResend (l : Fin 3) : Completes.Statement (.identResend l) := fun _ => ⟨_, rfl, rfl⟩
theorem Completes.epoch (l : Fin 3) (f : Flit) : Completes.Statement (.epoch l f) := fun _ => ⟨_, rfl, rfl⟩
theorem Completes.epochAck (l : Fin 3) (f : Flit) : Completes.Statement (.epochAck l f) := fun _ => ⟨_, rfl, rfl⟩
theorem Completes.epochAckTimeout (dev : Fin 4) : Completes.Statement (.epochAckTimeout dev) := fun _ => ⟨_, rfl, rfl⟩
theorem Completes.stand (l : Fin 3) (f : Flit) : Completes.Statement (.stand l f) := fun _ => ⟨_, rfl, rfl⟩
theorem Completes.noticeSag (l : Fin 3) (f : Flit) : Completes.Statement (.noticeSag l f) := fun _ => ⟨_, rfl, rfl⟩
theorem Completes.noticeDeadAgent (l : Fin 3) (f : Flit) : Completes.Statement (.noticeDeadAgent l f) := fun _ => ⟨_, rfl, rfl⟩
theorem Completes.noticeLeaveRequest (l : Fin 3) (f : Flit) : Completes.Statement (.noticeLeaveRequest l f) := fun _ => ⟨_, rfl, rfl⟩
theorem Completes.noticeLeaveDone (l : Fin 3) (f : Flit) : Completes.Statement (.noticeLeaveDone l f) := fun _ => ⟨_, rfl, rfl⟩
theorem Completes.noticeNoQueueEntries (l : Fin 3) (f : Flit) :
    Completes.Statement (.noticeNoQueueEntries l f) := fun _ => ⟨_, rfl, rfl⟩
theorem Completes.leaveWalkDone : Completes.Statement .leaveWalkDone := fun _ => ⟨_, rfl, rfl⟩
theorem Completes.fedWaitExpiry : Completes.Statement .fedWaitExpiry := fun _ => ⟨_, rfl, rfl⟩
theorem Completes.readyTimeout (dev : Fin 4) : Completes.Statement (.readyTimeout dev) := fun _ => ⟨_, rfl, rfl⟩
theorem Completes.fedRedo (m : Master) : Completes.Statement (.fedRedo m) := fun _ => ⟨_, rfl, rfl⟩
theorem Completes.linkOutOfService (l : Fin 3) : Completes.Statement (.linkOutOfService l) := fun _ => ⟨_, rfl, rfl⟩
theorem Completes.msrSnap (m : Master) : Completes.Statement (.msrSnap m) := fun _ => ⟨_, rfl, rfl⟩
theorem Completes.msrClr (m : Master) : Completes.Statement (.msrClr m) := fun _ => ⟨_, rfl, rfl⟩
theorem Completes.msrEvselWrite (m : Master) (k : Fin 8) (w : Word) : Completes.Statement (.msrEvselWrite m k w) := fun _ => ⟨_, rfl, rfl⟩
theorem Completes.msrHcfgWrite (m : Master) (w : Word) : Completes.Statement (.msrHcfgWrite m w) := fun _ => ⟨_, rfl, rfl⟩
theorem Completes.msrCidxWrite (m : Master) (w : Word) : Completes.Statement (.msrCidxWrite m w) := fun _ => ⟨_, rfl, rfl⟩
theorem Completes.msrHidxWrite (m : Master) (w : Word) : Completes.Statement (.msrHidxWrite m w) := fun _ => ⟨_, rfl, rfl⟩
theorem Completes.idleFlit (side : Side) (f : Flit) : Completes.Statement (.idleFlit side f) := fun _ => ⟨_, rfl, rfl⟩
theorem Completes.linkDeliveryFromPeerHome (l : Fin 3) (f : Flit) :
    Completes.Statement (.linkDeliveryFromPeerHome l f) := fun _ => ⟨_, rfl, rfl⟩
theorem Completes.peerScanComplete (l : Fin 3) (dev : Fin 4) (port : Fin 6) :
    Completes.Statement (.peerScanComplete l dev port) := fun _ => ⟨_, rfl, rfl⟩
theorem Completes.remoteListDelivery (dev : Fin 4) (line : LineAddr) :
    Completes.Statement (.remoteListDelivery dev line) := fun _ => ⟨_, rfl, rfl⟩
theorem Completes.restartClassificationDone : Completes.Statement .restartClassificationDone := fun _ => ⟨_, rfl, rfl⟩
theorem Completes.aonPowerOn : Completes.Statement .aonPowerOn := fun _ => ⟨_, rfl, rfl⟩
theorem Completes.pwrgdInDeassert : Completes.Statement .pwrgdInDeassert := fun _ => ⟨_, rfl, rfl⟩
theorem Completes.pcieConfigWrite (c : CfgWrite) : Completes.Statement (.pcieConfigWrite c) := fun _ => ⟨_, rfl, rfl⟩
theorem Completes.dmaCompletionTimeout (c : Fin 2) : Completes.Statement (.dmaCompletionTimeout c) := fun _ => ⟨_, rfl, rfl⟩
theorem Completes.busOffRecovery : Completes.Statement .busOffRecovery := fun _ => ⟨_, rfl, rfl⟩

end Sys2Proof.Laws
end

