-- ==== Sys2Proof/Laws/Stores.lean ====
section
/-! SUPPORT. What a write of a DRAM line or of a Cistern line does, and that both stores stay listed in rising order. -/

namespace Sys2Proof.Machine

theorem laOf_congr {s u : State} (h1 : u.csr = s.csr) (h2 : u.eff = s.eff) (pa : Nat) : laOf u pa = laOf s pa := by
  have g : self u = self s := getF_congr h1 _
  unfold laOf ownSize ilvWays
  rw [g]
  cases u; cases s
  simp only at h1 h2
  subst h1 h2
  rfl

/-- The Tier's slot of a line is let go, and nothing else changes (R181). -/
theorem tierClear_eq (s : State) (l : LineAddr) :
    tierClear s l = { s with cis := { s.cis with tier := (tierClear s l).cis.tier } } := by
  unfold tierClear; split <;> rfl

/-- A DRAM write changes its own line and the Tier's slot (R181, R226). -/
theorem dramWrite_dram (s : State) (l : LineAddr) (d : Line) (p : Bool) :
    (dramWrite s l d p).dram = nset s.dram (laOf s (l.toNat * 64) / 64) { data := d, poison := p, chk := lineCheck d p } := by
  rw [dramWrite, tierClear_eq]

@[simp] theorem dramWrite_csr (s : State) (l : LineAddr) (d : Line) (p : Bool) : (dramWrite s l d p).csr = s.csr := by
  rw [dramWrite, tierClear_eq]
@[simp] theorem dramWrite_eff (s : State) (l : LineAddr) (d : Line) (p : Bool) : (dramWrite s l d p).eff = s.eff := by
  rw [dramWrite, tierClear_eq]
@[simp] theorem dramWrite_slices (s : State) (l : LineAddr) (d : Line) (p : Bool) : (dramWrite s l d p).slices = s.slices := by
  rw [dramWrite, tierClear_eq]

/-- DRAM lines stay listed in rising order. -/
theorem dramWrite_sorted {s : State} (l : LineAddr) (d : Line) (p : Bool) (h : nsorted s.dram = true) :
    nsorted (dramWrite s l d p).dram = true := by
  rw [dramWrite_dram]; exact nsorted_nset _ _ _ h

theorem nget_nerase_same {α : Type} (m : NMap α) (k : Nat) (h : nsorted m = true) : nget (nerase m k) k = none := by
  induction m with
  | nil => rfl
  | cons e r ih =>
    obtain ⟨i, x⟩ := e
    have hr := (nsorted_cons.mp h)
    by_cases hik : i = k
    · subst hik
      simp only [nerase, if_true]
      have : ∀ f ∈ r, i < f.1 := fun f hf => hr.1 f hf
      clear ih h hr
      induction r with
      | nil => rfl
      | cons f q ih =>
        obtain ⟨j, y⟩ := f
        have hj : i < j := this (j, y) (by simp)
        simp only [nget, if_neg (by omega : ¬ j = i), if_pos hj]
    · simp only [nerase, if_neg hik]
      by_cases hlt : k < i
      · simp only [nget, if_neg hik, if_pos hlt]
      · simp only [nget, if_neg hik, if_neg hlt]
        exact ih hr.2

theorem nget_none_of_lt {α : Type} {m : NMap α} {k : Nat} (h : ∀ f ∈ m, k < f.1) : nget m k = none := by
  cases m with
  | nil => rfl
  | cons e r =>
    obtain ⟨i, x⟩ := e
    have : k < i := h (i, x) (by simp)
    simp only [nget, if_neg (by omega : ¬ i = k), if_pos this]

theorem nget_nerase_ne {α : Type} (m : NMap α) (k j : Nat) (h : nsorted m = true) (hj : j ≠ k) : nget (nerase m k) j = nget m j := by
  induction m with
  | nil => rfl
  | cons e r ih =>
    obtain ⟨i, x⟩ := e
    have hr := (nsorted_cons.mp h)
    by_cases hik : i = k
    · subst hik
      simp only [nerase, if_true, nget, if_neg (Ne.symm hj)]
      by_cases hlt : j < i
      · rw [if_pos hlt]
        exact nget_none_of_lt (fun f hf => lt_trans hlt (hr.1 f hf))
      · rw [if_neg hlt]
    · simp only [nerase, if_neg hik]
      by_cases hlt : k < i
      · simp only [if_pos hlt]
      · simp only [if_neg hlt, nget, ih hr.2]

/-- A Cistern line set reads back, and the rest of the store is as it was (R168, R169). -/
theorem cisGet_cisSet {s : State} (n m : Nat) (c : CLine) (h : nsorted s.cis.lines = true) :
    cisGet (cisSet s n c) m = if m = n then c else cisGet s m := by
  have hb : ∀ k, blankLine (cisSet s n c) k = blankLine s k := fun _ => rfl
  unfold cisGet
  rw [hb]
  simp only [cisSet]
  split
  · rename_i hc
    by_cases hm : m = n
    · subst hm
      rw [nget_nerase_same _ _ h, if_pos rfl, hc]; rfl
    · rw [nget_nerase_ne _ _ _ h hm, if_neg hm]
  · rw [nget_nset]
    split <;> rfl

theorem cisSet_sorted {s : State} (n : Nat) (c : CLine) (h : nsorted s.cis.lines = true) : nsorted (cisSet s n c).cis.lines = true := by
  simp only [cisSet]
  split
  · exact nsorted_nerase _ _ h
  · exact nsorted_nset _ _ _ h

/-- The stores, the slices and the records of a machine are those of another. -/
def Kept (s u : State) : Prop := u.cis = s.cis ∧ u.dram = s.dram ∧ u.slices = s.slices ∧ u.mdata = s.mdata

theorem Kept.trans {s t u : State} (h1 : Kept s t) (h2 : Kept t u) : Kept s u :=
  ⟨h2.1.trans h1.1, h2.2.1.trans h1.2.1, h2.2.2.1.trans h1.2.2.1, h2.2.2.2.trans h1.2.2.2⟩

theorem Kept.ite {s a b : State} {c : Prop} [Decidable c] (h1 : Kept s a) (h2 : Kept s b) : Kept s (if c then a else b) := by
  split
  · exact h1
  · exact h2

theorem Told.kept {s u : State} (h : Told s u) : Kept s u := by
  unfold Kept
  rw [h.1]
  exact ⟨rfl, rfl, rfl, rfl⟩

/-- The governor's notice changes its own registers and tells the masters (R192). -/
theorem floatFall_kept (s : State) (old new : Int) : Kept s (floatFall s old new) := by
  unfold floatFall
  have h0 : ∀ v, Kept s (if v < getF s F.WGV_FN_LOWEST then setF s F.WGV_FN_LOWEST v else s) := fun v =>
    Kept.ite ⟨rfl, rfl, rfl, rfl⟩ ⟨rfl, rfl, rfl, rfl⟩
  have h1 : ∀ t : State, Kept t (floatRaise (floatLatch t floatWgv) floatWgv) := fun t =>
    Kept.trans (t := floatLatch t floatWgv) ⟨rfl, rfl, rfl, rfl⟩ (told_post _ _ _ _).kept
  exact Kept.ite ((h0 _).trans (h1 _)) (h0 _)

/-- Line writes counted: one credit each, and nothing but the governor's own counts (R185). -/
theorem takeCredits_cis (t : State) (k : Nat) : (takeCredits t k).cis = { t.cis with
    level := t.cis.level - k, total := t.cis.total + BitVec.ofNat 48 k, drain := (takeCredits t k).cis.drain } := by
  unfold takeCredits
  rw [(floatFall_kept _ _ _).1]

theorem takeCredits_rest (t : State) (k : Nat) :
    (takeCredits t k).dram = t.dram ∧ (takeCredits t k).slices = t.slices ∧ (takeCredits t k).mdata = t.mdata := by
  unfold takeCredits
  exact (floatFall_kept _ _ _).2

/-- A write of one line is one write of its region (R182). -/
theorem lineWear_one (s : State) (n : Nat) :
    lineWear s n 1 = twinWear (slotWear s (physical s (n / 16384)) 1) (physical s (n / 16384)) (n % 16384) 1 := by
  have h : n % 16384 < 16384 := Nat.mod_lt _ (by decide)
  have a : min 1 (16384 - n % 16384) = 1 := by omega
  unfold lineWear
  rw [a]
  simp [regionWear]

/-- An admitted line write of the Cistern outside a move: its line, its region's wear, and the governor's counts (R168, R182, R185). -/
theorem cisWrite_cis (s : State) (n : Nat) (c : CLine) (h : moveFrom s (physical s (n / 16384)) = none) :
    (cisWrite s n c).cis = { (wearBy (cisSet s n c) (physical s (n / 16384)) 1).cis with
      level := s.cis.level - 1, total := s.cis.total + 1, drain := (cisWrite s n c).cis.drain } := by
  have e : cisWrite s n c = takeCredits (wearBy (cisSet s n c) (physical s (n / 16384)) 1) 1 := by
    have g : moveFrom (takeCredits (wearBy (cisSet s n c) (physical s (n / 16384)) 1) 1) (physical s (n / 16384)) = none := by
      rw [moveFrom, takeCredits_cis]; exact h
    rw [cisWrite, lineWear_one]
    show twinWear (takeCredits (wearBy (cisSet s n c) (physical s (n / 16384)) 1) 1) (physical s (n / 16384)) (n % 16384) 1 = _
    rw [twinWear, g]
  rw [e, takeCredits_cis]
  rfl

theorem slotWear_rest (s : State) (p k : Nat) :
    (slotWear s p k).dram = s.dram ∧ (slotWear s p k).slices = s.slices ∧ (slotWear s p k).mdata = s.mdata := by
  unfold slotWear
  split
  · exact ⟨rfl, rfl, rfl⟩
  · exact takeCredits_rest _ _

theorem twinWear_rest (s : State) (p i k : Nat) :
    (twinWear s p i k).dram = s.dram ∧ (twinWear s p i k).slices = s.slices ∧ (twinWear s p i k).mdata = s.mdata := by
  unfold twinWear
  split
  · exact ⟨rfl, rfl, rfl⟩
  · simp only
    split
    · exact slotWear_rest _ _ _
    · exact slotWear_rest _ _ _

theorem cisWrite_dram (s : State) (n : Nat) (c : CLine) :
    (cisWrite s n c).dram = s.dram ∧ (cisWrite s n c).slices = s.slices ∧ (cisWrite s n c).mdata = s.mdata := by
  rw [cisWrite, lineWear_one]
  have h1 := twinWear_rest (slotWear (cisSet s n c) (physical (cisSet s n c) (n / 16384)) 1) (physical (cisSet s n c) (n / 16384)) (n % 16384) 1
  have h2 := slotWear_rest (cisSet s n c) (physical (cisSet s n c) (n / 16384)) 1
  exact ⟨h1.1.trans h2.1, h1.2.1.trans h2.2.1, h1.2.2.trans h2.2.2⟩

end Sys2Proof.Machine
end

