-- ==== Sys2Proof/Tests/Slice0.lean ====
section
/-! SUPPORT. Tests of one step or one operation against the spec's tables and worked examples, terms that well-formedness
refuses, and for each statement a state and operands that meet its hypotheses. -/

namespace Sys2Proof.Tests

open Sys2Proof Sys2Proof.Machine

set_option Elab.async false

/-- A flit with the fields of R45 and its check value; on a link with a route word (R368). -/
def flit (side : Side) (ftype seq opc tx line arg : Nat) (data : Line := 0) (route : BitVec 64 := 0) (ack : Nat := 255) : Flit :=
  let head := ftype + seq <<< 2 + ack <<< 10 + opc <<< 24 + tx <<< 32 + line <<< 42 + arg <<< 84
  let mid := match side with
    | .ap _ => []
    | .vl _ => leBytes 8 route.toNat
  { hdr := BitVec.ofNat 128 (head + (crc32c (leBytes 12 head ++ mid ++ leBytes 64 data.toNat)).toNat <<< 96), data := data, route := route }

/-- A machine in SVC whose domains are all on and clocked. -/
def onState : State :=
  wr (setF (setF (setF (setF State.reset F.CLK_STAT_CST 3) F.PMU_PD_STAT_ON 0x3FFFFFFF) F.CLK_EN_SLC_EFF_SLC 0xFFFFFFFF) F.DIR_PRESENT_DEV 1)
    R.CLK_EN_DEV_EFF 0x3FFFF

/-- The same in CLOCK-HOLD. -/
def heldState : State := setF onState F.CLK_STAT_CST 4

/-- Port AP0 in a training state, with room for a message of each class. -/
def portState (s : State) (st : Nat) (k : Lnk := {}) : State :=
  setF (setF (setPort s 0 { port s 0 with lnk := { k with room := (8, 8, 8, 8) } }) (F.APT_STAT_LTSSM 0) st) (F.APT_CAPS_MAXTX 0) 16

/-- Link VL0 in a training state, with room for a message of each class. -/
def linkState (s : State) (st : Nat) : State :=
  setF (setVl s 0 { vl s 0 with lnk := { room := (8, 8, 8, 8) } }) (F.FED_LSTAT_LTSSM 0) st

/-- A check of the machine that a command leads to. -/
def leads (i : Instr) (s : State) (p : State → Bool) : Bool :=
  match exec i s with
  | .next u => p u
  | .fault _ => false
  | .refused _ => false

/-- Whether a term is one that cannot reach the block as its row. -/
def turnedAway (i : Instr) : Bool := !i.wf

def ap : Side := .ap 0
def vlk : Side := .vl 0

/-! Terms that cannot reach the block. -/

/-- A flit with another opcode than its row's, an IDLE flit, and a flit with a route word at a port. -/
theorem test_ill_message : turnedAway (.rdOwn ap (flit ap 1 0 3 0 0 0)) = true ∧ turnedAway (.rdOwn ap (flit ap 0 0 2 0 0 0)) = true
    ∧ turnedAway (.rdOwn ap { flit ap 1 0 2 0 0 0 with route := 1 }) = true := by decide +kernel
theorem test_ill_first : turnedAway (.rdShared ap (flit ap 1 0 2 0 0 0) none) = true ∧ turnedAway (.rspI ap (flit ap 1 0 0x29 0 0 0)) = true := by
  decide +kernel
/-- A Maint of another operation, and a Fence of another kind. -/
theorem test_ill_maint : turnedAway (.maintClean ap (flit ap 1 0 0x0F 0 0 1)) = true ∧ turnedAway (.fenceLb 0 (flit ap 1 0 0x0E 0 0 2)) = true := by
  decide +kernel
/-- A message that has a row of its own is no stray. -/
theorem test_ill_null : turnedAway (.null ap (flit ap 1 0 2 0 0 0)) = true ∧ (Instr.null ap (flit ap 1 0 0x11 0 0 0)).wf = true := by decide +kernel
/-- LCTL of another subtype, and a message as LCTL. -/
theorem test_ill_control : turnedAway (.nak ap (flit ap 3 0 2 0 0 0)) = true ∧ turnedAway (.cap 0 (flit ap 3 0 3 0 0 0)) = true
    ∧ turnedAway (.capAck 0 (flit ap 1 0 3 0 0 0)) = true ∧ turnedAway (.ident 0 (flit vlk 3 0 5 0 0 0)) = true := by decide +kernel
/-- A Notice of another kind. -/
theorem test_ill_notice : turnedAway (.noticeSag 0 (flit vlk 3 0 9 0 0 0 2)) = true ∧ turnedAway (.idleFlit ap (flit ap 1 0 0 0 0 0)) = true := by
  decide +kernel
/-- A completion at a port is no delivery of a peer's home. -/
theorem test_ill_delivery : turnedAway (.linkDeliveryFromPeerHome 0 (flit vlk 1 0 1 0 0 0)) = true := by decide +kernel
/-- A register offset that is not a word's, and transfers that leave their window or that no TLP carries. -/
theorem test_ill_access : turnedAway (.csrWrite .host 2 0) = true ∧ turnedAway (.bar0Read 0xFFFFFC 8 0) = true ∧ turnedAway (.bar0Write 0 [] false) = true
    ∧ turnedAway (.bar2Read 0xFFFFFFF 2 0) = true ∧ turnedAway (.bar2Write 0 [] false false 0) = true ∧ turnedAway (.bar4Write 1 0) = true := by decide +kernel
theorem test_ill_completion : turnedAway (.dmaHostCompletion 0 0 (List.replicate 4097 0) false true) = true := by decide +kernel
/-- An SDO frame of another command, and a Wellhead frame of another operation. -/
theorem test_ill_frame : turnedAway (.sdoDownload 0x40) = true ∧ turnedAway (.sdoUpload 0x20) = true ∧ turnedAway (.sdoSegment 0x40) = true
    ∧ turnedAway (.sdoAbort 0x40) = true ∧ turnedAway (.wellheadOpen 3) = true ∧ turnedAway (.wellheadData 1) = true ∧ turnedAway (.wellheadAck 1) = true
    ∧ turnedAway (.wellheadEnd 1) = true ∧ turnedAway (.wellheadAbort 1) = true := by decide +kernel

/-! Operations against the spec's examples. -/

/-- The example under R37: PMEM line 0x3F00_0004_0000 is homed at SL14, DRAM line 0x0000_0012_3440 at SL12. -/
theorem test_home : homeOf State.reset (BitVec.ofNat 40 (0x3F0000040000 / 64)) = 14 ∧ homeOf State.reset (BitVec.ofNat 40 (0x123440 / 64)) = 12 := by
  decide +kernel
/-- The examples under R68 and R99: sets 16 and 73, directory set 73. -/
theorem test_sets : setOf (BitVec.ofNat 40 (0x3F0000040000 / 64)) = 16 ∧ setOf (BitVec.ofNat 40 (0x123440 / 64)) = 73
    ∧ dsetOf (BitVec.ofNat 40 (0x123440 / 64)) = 73 := by decide +kernel
/-- The example under R75: a hit on way 5, then the victim among ways 4 to 7 is way 4. -/
theorem test_age : touchAge 0 5 = BitVec.ofNat 120 ((2 ^ 10 - 1) <<< 65) ∧ oldestOf (touchAge 0 5) [4, 5, 6, 7] = some 4
    ∧ oldestOf (touchAge 0 5) [5] = some 5 := by decide +kernel
/-- The example under R219: DRAM line 0x0000_0012_3440 lies on MC1, subchannel B, rank 0. -/
theorem test_cell : let s := setEff State.reset (R.DIR_DRNG 0) 0x807F0000
    laOf s 0x123440 = 0x123440 ∧ (cellOf s 0x123440).ch = 1 ∧ (cellOf s 0x123440).sub = 1 ∧ (cellOf s 0x123440).rank = 0 := by decide +kernel
/-- The example under R222: device 3 in codeword 2 and device 6 in codeword 5 are uncorrectable with KIND 1. -/
theorem test_two_devices : let e := BitVec.ofNat 640 (0x04 <<< (8 * 25) + 0x01 <<< (8 * 58))
    syndromes e false 2 = (0x04, 0x80) ∧ syndromes e false 5 = (0x01, 0x1D) ∧ (rsDecode false e none).kind = 1 ∧ (rsDecode false e none).poison = true := by
  decide +kernel
/-- The code of R412: data bit 0 lies at position 3, so it sets check bits 0, 1 and the parity. -/
theorem test_secded : secdedCheck 40 6 1 = 0x43 ∧ secdedCheck 40 6 0 = 0 ∧ (secdedDecode 40 6 3).1 = .uncorrectable := by decide +kernel
/-- CRC-32C of the check string (R355), as R47 uses it. -/
theorem test_crc32c : crc32c [0x31, 0x32, 0x33, 0x34, 0x35, 0x36, 0x37, 0x38, 0x39] = 0xE3069283 := by decide +kernel
/-- SHA3-256 of no bytes (FIPS 202), its first four bytes. -/
theorem test_sha3 : (sha3_256 []).take 4 = [0xA7, 0xFF, 0xC6, 0xF8] := by decide +kernel
/-- R109: an add wraps in its 8 bytes, and a signed lesser takes −1 before 1. -/
theorem test_atomics : let x : Line := 1
    (atomRun 0x030 x (BitVec.ofNat 512 (2 ^ 64 - 1))).2 = some 0 ∧ (atomRun 0x033 x (BitVec.ofNat 512 (2 ^ 64 - 1))).2 = some (BitVec.ofNat 512 (2 ^ 64 - 1)) := by
  decide +kernel
/-- The example under R83: a write to bytes 8 to 15 merges into the entry of bytes 0 to 7, a release-marked one does not. -/
theorem test_merge : let t : Txn := ⟨0, 0, 6, 7, 0, BitVec.ofNat 12 (8 + 7 * 64), BitVec.ofNat 512 (0xAB <<< 64), false, 0, 0, 0, []⟩
    let x : Port := { iwb := [{ id := 0, ord := 0, line := 7, data := 1, mask := 0xFF, p := false, poison := false, release := false, group := 0 }], iwbNext := 1 }
    ((bufferTake State.reset x t).map (fun y => y.iwb.map (fun e => e.mask)) = some [0xFFFF])
    ∧ ((bufferTake State.reset x { t with mark := 2 }).map (fun y => y.iwb.length) = some 2) := by decide +kernel
/-- R182: from the provisioned gap, the last line moves into it. -/
theorem test_gap : slotOf {} 16383 = 16383 ∧ slotOf (moveGap {}) 16383 = 16384 ∧ (moveGap { start := 16383, gap := 0 }).start = 0 := by decide +kernel

/-! One step of each kind. -/

/-- R255, R261: TRO becomes ready after the release of AON's reset, and MCLK runs from it. -/
theorem test_tro : leads .troReady { State.reset with supply := { State.reset.supply with inReset := false } }
    (fun u => decide (getF u F.CLK_STAT_TRO_RDY = 1) && decide (getF u F.CLK_STAT_CST = 1)) = true := by decide +kernel
/-- R308: an empty pop with STALL 0 returns the empty token at once. -/
theorem test_pop : leads (.evqPop .host) (setF onState F.EVQ_CFG_STALL 0)
    (fun u => decide (Out.regDone .host R.EVQ_POP 0x80000000 0 ∈ u.out)) = true := by decide +kernel
/-- R356: START, four bytes and FIN on unit 2, by the first eight hex digits of no other algorithm: the CRC-32 of 1, 2, 3, 4 bytes 0x31 to 0x34. -/
theorem test_crc_unit : leads (.crcFeedD32 .host 2 0x34333231) (setCrc onState 2 { phase := 1, poly := 0, reg := 0xFFFFFFFF })
    (fun u => decide ((crcOf u 2).reg = BitVec.ofNat 64 (0x9BE3E0A3 ^^^ 0xFFFFFFFF)) && decide ((crcOf u 2).cnt = 4)) = true := by decide +kernel
/-- R38, R39: a write at an offset of no block ends with cause 6 and is recorded. -/
theorem test_hole : leads (.csrWrite (.ap 3) 0xF0000 1) onState
    (fun u => decide (getF u F.DIR_ERR_INFO_CAUSE = 6) && decide (getF u F.DIR_ERR_INFO_SRC = 3) && decide (u.evq.recs.length = 1)) = true := by decide +kernel
/-- R305: word 0 of a record carries its code and its unit. -/
theorem test_record : leads .vrAlert onState (fun u => u.evq.recs.map (fun r => r.headD 0) == [0x00420808]) = true := by decide +kernel
/-- R309, R310: the source of the record 0x0808 is 13, and an enabled port's agent that is not UP hears nothing. -/
theorem test_source : leads .vrAlert onState (fun u => (getF u F.EVQ_IRQ_STAT_SRC).testBit 13 && decide (u.ports = onState.ports)) = true := by decide +kernel
/-- R49: a flit with a bad check value is counted once, and one Nak goes out. -/
theorem test_bad_check : leads (.rdOwn ap { flit ap 1 0 2 0 0 0 with data := 1 }) (portState onState 6)
    (fun u => decide (getF u (F.APT_CNT_CRC_COUNT 0) = 1) && decide (u.out.length = 1) && (port u 0).lnk.nakked) = true := by decide +kernel
/-- R62, R64: a RdOwn with a data slot is breach 5, and the agent is declared dead with reason 5. -/
theorem test_breach : leads (.rdOwn ap (flit ap 2 0 2 0 0 0)) (portState onState 6)
    (fun u => decide (getF u (F.APT_ERR_VCODE 0) = 5) && isF u (F.APT_STAT_DEAD 0)) = true := by decide +kernel
/-- R256, R261: ROOT locks, MCLK runs from it and the dividers ramp. -/
theorem test_root : leads .rootLock (setF (setF State.reset F.CLK_STAT_CST 1) F.CLK_STAT_XTAL_RDY 1)
    (fun u => decide (getF u F.CLK_STAT_CST = 2) && decide (getF u F.CLK_STAT_MSRC = 2)) = true := by decide +kernel
/-- R263, R265: RMON trips in SVC: the clocks halt. -/
theorem test_rmon : leads .rmonTrip onState (fun u => decide (getF u F.CLK_STAT_CST = 4) && isF u F.CLK_ERR_HOLD) = true := by decide +kernel
/-- R278: an on-sequence that is the first turns its domain on. -/
theorem test_domain_on : leads (.domainOnDone 0) { setF onState F.PMU_PD_STAT_ON 0 with seqs := [(1, true)] }
    (fun u => decide (getF u F.PMU_PD_STAT_ON = 1) && decide (u.seqs = [])) = true := by decide +kernel

/-! For each statement with hypotheses, a state and operands that meet them, clause by clause. -/

/-- A message in sequence at AP0 and on VL0: RdOwn with TXID 1. -/
def good : Flit := flit ap 1 0 2 1 0x48D1 0
def goodLink : Flit := flit vlk 1 0 2 1 0x48D1 0

theorem witness_StepTakesFront : { State.reset with pending := [.troReady] }.pending = Instr.troReady :: [] ∧ State.reset.pending = []
    ∧ Still State.reset ∧ seen State.reset = seen State.reset := ⟨rfl, rfl, ⟨rfl, by decide⟩, rfl⟩

theorem witness_WaitingKept : Waiting { State.reset with pending := [.rdOwn ap good, .rmonTrip] } := by
  intro i hi
  fin_cases hi <;> decide +kernel

theorem witness_RunGoesOn : Waiting State.reset := fun _ h => by cases h

theorem witness_arrives : Arrives (.rdOwn ap good) ap good ∧ (Instr.rdOwn ap good).wf = true ∧ good.message = true
    ∧ Arrives (.rdOwn vlk goodLink) vlk goodLink ∧ (Instr.rdOwn vlk goodLink).wf = true ∧ goodLink.message = true :=
  ⟨Or.inl (by simp [flitRows]), by decide +kernel, by decide +kernel, Or.inl (by simp [flitRows]), by decide +kernel, by decide +kernel⟩

/-- Fences arrive at ports only, and deliveries of a peer's home on links only. -/
theorem witness_arrives_one_kind : Arrives (.fenceLb 0 good) ap good ∧ Arrives (.linkDeliveryFromPeerHome 0 goodLink) vlk goodLink
    ∧ Arrives (.idleFlit ap good) ap good :=
  ⟨.inr (.inr (.inl ⟨0, rfl, by simp [portRows]⟩)), .inr (.inr (.inr ⟨0, rfl, .inl rfl⟩)), .inr (.inl rfl)⟩

theorem witness_MessageOutOfTurn : ltssm (portState onState 5) ap ≠ 6 ∧ ltssm (portState onState 6) ap = 6
    ∧ goodCheck ap { good with data := 1 } = false ∧ (lnkOf (portState onState 6 { nakked := true }) ap).nakked = true
    ∧ (lnkOf (portState onState 6) ap).nakked = false
    ∧ goodCheck ap (flit ap 1 255 2 1 0 0) = true ∧ fSeq (flit ap 1 255 2 1 0 0) ≠ (lnkOf (portState onState 6) ap).rxSeq := by decide +kernel

theorem witness_MessageInTurn : goodCheck ap good = true ∧ fSeq good = (lnkOf (portState onState 6) ap).rxSeq ∧ goodCheck vlk goodLink = true
    ∧ ltssm (linkState onState 6) vlk = 6 ∧ fSeq goodLink = (lnkOf (linkState onState 6) vlk).rxSeq
    ∧ getF (portState heldState 6) F.CLK_STAT_CST = 4 ∧ getF (portState onState 6) F.CLK_STAT_CST ≠ 4 := by decide +kernel

theorem witness_hears : Hears (portState onState 6) ap good ∧ Hears (linkState onState 6) vlk goodLink := by unfold Hears; decide +kernel

/-- At the last TXID below MAXTX. -/
theorem witness_AgentRequestJoins : let f := flit ap 1 0 2 15 0x48D1 0
    let s := portState onState 6
    Arrives (.rdOwn ap f) ap f ∧ 1 ≤ fOpc f ∧ fOpc f ≤ 0x0F ∧ opData (fOpc f) = decide (fType f = 2) ∧ 0 < (port s 0).lnk.room.1
    ∧ fTx f < getF s (F.APT_CAPS_MAXTX 0) ∧ (∀ t ∈ (port s 0).txns, t.tx ≠ fTx f) ∧ requestOk s f = true :=
  ⟨.inl (by simp [flitRows]), by decide +kernel, by decide +kernel, by decide +kernel, by decide +kernel, by decide +kernel, by decide +kernel, by decide +kernel⟩

/-- The first TXID not below MAXTX, and one in use. -/
theorem witness_AgentRequestBreaks : getF (portState onState 6) (F.APT_CAPS_MAXTX 0) ≤ fTx (flit ap 1 0 2 16 0 0)
    ∧ (∃ t ∈ (port (setPort onState 0 { txns := [⟨0, 1, 2, 0, 0, 0, 0, false, 0, 0, 0, []⟩] }) 0).txns, t.tx = fTx good) := by decide +kernel

theorem witness_AgentAnswerReachesHome : let f := flit ap 1 0 0x28 3 0x48D1 0
    let s := portState (setPort onState 0 { fwds := [{ tx := 3, line := 0x48D1, opc := 0x22, slice := 12 }] }) 6
    Arrives (.rspI ap f) ap f ∧ 0x28 ≤ fOpc f ∧ fOpc f ≤ 0x2B ∧ (port s 0).fwdWait = [] ∧ opData (fOpc f) = decide (fType f = 2)
    ∧ 0 < cr (port s 0).lnk.room (if fOpc f < 0x30 then 2 else 3) ∧ ¬ (fOpc f = 0x32 ∧ bit (fArg f) 0 = false)
    ∧ (port s 0).fwds.find? (fun q => decide (q.tx = fTx f) && !q.pulled) = some { tx := 3, line := 0x48D1, opc := 0x22, slice := 12 }
    ∧ fLine f = 0x48D1 ∧ 0 < cr (port s 0).lnk.room (if fOpc (flit ap 2 0 0x32 3 0 1) < 0x30 then 2 else 3) :=
  ⟨.inl (by simp [flitRows, answerRows]), by decide +kernel, by decide +kernel, rfl, by decide +kernel, by decide +kernel, by decide +kernel, by decide +kernel, by decide +kernel, by decide +kernel⟩

/-- A request with the FEP of another epoch; opcodes of each class on a link of this epoch. -/
theorem witness_StaleFlitDiscarded : let f := flit vlk 1 0 2 1 0x48D1 0 0 0x100
    let s := linkState onState 6
    opClass (fOpc f) = some 0 ∧ opData (fOpc f) = decide (fType f = 2) ∧ 0 < cr (vl s 0).lnk.room 0 ∧ rtFep f.route ≠ getF s F.FED_STAT_EPOCH := by
  decide +kernel
theorem witness_LinkRequestArrives : [2, 0x22, 0x2C, 0x32, 0x28, 0x10].map opClass = [some 0, some 1, some 2, some 3, some 2, some 4]
    ∧ rtFep goodLink.route = getF (linkState onState 6) F.FED_STAT_EPOCH ∧ (∀ c ∈ [0, 1, 2, 3], 0 < cr (vl (linkState onState 6) 0).lnk.room c)
    ∧ opData 0x32 = decide (fType (flit vlk 2 0 0x32 1 0 0) = 2) := by decide +kernel

/-- IDLE, Nak, the reserved subtypes next to those in use, a good Cap and a bad one, CapAck. -/
theorem witness_LinkControlArrives : Arrives (.nak ap good) ap good ∧ (flit ap 0 0 0 0 0 0).ftype = 0
    ∧ ([0, 1, 2, 3, 4].all fun k => decide ((flit ap 3 0 k 0 0 0).ftype = 3 ∧ (flit ap 3 0 k 0 0 0).opc = k)) = true
    ∧ ([0, 2, 3, 10].all fun k => decide ((flit vlk 3 0 k 0 0 0).opc = k)) = true
    ∧ goodCheck ap (flit ap 3 0 2 0 0 0) = true ∧ badCap (flit ap 3 0 2 0 0 0) = true ∧ badCap (flit ap 3 0 2 0 0 0 0x0808080008000001) = false
    ∧ ltssm (portState onState 5) ap = 5 ∧ ltssm (portState onState 6) ap = 6 :=
  ⟨.inl (by simp [flitRows]), by decide +kernel, by decide +kernel, by decide +kernel, by decide +kernel, by decide +kernel, by decide +kernel,
   by decide +kernel, by decide +kernel⟩

theorem witness_TrainingAdvances : (∀ st ∈ [1, 2, 3, 4, 5, 7, 8], ltssm (portState onState st) ap = st)
    ∧ widthOf onState ap 0xFFFF = some 3 ∧ widthOf onState ap 0x00FF = some 1 ∧ widthOf onState ap 0xFF7F = some 2 ∧ widthOf onState ap 0x7F7F = none
    ∧ (lnkOf (portState onState 4 { detects := 3 }) ap).detects = 3 ∧ (lnkOf (portState onState 4 { detects := 2 }) ap).detects < 3
    ∧ ltssm onState vlk = 0 ∧ effF (setEff onState (R.FED_LCTL 0) 1) (sideRegs vlk).en = 1 := by decide +kernel

/-- Every register that a statement takes as served, at the ends of each range, on a machine whose domains are on. -/
theorem witness_serves : ∀ off ∈ [ctlOf ap, ctlOf vlk, R.APT_CTL 5, R.CRC_U_CTL 3, R.CRC_U_D8 0, R.CRC_U_D16 0, R.CRC_U_D32 0, R.MCH_CIDX 3, R.MCH_MARK 0 7,
    R.MOP_S_CMD 0, R.MOP_S_CMD 3, R.MSR_EVSEL 7, R.PCI_DMA_TAIL 1, R.PCI_DMA_CTL 1, R.SLC_DBG_IDX 31, R.SLC_RMAP 31 7, R.CFG_COMMIT, R.CLK_TRIM, R.CST_RIDX,
    R.CST_RMDAT, R.CST_RMIDX, R.EVQ_POP, R.FED_ARST, R.FED_GCTL, R.GEN_RST, R.MSR_CIDX, R.MSR_CTL, R.MSR_HCFG, R.MSR_HIDX, R.PMP_CKPT, R.PMP_DRN_CTL,
    R.PMU_MCU, R.SEC_CMD, mbxCmdReg .pci, mbxCtlReg .pci, mbxCmdReg .csr, mbxCtlReg .csr], Serves onState off := by
  unfold Serves; decide +kernel

/-- An offset that is served, one that is not aligned, one of no block, one of a block that is off; an indirect pair here and toward an absent device. -/
theorem witness_RegisterRows : (2 : BitVec 24).toNat % 4 ≠ 0 ∧ Serves onState 0x10000 ∧ indPair 0x10000 = none ∧ (place 0xF0000).isNone = true ∧ indPair 0xF0000 = none
    ∧ blockUp State.reset 0x100000 = false ∧ indPair 0x100000 = none ∧ State.reset.csrWaits = [] ∧ State.reset.indOut = none
    ∧ getF onState (F.CFG_IND_ADDR_DEV 0) = self onState ∧ present onState (self onState) = true ∧ Serves onState (getF onState (F.CFG_IND_ADDR_OFF 0) * 4)
    ∧ indPair (getF onState (F.CFG_IND_ADDR_OFF 0) * 4) = none ∧ getF onState (F.CFG_IND_ADDR_OFF 0) * 4 ≠ R.EVQ_POP
    ∧ present onState (getF (setF onState (F.CFG_IND_ADDR_DEV 0) 3) (F.CFG_IND_ADDR_DEV 0)) = false := by unfold Serves; decide +kernel

/-- A frame of each command specifier, and of each operation. -/
theorem witness_NetworkRows : [0x00, 0x23, 0x40, 0x60, 0x80, 0xA0].map fCcs = [0, 1, 2, 3, 4, 5]
    ∧ [1, 3, 4, 5, 7].map wOp = [1, 3, 4, 5, 7] := by decide +kernel

theorem witness_FederationRows : ([4, 5, 6, 7, 8, 9].all fun k => (flit vlk 3 0 k 0 0 0).control vlk k) = true
    ∧ ([0, 1, 2, 3, 4, 5, 6].all fun k : Nat => decide ((lineByte (flit vlk 3 0 9 0 0 0 (BitVec.ofNat 512 k)).data 0).toNat = k)) = true
    ∧ Arrives (.noticeSag 0 goodLink) vlk goodLink :=
  ⟨by decide +kernel, by decide +kernel, .inr (.inr (.inr ⟨0, rfl, .inr (by simp [linkRows])⟩))⟩

/-- A store with no record being written. -/
theorem witness_PowerOnForgets : State.reset.journal.jobs = [] := rfl

/-- A START that R157 accepts and one that it refuses, on a free slot. -/
theorem witness_MopStartAccepted : let s := setEff onState (R.DIR_DRNG 0) 0x807F0000
    (mopOf s 0).phase = 0 ∧ mopRefusal s 3 4 0 0 0 = 0 ∧ mopRefusal s 4 4 0 0 0 = 2 := by decide +kernel

theorem witness_EventsPosted : irqOf 0x0401 = 10 ∧ 1024 ≤ (List.replicate 1024 (0 : Nat)).length ∧ onState.evq.recs.length < 1024 ∧ onState.evq.lost = 0
    ∧ onState.evq.waiters = [] ∧ isF (setF onState F.EVQ_FN_LATCHED 1) F.EVQ_FN_LATCHED = true
    ∧ (∀ b ∈ [0, 2, 10], (getF (setF onState F.EVQ_IRQ_STAT_SRC 0x405) F.EVQ_IRQ_STAT_SRC).testBit b = true) := by decide +kernel

/-- A register with fields of each access code: read only, written, cleared by 1, a command. -/
theorem witness_RegisterClasses : (∀ a ∈ [(R.EVQ_STAT, Acc.ro), (R.EVQ_CFG, .rw), (R.EVQ_IRQ_STAT, .w1c), (R.GEN_RST, .wo)],
    (rowAt a.1).any (fun r => r.flds.any (fun f => decide (f.acc = a.2))) = true) := by decide +kernel

theorem newer_zero (a b : Nat) (ha : a < 16) (hb : b < 16) (h : a ≠ b) : newer 0 a b = decide (b < a) := by
  have k : ∀ x y : Fin 16, x ≠ y → newer 0 x y = decide (y < x) := by decide +kernel
  have := k ⟨a, ha⟩ ⟨b, hb⟩ (by simpa using h)
  simpa using this

theorem witness_AgeOrder : AgeStrict 0 ∧ oldestOf 0 [15, 3] = some 3 ∧ (∀ j ∈ [15, 3], j < 16) ∧ nsorted State.reset.slices = true := by
  refine ⟨fun a b c ha hb hc h1 h2 h3 h4 h5 => ?_, by decide +kernel, by decide, rfl⟩
  rw [newer_zero a b ha hb h1, decide_eq_true_eq] at h4
  rw [newer_zero b c hb hc h2, decide_eq_true_eq] at h5
  rw [newer_zero a c ha hc h3, decide_eq_true_eq]
  omega

/-- The bounds at both ends of START and GAP. -/
theorem witness_GapPlacement : (∀ g ∈ [({} : Region), { start := 16383, gap := 0 }, { start := 0, gap := 1 }], g.start < 16384 ∧ g.gap ≤ 16384) := by decide

theorem witness_SecDed : ((128, 8) : Nat × Nat) ∈ [(40, 6), (128, 8), (49, 6)] ∧ 2 ^ 128 - 1 < 2 ^ 128 ∧ 135 < 136 ∧ 136 ≤ 128 + 8 := by decide

/-- An error of device 3 in codeword 2 only. -/
theorem witness_ChipFailure : let e := BitVec.ofNat 640 (0x04 <<< (8 * 25))
    (∀ i : Fin 8, ∀ j : Fin 10, j.val ≠ devPos 3 → errSym e i j = 0) ∧ e ≠ 0 ∧ errSym e 0 (devPos 3) = 0 := by decide +kernel

/-- Device 0's own range alone, and an interleave over devices 0 and 1. -/
theorem witness_DramPlacement : let s := setEff (setEff onState (R.DIR_DRNG 0) 0x80000000) R.DIR_ILV_CFG 0x0400
    (∀ a b : Fin 2, ilvMap s a = ilvMap s b → a = b) ∧ ilvWays s = 2 ∧ route s (0x48D1 * 64) = some (.dram, self s) ∧ 128 % 128 = 0 := by decide +kernel

/-- A well-formed atomic of each operation; the operands equal and different. -/
theorem witness_AtomicBytes : (∀ op ∈ [0, 1, 2, 3, 4, 5, 6, 7, 8, 9, 10], atomOk (BitVec.ofNat 12 (op + 0x30)) = true ∧ aop (BitVec.ofNat 12 (op + 0x30)) = op)
    ∧ atomOk 0xFF0 = false ∧ (atomRun 0x032 0 0).2.isSome = true ∧ (atomRun 0x032 1 0).2 = none := by decide +kernel

theorem witness_CrcUnitRuns : (crcOf (setCrc onState 3 { phase := 1 }) 3).phase = 1 ∧ (crcOf onState 3).phase ≠ 1 ∧ (0 : Fin 4) ≠ 3 := by decide +kernel

theorem witness_DeadAgent : isF (setF onState (F.APT_STAT_DEAD 0) 1) (F.APT_STAT_DEAD 0) = true ∧ isF onState (F.APT_STAT_DEAD 0) = false
    ∧ (∃ f ∈ (port (setPort onState 0 { fwds := [{ tx := 3, line := 0x48D1, opc := 0x22, slice := 12 }] }) 0).fwds, f.peer = none)
    ∧ sliceUp onState 31 = true ∧ (slice onState 31).dead.contains { dev := 0, port := 0 } = false := by decide +kernel

theorem witness_DramReadsBack : let s := setEff onState (R.DIR_DRNG 0) 0x807F0000
    laOf s 0 / 64 ≠ laOf s 64 / 64 ∧ nsorted s.dram = true ∧ nsorted s.cis.tier = true := by decide +kernel

/-- A place outside any move; a move whose copy pointer stands at line 1, with the line below it, at it, after the copy, from WARN on, and with
a delayed write before it. -/
theorem witness_CisternReadsBack : nsorted onState.cis.lines = true ∧ (0 : Nat) ≠ 1 ∧ moveFrom onState (physical onState 0) = none
    ∧ (let m : Move := { src := 0, dst := 240, next := 1 }
       let s := { onState with cis := { onState.cis with moves := [(0, m)] } }
       nsorted s.cis.lines = true ∧ physical s 0 = 0 ∧ moveFrom s (physical s 0) = some m ∧ m.dst ≠ 0
       ∧ 0 % 16384 < m.next ∧ ¬ (m.copied = true ∨ 1 % 16384 < m.next) ∧ gated s = false ∧ gated { s with drain := { s.drain with stage := 1 } } = true
       ∧ { s with cis := { s.cis with queue := [{ prio := 6, kind := .gap 0 }] } }.cis.queue ≠ []) := by decide +kernel

/-- Two addresses that differ in bits 6 and 45 only. -/
theorem witness_BucketFold : (0x200000000040 : BitVec 46).extractLsb' 7 35 = (0 : BitVec 46).extractLsb' 7 35 ∧ granule 0x48D0 = granule 0x48D1 := by decide

/-- A sharer of this device, a peer's bit, and a holder that is not the requester. -/
theorem witness_OwnershipReachesHolders : let r : HReq := { who := .agent { dev := 0, port := 0 }, op := .rdOwn, line := 0 }
    let d : Dir := { line := 0, dst := 4, shr := 0x1E2, hld := some { dev := 0, port := 5 } }
    r.op ∈ [HOp.rdOwn, .upgrade, .itoM, .write, .stashWr, .atomHome, .atomMem, .maint 6] ∧ bit d.shr 1 = true ∧ bit d.shr 8 = true
    ∧ agentOf r.who ≠ some { dev := 0, port := 1 } ∧ d.hld ≠ some { dev := self onState, port := 1 } ∧ d.dst ≠ 3 ∧ agentOf r.who ≠ d.hld := by decide +kernel

theorem witness_OneOwner : (findDir { dir := [(0, { line := 0, dst := 1, shr := 3 })] } 0).isSome = true ∧ (1 : LineAddr) ≠ 0 := by decide +kernel

theorem witness_AckReleases : let k : Lnk := { replay := [{ seq := 254, msg := { opc := 0, cls := 4 } }, { seq := 255, msg := { opc := 0, cls := 4 } }] }
    k.replay = [{ seq := 254, msg := { opc := 0, cls := 4 } }] ++ { seq := 255, msg := { opc := 0, cls := 4 } } :: [] ∧ (∀ g ∈ k.replay, g.seq ≠ 0) := by
  decide +kernel

end Sys2Proof.Tests
end

section
/-! PROOF. The bucket of a line as a fold of bits 41:7 of its address (R36). -/

namespace Sys2Proof.Machine

/-- The fold of R36, given bits 41:7 of an address. -/
def fold41to7 (f : BitVec 35) : BitVec 8 :=
  f.extractLsb' 0 8 ^^^ f.extractLsb' 8 8 ^^^ f.extractLsb' 16 8 ^^^ f.extractLsb' 24 8 ^^^ (f.extractLsb' 32 3).setWidth 8

/-- A field taken at `k` inside the field from `lo` up lies at `lo + k` of the whole. -/
theorem extractLsb'_of_extractLsb' {n lo m k w : Nat} (v : BitVec n) (h : k + w ≤ m) :
    (v.extractLsb' lo m).extractLsb' k w = v.extractLsb' (lo + k) w := by
  ext i hi
  have hik : k + i < m := by omega
  simp [hik, Nat.add_assoc]

/-- In each field the low six zeros of a line's address shift away, so the line's own bits from 1 up are folded. -/
theorem bucket_eq_fold (l : LineAddr) : bucket l = (fold41to7 (l.extractLsb' 1 35)).toNat := by
  have shift (k : Nat) : (l.toNat * 64) >>> (6 + k) = l.toNat >>> k := by
    rw [Nat.shiftRight_add, Nat.shiftRight_eq_div_pow _ 6, Nat.mul_div_cancel _ (by decide)]
  have low (a : Nat) : a % 8 % 256 = a % 8 := by omega
  simp [bucket, fold41to7, extractLsb'_of_extractLsb', Nat.xor_mod_two_pow (n := 8), low,
    shift 1, shift 9, shift 17, shift 25, shift 33]

/-- A granule holds the address from bit 7 up (R111). -/
theorem extractLsb'_of_granule (l : LineAddr) : (granule l).extractLsb' 0 35 = l.extractLsb' 1 35 := by
  apply BitVec.eq_of_toNat_eq
  simp [granule, Nat.shiftRight_one]

theorem bucket_congr_granule {k l : LineAddr} (h : granule k = granule l) : bucket k = bucket l := by
  rw [bucket_eq_fold, bucket_eq_fold, ← extractLsb'_of_granule, ← extractLsb'_of_granule, h]

/-- A full address enters its line's bucket by bits 41:7 alone; bits 6:0 and 45:42 take no part (R36). -/
theorem bucket_lineOf (pa : BitVec 46) : bucket (pa.extractLsb' 6 40) = (fold41to7 (pa.extractLsb' 7 35)).toNat := by
  rw [bucket_eq_fold, extractLsb'_of_extractLsb' _ (by decide)]

/-- Settles O55: the bucket is the fold of bits 41:7 alone, and the two lines of a granule agree in those bits. -/
theorem bucketFold : Obligations.BucketFold := by
  unfold Obligations.BucketFold
  refine ⟨fun pa => ?_, fun pa qa h => ?_, fun s k l h => ?_⟩
  · rw [bucket_lineOf]
    simp [fold41to7, extractLsb'_of_extractLsb']
  · rw [bucket_lineOf, bucket_lineOf, h]
  · have hb := bucket_congr_granule h
    exact ⟨hb, congrArg (homeSlice s) hb⟩

end Sys2Proof.Machine
end

section
/-! PROOF. The age matrix of a set: one bit for each pair of ways, how it is read, and its value when a slice is switched on (R74). -/

namespace Sys2Proof.Machine

/-- The first bit of the pairs whose lower way is `i`; that way's pairs hold the next 15 − i bits (R74). -/
def ageRow (i : Nat) : Nat := i * (31 - i) / 2

theorem ageBit_eq_ageRow (i j : Nat) : ageBit i j = ageRow i + (j - i - 1) := rfl

/-- The rows follow each other without a gap. -/
theorem ageRow_succ {i : Nat} (h : i < 16) : ageRow (i + 1) = ageRow i + (15 - i) := by
  have rows : ∀ i < 16, ageRow (i + 1) = ageRow i + (15 - i) := by decide
  exact rows i h

theorem ageRow_mono {i k : Nat} (h : i ≤ k) (hk : k < 16) : ageRow i ≤ ageRow k := by
  induction k, h using Nat.le_induction with
  | base => exact le_rfl
  | succ k _ ih =>
    have step := ageRow_succ (i := k) (by omega)
    have := ih (by omega)
    omega

/-- A pair's bit lies before every row of a higher way. -/
theorem ageBit_lt_ageRow {i j k : Nat} (hij : i < j) (hj : j < 16) (hik : i < k) (hk : k < 16) : ageBit i j < ageRow k := by
  have next := ageRow_succ (i := i) (by omega)
  have later : ageRow (i + 1) ≤ ageRow k := ageRow_mono hik hk
  rw [ageBit_eq_ageRow]
  omega

/-- Row 15 is empty and begins at 120, the size of the matrix. -/
theorem ageBit_lt {i j : Nat} (hij : i < j) (hj : j < 16) : ageBit i j < 120 :=
  ageBit_lt_ageRow hij hj (by omega : i < 15) (by decide)

/-- Bits of different rows differ, and within a row the higher way tells the bits apart. -/
theorem ageBit_inj {i j k l : Nat} (hij : i < j) (hj : j < 16) (hkl : k < l) (hl : l < 16) (h : ageBit i j = ageBit k l) :
    i = k ∧ j = l := by
  rcases lt_trichotomy i k with hik | rfl | hki
  · have := ageBit_lt_ageRow hij hj hik (by omega)
    rw [ageBit_eq_ageRow k l] at h
    omega
  · rw [ageBit_eq_ageRow, ageBit_eq_ageRow] at h
    omega
  · have := ageBit_lt_ageRow hkl hl hki (by omega)
    rw [ageBit_eq_ageRow i j] at h
    omega

theorem newer_of_lt (m : BitVec 120) {a b : Nat} (h : a < b) : newer m a b = m.getLsbD (ageBit a b) := by
  simp [newer, bit, h]

theorem newer_of_ge (m : BitVec 120) {a b : Nat} (h : b ≤ a) : newer m a b = !m.getLsbD (ageBit b a) := by
  simp [newer, bit, Nat.not_lt.mpr h]

/-- In a zero matrix the higher way is the more recent. -/
theorem newer_zero_eq (a b : Nat) : newer 0 a b = decide (b ≤ a) := by
  rcases Nat.lt_or_ge a b with h | h
  · simp [newer_of_lt _ h, h]
  · simp [newer_of_ge _ h, h]

/-! What the off-sequence and the on-sequence of a domain do to the slices (R276, R278). -/

theorem slice_congr {s u : State} (h : u.slices = s.slices) (n : Nat) : slice u n = slice s n := by rw [slice, h, slice]

@[simp] theorem takeEnables_slices (s : State) : (takeEnables s).slices = s.slices := by
  rw [takeEnables, readyDies, setF_slices, setF_slices, wr_slices, setF_slices]

@[simp] theorem setPd_slices (s : State) (f : Fld) (d : Nat) (v : Bool) : (setPd s f d v).slices = s.slices := by
  rw [setPd, setF_slices]

@[simp] theorem foldl_resetRange_slices (rs : List (Nat × Nat)) (s : State) :
    (rs.foldl (fun s r => resetRange s r.1 r.2) s).slices = s.slices := by
  induction rs generalizing s with
  | nil => rfl
  | cons r rs ih => rw [List.foldl_cons, ih, resetRange_slices]

/-- Of the slices, an off-sequence changes what the loss of its domain's contents does. -/
theorem domainOff_slices (s : State) (d : Nat) : (domainOff s d).slices = (loseUnits s d).slices := by
  rw [domainOff, push_slices, takeEnables_slices, setPd_slices, foldl_resetRange_slices]

/-- A domain of slices that goes off loses its two slices. -/
theorem loseUnits_slices (s : State) {d : Nat} (h : d ≤ 16) :
    (loseUnits s d).slices = nerase (nerase s.slices (2 * d - 2)) (2 * d - 1) := by
  simp [loseUnits, h]

/-- The domain of a slice is one of the first sixteen, and the slice is one of the domain's two (R11). -/
theorem slicePd_cases {n : Nat} (hn : n < 32) : slicePd n ≤ 16 ∧ (n = 2 * slicePd n - 2 ∨ n = 2 * slicePd n - 1) := by
  unfold slicePd
  omega

/-- A slice whose domain goes off holds nothing (R276). -/
theorem slice_domainOff {s : State} (hs : nsorted s.slices = true) {n : Nat} (hn : n < 32) :
    slice (domainOff s (slicePd n)) n = {} := by
  obtain ⟨hd, hn⟩ := slicePd_cases hn
  generalize slicePd n = d at hd hn
  have gone : nget (nerase (nerase s.slices (2 * d - 2)) (2 * d - 1)) n = none := by
    have hs' := nsorted_nerase s.slices (2 * d - 2) hs
    by_cases last : n = 2 * d - 1
    · rw [last, nget_nerase_same _ _ hs']
    · rw [nget_nerase_ne _ _ _ hs' last, hn.resolve_right last, nget_nerase_same _ _ hs]
  rw [slice, domainOff_slices, loseUnits_slices s hd, gone]
  rfl

/-- A slice takes the epoch of the device, as each slice of a domain does that comes on (R301). -/
def atDeviceEpoch (s : State) (n : Nat) : State := setSlice s n { slice s n with epoch := getF s F.CFG_EPOCH_EPOCH }

theorem slice_atDeviceEpoch_ages (s : State) (n k : Nat) : (slice (atDeviceEpoch s n) k).ages = (slice s k).ages := by
  rw [atDeviceEpoch, slice_setSlice]
  split
  case isTrue h => rw [h]
  case isFalse => rfl

theorem domainOn_slices (s : State) (d : Nat) :
    (domainOn s d).slices = (if d ≤ 16 then atDeviceEpoch (atDeviceEpoch s (2 * d - 2)) (2 * d - 1) else s).slices := by
  rw [domainOn, push_slices, takeEnables_slices, setPd_slices]
  rfl

/-- An on-sequence keeps the age matrices of every slice: those of a domain that was off are already gone. -/
theorem slice_domainOn_ages (s : State) (d n : Nat) : (slice (domainOn s d) n).ages = (slice s n).ages := by
  rw [slice_congr (domainOn_slices s d)]
  split
  case isTrue => rw [slice_atDeviceEpoch_ages, slice_atDeviceEpoch_ages]
  case isFalse => rfl

/-- Settles O42: a pair's bit lies in the row of its lower way, and the rows fill the matrix in order; a slice that was off
holds no matrix. -/
theorem ageBits : Obligations.AgeBits := by
  unfold Obligations.AgeBits
  refine ⟨fun i j hij hj => ⟨rfl, ageBit_lt hij hj⟩, fun i j k l hij hj hkl hl => ageBit_inj hij hj hkl hl,
    fun m a b _ _ _ => ?_, fun a b _ _ hab => ?_, fun s n hs => ?_⟩
  · split
    case isTrue h => rw [newer_of_lt m h]
    case isFalse h => rw [newer_of_ge m (Nat.not_lt.mp h), Bool.not_eq_true']
  · rw [newer_zero_eq, decide_eq_decide]
    omega
  · rw [slice_domainOn_ages, slice_domainOff hs n.isLt]

end Sys2Proof.Machine
end

section
/-! PROOF. Multiplication by a power of α as repeated doubling, and the syndromes of a codeword without error (R220, R221). -/

namespace Sys2Proof.Machine

@[simp] theorem gfDouble_zero : gfDouble 0 = 0 := rfl

@[simp] theorem gfMul_zero_left (b : Nat) : gfMul 0 b = 0 := by simp [gfMul]

/-- A factor with one bit set is shifted up by as many doublings. -/
theorem gfMul_two_pow (a : Nat) {j : Nat} (h : j < 8) : gfMul a (2 ^ j) = gfDouble^[j] a := by
  interval_cases j <;> simp [gfMul, Nat.testBit, Function.iterate_succ_apply']

theorem alpha_eq_two_pow {j : Nat} (h : j < 8) : alpha j = 2 ^ j := by
  interval_cases j <;> rfl

/-- The field's polynomial: α^8 = α^4 + α^3 + α^2 + 1. -/
theorem gfMul_alpha_eight {a : Nat} (h : a < 256) : gfMul a (alpha 8) = gfDouble^[8] a := by
  have bytes : ∀ a < 256, gfMul a (alpha 8) = gfDouble^[8] a := by decide +kernel
  exact bytes a h

theorem gfMul_alpha_nine (a : Nat) : gfMul a (alpha 9) = gfDouble (gfMul a (alpha 8)) := by
  simp [gfMul, alpha, gfDouble, Nat.testBit]

/-- At the ten positions of a codeword, multiplying by α^j is j doublings. -/
theorem gfMul_alpha {a j : Nat} (ha : a < 256) (hj : j < 10) : gfMul a (alpha j) = gfDouble^[j] a := by
  obtain low | rfl | rfl : j < 8 ∨ j = 8 ∨ j = 9 := by omega
  · rw [alpha_eq_two_pow low, gfMul_two_pow a low]
  · exact gfMul_alpha_eight ha
  · rw [gfMul_alpha_nine, gfMul_alpha_eight ha, ← Function.iterate_succ_apply' gfDouble 8]

/-- Only 0 doubles to 0: a double that overflows is XORed with an odd number, and 2 a is even. -/
theorem gfDouble_eq_zero {a : Nat} : gfDouble a = 0 ↔ a = 0 := by
  unfold gfDouble
  split
  case isTrue => omega
  case isFalse => rw [Nat.xor_eq_zero_iff]; omega

theorem iterate_gfDouble_eq_zero {a j : Nat} : gfDouble^[j] a = 0 ↔ a = 0 := by
  induction j with
  | zero => rfl
  | succ j ih => rw [Function.iterate_succ_apply', gfDouble_eq_zero, ih]

theorem ofLe_replicate_zero (n : Nat) : ofLe (List.replicate n 0#8) = 0 := by
  induction n with
  | zero => rfl
  | succ n ih => rw [List.replicate_succ, ofLe, ih]; rfl

@[simp] theorem errSym_zero (i : Nat) : errSym 0#640 i = fun _ => 0 := by
  funext j
  rw [errSym, bits, BitVec.toNat_zero, Nat.zero_shiftRight, Nat.zero_mod]

/-- Without an error, S0 holds the poison's share alone (R221). -/
@[simp] theorem syndromes_zero (p : Bool) : syndromes 0#640 p = fun _ => (if p then 0xEE else 0, 0) := by
  funext i
  simp [syndromes, xorAll]

/-- A line without error decodes to the poison it was stored with, and nothing is to correct (R221, R222). -/
theorem rsDecode_zero (p : Bool) : rsDecode p 0#640 none = { poison := p } := by
  cases p <;> simp [rsDecode]

theorem lineErr_zero : lineErr 0#640 = 0#512 := by
  simp only [lineErr, errSym_zero, List.map_const', List.length_range, lineOf, ofLe_replicate_zero]

/-- Settles O47: α^j times a symbol is j doublings of it, and doubling makes no symbol zero; without an error each codeword has
the poison's syndromes alone. -/
theorem poisonSyndrome : Obligations.PoisonSyndrome := by
  unfold Obligations.PoisonSyndrome
  refine ⟨by decide, fun i => by simp, fun j e h => ?_, rsDecode_zero true, lineErr_zero⟩
  rwa [gfMul_alpha e.isLt j.isLt, iterate_gfDouble_eq_zero] at h

end Sys2Proof.Machine
end

section
/-! PROOF. Every command completes, the machine never stops, and what waits is kept (log entry 29). -/

namespace Sys2Proof.Machine

/-- Each arm of `exec` is an effect and what follows from it: no arm faults or refuses. -/
theorem exec_acts (i : Instr) (s : State) : ∃ u, Acts i s u := by
  cases i <;> exact ⟨_, rfl⟩

theorem step_nil {s : State} (h : s.pending = []) : step s = .next (settled s (tick s)) := by
  rw [step, h]
  rfl

theorem step_cons {s : State} {i : Instr} {rest : List Instr} (h : s.pending = i :: rest) :
    step s = exec i { s with pending := rest } := by
  rw [step, h]

/-- A step answers a next state, and takes no more than the front of the queue. -/
theorem step_next (s : State) : ∃ u, step s = .next u ∧ u.pending = s.pending.tail := by
  cases h : s.pending with
  | nil => exact ⟨_, step_nil h, h⟩
  | cons i rest =>
    obtain ⟨u, hu⟩ := exec_acts i { s with pending := rest }
    exact ⟨_, (step_cons h).trans hu, rfl⟩

/-- Settles O3: what follows from an effect hands on the queue as it is, and a queue's rest has no command that the queue had not. -/
theorem waitingKept : Obligations.WaitingKept := by
  unfold Obligations.WaitingKept
  intro s
  obtain ⟨u, hu, hp⟩ := step_next s
  exact ⟨u, hu, hp, fun hs i hi => hs i (List.mem_of_mem_tail (hp ▸ hi))⟩

theorem run_succ_of_step {M : Host.Core} {n : Nat} {s t : M.State} (h : M.step s = .next t) : M.run (n + 1) s = M.run n t := by
  rw [Host.Core.run, h]

/-- Settles O4, by induction on the number of steps, from O3. -/
theorem runGoesOn : Obligations.RunGoesOn := by
  unfold Obligations.RunGoesOn
  intro n
  induction n with
  | zero => exact fun s => ⟨s, rfl, rfl, id⟩
  | succ n ih =>
    intro s
    obtain ⟨t, ht, hpt, hwt⟩ := waitingKept s
    obtain ⟨u, hu, hpu, hwu⟩ := ih t
    refine ⟨u, (run_succ_of_step ht).trans hu, ?_, hwu ∘ hwt⟩
    rw [hpu, hpt, List.drop_tail]

/-- Where no unit notices a change, nothing is set going. -/
theorem react_of_seen_eq {s u : State} (h : seen s = seen u) : react s u = u := by
  rw [react]
  exact if_pos h

theorem drainWake_of_still {u : State} (h : Still u) : drainWake u = u := by
  rw [drainWake]
  exact if_neg fun ⟨low, high, _⟩ => h.2 ⟨low, high⟩

theorem settle_of_still {u : State} (h : Still u) (n : Nat) : settle u n = u := by
  cases n with
  | zero => rfl
  | succ n => rw [settle, h.1]

theorem settled_of_still {s u : State} (h : Still u) (hs : seen s = seen u) : settled s u = { u with pending := s.pending } := by
  rw [settled, react_of_seen_eq hs, drainWake_of_still h, settle_of_still h]

/-- Settles O1: the two cases of `step`, and a machine in which no work is left to do stays as it is. -/
theorem stepTakesFront : Obligations.StepTakesFront := by
  unfold Obligations.StepTakesFront
  exact ⟨⟨fun _ _ _ => step_cons, fun s c => step_cons rfl, fun _ => step_nil⟩, fun _ _ => settled_of_still⟩

end Sys2Proof.Machine
end

section
/-! PROOF. The gap of a region: where its lines lie, and what a gap move moves (R182). -/

namespace Sys2Proof.Machine

variable {g : Region}

/-- The place of a line in the rotation of its region, before the gap is counted in. -/
def rotated (g : Region) (l : Nat) : Nat := (l + g.start) % 16384

theorem slotOf_eq (g : Region) (l : Nat) : slotOf g l = if g.gap ≤ rotated g l then rotated g l + 1 else rotated g l := rfl

theorem rotated_lt (g : Region) (l : Nat) : rotated g l < 16384 := Nat.mod_lt _ (by decide)

theorem rotated_inj {k l : Nat} (hk : k < 16384) (hl : l < 16384) (h : rotated g k = rotated g l) : k = l := by
  unfold rotated at h
  omega

/-- Every place of the rotation has a line. -/
theorem exists_rotated (hs : g.start < 16384) {p : Nat} (hp : p < 16384) : ∃ k, k < 16384 ∧ rotated g k = p :=
  ⟨(p + 16384 - g.start) % 16384, Nat.mod_lt _ (by decide), by unfold rotated; omega⟩

theorem slotOf_le (g : Region) (l : Nat) : slotOf g l ≤ 16384 := by
  have := rotated_lt g l
  rw [slotOf_eq]
  split <;> omega

theorem slotOf_ne_gap (g : Region) (l : Nat) : slotOf g l ≠ g.gap := by
  rw [slotOf_eq]
  split <;> omega

/-- Leaving the gap out keeps different places apart. -/
theorem rotated_eq_of_slotOf_eq {k l : Nat} (h : slotOf g k = slotOf g l) : rotated g k = rotated g l := by
  rw [slotOf_eq, slotOf_eq] at h
  split at h <;> split at h <;> omega

theorem slotOf_inj {k l : Nat} (hk : k < 16384) (hl : l < 16384) (h : slotOf g k = slotOf g l) : k = l :=
  rotated_inj hk hl (rotated_eq_of_slotOf_eq h)

/-- A gap at 0 goes to the top, and START moves on with it. -/
theorem moveGap_of_zero (h : g.gap = 0) : moveGap g = { g with start := (g.start + 1) % 16384, gap := 16384 } := if_pos h

theorem moveGap_of_pos (h : g.gap ≠ 0) : moveGap g = { g with gap := g.gap - 1 } := if_neg h

theorem moveGap_start_lt (hs : g.start < 16384) : (moveGap g).start < 16384 := by
  by_cases h : g.gap = 0
  · rw [moveGap_of_zero h]; exact Nat.mod_lt _ (by decide)
  · rw [moveGap_of_pos h]; exact hs

theorem moveGap_gap_le (hg : g.gap ≤ 16384) : (moveGap g).gap ≤ 16384 := by
  by_cases h : g.gap = 0
  · rw [moveGap_of_zero h]
  · rw [moveGap_of_pos h]; exact (Nat.sub_le _ _).trans hg

theorem moveGap_wear (g : Region) : (moveGap g).wear = g.wear := by
  unfold moveGap
  split <;> rfl

/-- The slot that becomes the gap has a line: the one at the top, or the one just below the gap. -/
theorem exists_slotOf_moveGap (hs : g.start < 16384) (hg : g.gap ≤ 16384) : ∃ k, k < 16384 ∧ slotOf g k = (moveGap g).gap := by
  by_cases h : g.gap = 0
  · obtain ⟨k, hk, hr⟩ := exists_rotated (g := g) hs (p := 16383) (by decide)
    exact ⟨k, hk, by rw [moveGap_of_zero h, slotOf_eq, hr, h]; rfl⟩
  · obtain ⟨k, hk, hr⟩ := exists_rotated (g := g) hs (p := g.gap - 1) (by omega)
    exact ⟨k, hk, by rw [moveGap_of_pos h, slotOf_eq, hr, if_neg (by omega)]⟩

theorem rotated_succ_start (g : Region) (l : Nat) :
    rotated { g with start := (g.start + 1) % 16384, gap := 16384 } l = (rotated g l + 1) % 16384 := by
  show (l + (g.start + 1) % 16384) % 16384 = ((l + g.start) % 16384 + 1) % 16384
  omega

/-- A gap move moves one line, into the slot that was the gap. -/
theorem slotOf_moveGap (g : Region) (l : Nat) : slotOf (moveGap g) l = if slotOf g l = (moveGap g).gap then g.gap else slotOf g l := by
  have hr := rotated_lt g l
  by_cases h : g.gap = 0
  · rw [moveGap_of_zero h, slotOf_eq, rotated_succ_start, slotOf_eq, h]
    dsimp only
    split_ifs <;> omega
  · have same : rotated { g with gap := g.gap - 1 } l = rotated g l := rfl
    rw [moveGap_of_pos h, slotOf_eq, slotOf_eq, same]
    dsimp only
    split_ifs <;> omega

/-- Settles O44: a region's lines are its rotation with the gap left out, and a gap move turns the rotation by the one line it moves. -/
theorem gapPlacement : Obligations.GapPlacement := by
  unfold Obligations.GapPlacement
  exact fun g hs hg => ⟨fun l _ => ⟨slotOf_le g l, slotOf_ne_gap g l⟩, fun _ _ => slotOf_inj, moveGap_start_lt hs, moveGap_gap_le hg,
    exists_slotOf_moveGap hs hg, fun l _ => slotOf_moveGap g l, moveGap_wear g⟩

end Sys2Proof.Machine
end

section
/-! PROOF. SEC-DED is linear: what a decoder finds is the sum of what each wrong bit gives, and a stored word gives nothing (R412). -/

namespace Sys2Proof.Machine

theorem foldl_xor (l : List Nat) (a : Nat) : l.foldl Nat.xor a = a ^^^ xorAll l := by
  induction l generalizing a with
  | nil => exact (Nat.xor_zero a).symm
  | cons x l ih =>
    rw [xorAll, List.foldl_cons, List.foldl_cons, ih, ih (Nat.xor 0 x)]
    change (a ^^^ x) ^^^ xorAll l = a ^^^ ((0 ^^^ x) ^^^ xorAll l)
    rw [Nat.zero_xor, Nat.xor_assoc]

@[simp] theorem xorAll_nil : xorAll [] = 0 := rfl

@[simp] theorem xorAll_cons (a : Nat) (l : List Nat) : xorAll (a :: l) = a ^^^ xorAll l := by
  rw [xorAll, List.foldl_cons, foldl_xor]
  change (0 ^^^ a) ^^^ xorAll l = _
  rw [Nat.zero_xor]

theorem xorAll_lt {n : Nat} {l : List Nat} (h : ∀ x ∈ l, x < 2 ^ n) : xorAll l < 2 ^ n := by
  induction l with
  | nil => exact Nat.two_pow_pos n
  | cons a l ih =>
    rw [xorAll_cons]
    exact Nat.xor_lt_two_pow (h a (by simp)) (ih fun x hx => h x (by simp [hx]))

/-- The XOR of the values whose bit is set in a word: each pair is a value and the index of its bit. -/
def xorSel (l : List (Nat × Nat)) (e : Nat) : Nat := xorAll ((l.filter (fun x => e.testBit x.2)).map (·.1))

theorem xorSel_cons (x : Nat × Nat) (l : List (Nat × Nat)) (e : Nat) :
    xorSel (x :: l) e = (if e.testBit x.2 then x.1 else 0) ^^^ xorSel l e := by
  unfold xorSel
  cases h : e.testBit x.2 <;> simp [h]

theorem xorSel_xor (l : List (Nat × Nat)) (a b : Nat) : xorSel l (a ^^^ b) = xorSel l a ^^^ xorSel l b := by
  induction l with
  | nil => simp [xorSel]
  | cons x l ih =>
    rw [xorSel_cons, xorSel_cons, xorSel_cons, ih, Nat.testBit_xor]
    cases a.testBit x.2 <;> cases b.testBit x.2 <;> simp [Nat.xor_assoc, Nat.xor_left_comm x.1]

/-- Bits outside a list's indexes do not matter. -/
theorem xorSel_congr {l : List (Nat × Nat)} {a b : Nat} (h : ∀ x ∈ l, a.testBit x.2 = b.testBit x.2) : xorSel l a = xorSel l b := by
  rw [xorSel, xorSel, List.filter_congr h]

/-- Whether the number of set bits at some indexes is odd. -/
def oddAt (l : List Nat) (e : Nat) : Bool := (l.filter e.testBit).length.bodd

theorem oddAt_cons (i : Nat) (l : List Nat) (e : Nat) : oddAt (i :: l) e = (e.testBit i ^^ oddAt l e) := by
  unfold oddAt
  cases h : e.testBit i <;> simp [h]

theorem oddAt_xor (l : List Nat) (a b : Nat) : oddAt l (a ^^^ b) = (oddAt l a ^^ oddAt l b) := by
  induction l with
  | nil => simp [oddAt]
  | cons i l ih =>
    rw [oddAt_cons, oddAt_cons, oddAt_cons, ih, Nat.testBit_xor]
    cases a.testBit i <;> cases b.testBit i <;> simp

/-- The syndrome of an error pattern, and whether it flips the parity (R412). -/
def secSyn (k r e : Nat) : Nat := xorSel (dataPositions k r).zipIdx e ^^^ ((e >>> k) % 2 ^ r)
def secOdd (k r e : Nat) : Bool := oddAt (List.range (k + r + 1)) e

theorem secSyn_xor (k r a b : Nat) : secSyn k r (a ^^^ b) = secSyn k r a ^^^ secSyn k r b := by
  simp only [secSyn, xorSel_xor, Nat.shiftRight_xor_distrib, Nat.xor_mod_two_pow]
  simp only [Nat.xor_assoc, Nat.xor_left_comm]

theorem secOdd_xor (k r a b : Nat) : secOdd k r (a ^^^ b) = (secOdd k r a ^^ secOdd k r b) := oddAt_xor _ a b

theorem bodd_eq_true_iff (n : Nat) : n.bodd = true ↔ n % 2 = 1 := by
  rw [Nat.mod_two_of_bodd]; cases n.bodd <;> simp

/-- What the decoder finds, by the syndrome and the parity alone. -/
def secFound (k r s : Nat) (odd : Bool) : Decoded :=
  if odd = true then (if s ≤ k + r then .corrected else .uncorrectable) else (if s = 0 then .clean else .uncorrectable)

theorem secOdd_iff (k r e : Nat) : secOdd k r e = true ↔ ((List.range (k + r + 1)).filter e.testBit).length % 2 = 1 :=
  bodd_eq_true_iff _

theorem secdedDecode_fst (k r e : Nat) : (secdedDecode k r e).1 = secFound k r (secSyn k r e) (secOdd k r e) := by
  unfold secdedDecode secFound secSyn xorSel
  simp only [← secOdd_iff]
  generalize xorAll _ ^^^ _ = s
  cases secOdd k r e with
  | false => by_cases hs : s = 0 <;> simp [hs]
  | true =>
    by_cases hs : s = 0
    · simp [hs]
    · by_cases hle : s ≤ k + r
      · simp only [hs, hle, not_true, and_false, and_self, if_true, if_false]
        split <;> rfl
      · simp [hs, hle]

/-- With an odd parity, the data bit at the syndrome's position, if any, is corrected. -/
theorem secdedDecode_of_odd {k r e : Nat} {o : Option (Nat × Nat)} (ho : secOdd k r e = true) (hle : secSyn k r e ≤ k + r)
    (hf : (dataPositions k r).zipIdx.find? (fun x => decide (x.1 = secSyn k r e)) = o) (h0 : secSyn k r e = 0 → o = none) :
    secdedDecode k r e = (.corrected, e % 2 ^ k ^^^ (o.map (fun x => 1 <<< x.2)).getD 0) := by
  have hodd := (secOdd_iff k r e).mp ho
  unfold secdedDecode
  unfold secSyn xorSel at hle hf h0
  simp only [hodd, hle, hf, not_true, true_and, false_and, and_true, if_true, if_false]
  split
  case isTrue hs => simp [h0 hs]
  case isFalse => cases o <;> simp

/-- A pattern with no syndrome and even parity changes nothing of what the decoder finds. -/
theorem secdedDecode_fst_xor {k r w : Nat} (hs : secSyn k r w = 0) (ho : secOdd k r w = false) (e : Nat) :
    (secdedDecode k r (w ^^^ e)).1 = (secdedDecode k r e).1 := by
  rw [secdedDecode_fst, secdedDecode_fst, secSyn_xor, secOdd_xor, hs, ho, Nat.zero_xor, Bool.false_xor]

theorem oddAt_append (l m : List Nat) (e : Nat) : oddAt (l ++ m) e = (oddAt l e ^^ oddAt m e) := by
  simp [oddAt, Nat.bodd_add]

theorem oddAt_map_add (l : List Nat) (k e : Nat) : oddAt (l.map (k + ·)) e = oddAt l (e >>> k) := by
  induction l with
  | nil => rfl
  | cons i l ih => rw [List.map_cons, oddAt_cons, oddAt_cons, ih, Nat.testBit_shiftRight]

theorem oddAt_range_add (m n e : Nat) : oddAt (List.range (m + n)) e = (oddAt (List.range m) e ^^ oddAt (List.range n) (e >>> m)) := by
  rw [List.range_add, oddAt_append, oddAt_map_add]

theorem oddAt_congr {l : List Nat} {a b : Nat} (h : ∀ i ∈ l, a.testBit i = b.testBit i) : oddAt l a = oddAt l b := by
  rw [oddAt, oddAt, List.filter_congr h]

/-- A word of `k` bits below another one. -/
theorem testBit_low_part {k v i : Nat} (c : Nat) (hv : v < 2 ^ k) (hi : i < k) : (v + c <<< k).testBit i = v.testBit i := by
  rw [Nat.shiftLeft_eq, Nat.add_comm, Nat.mul_comm, Nat.testBit_two_pow_mul_add _ hv, if_pos hi]

theorem high_part {k v : Nat} (c : Nat) (hv : v < 2 ^ k) : (v + c <<< k) >>> k = c := by
  rw [Nat.shiftLeft_eq, Nat.shiftRight_eq_div_pow, Nat.add_mul_div_right _ _ (Nat.two_pow_pos k), Nat.div_eq_of_lt hv, Nat.zero_add]

/-- The low check bits of a word: the XOR of the positions of its set data bits (R412). -/
def secLow (k r v : Nat) : Nat := xorSel (dataPositions k r).zipIdx v

theorem secdedCheck_eq (k r v : Nat) :
    secdedCheck k r v = secLow k r v + ((oddAt (List.range k) v ^^ oddAt (List.range r) (secLow k r v)).toNat) <<< r := by
  rw [oddAt, oddAt, ← Nat.bodd_add, ← Nat.mod_two_of_bodd]
  rfl

section
variable {k r v : Nat} (hfit : k + r < 2 ^ r) (hlen : (dataPositions k r).length = k) (hv : v < 2 ^ k)
include hfit

theorem secLow_lt : secLow k r v < 2 ^ r := by
  refine xorAll_lt fun x hx => ?_
  obtain ⟨p, hp, rfl⟩ := List.mem_map.mp hx
  have hmem : p.1 ∈ dataPositions k r := List.mem_of_mem_filter hp |> List.fst_mem_of_mem_zipIdx
  have : p.1 ∈ List.range (k + r + 1) := List.mem_of_mem_drop (List.mem_of_mem_filter hmem)
  rw [List.mem_range] at this
  omega

include hlen hv

theorem secSyn_codeword : secSyn k r (v + secdedCheck k r v <<< k) = 0 := by
  have data : xorSel (dataPositions k r).zipIdx (v + secdedCheck k r v <<< k) = secLow k r v :=
    xorSel_congr fun x hx => testBit_low_part _ hv (hlen ▸ List.snd_lt_of_mem_zipIdx hx)
  rw [secSyn, data, high_part _ hv, secdedCheck_eq, Nat.shiftLeft_eq, Nat.add_mul_mod_self_right, Nat.mod_eq_of_lt (secLow_lt hfit), Nat.xor_self]

omit hlen in
theorem secOdd_codeword : secOdd k r (v + secdedCheck k r v <<< k) = false := by
  have data : oddAt (List.range k) (v + secdedCheck k r v <<< k) = oddAt (List.range k) v :=
    oddAt_congr fun i hi => testBit_low_part _ hv (List.mem_range.mp hi)
  have low : oddAt (List.range r) (secdedCheck k r v) = oddAt (List.range r) (secLow k r v) := by
    rw [secdedCheck_eq]
    exact oddAt_congr fun i hi => testBit_low_part _ (secLow_lt hfit) (List.mem_range.mp hi)
  have top : secdedCheck k r v >>> r = (oddAt (List.range k) v ^^ oddAt (List.range r) (secLow k r v)).toNat := by
    rw [secdedCheck_eq, high_part _ (secLow_lt hfit)]
  rw [secOdd, Nat.add_assoc, oddAt_range_add, data, high_part _ hv, oddAt_range_add, low, top]
  cases oddAt (List.range k) v <;> cases oddAt (List.range r) (secLow k r v) <;> rfl

end

/-! One wrong bit. -/

theorem testBit_one_shiftLeft (i j : Nat) : (1 <<< i).testBit j = decide (i = j) := by
  rw [Nat.one_shiftLeft, Nat.testBit_two_pow]

theorem oddAt_range_one_bit (n i : Nat) : oddAt (List.range n) (1 <<< i) = decide (i < n) := by
  induction n with
  | zero => simp [oddAt]
  | succ n ih =>
    have one : oddAt [n] (1 <<< i) = decide (i = n) := by rw [oddAt_cons, testBit_one_shiftLeft]; simp [oddAt]
    rw [List.range_succ, oddAt_append, ih, one]
    rcases lt_trichotomy i n with h | h | h
    · simp [h, show i ≠ n by omega, show i < n + 1 by omega]
    · simp [h]
    · simp [show ¬ i < n by omega, show i ≠ n by omega, show ¬ i < n + 1 by omega]

theorem xorSel_zipIdx_one_bit (l : List Nat) (n i : Nat) : xorSel (l.zipIdx n) (1 <<< (n + i)) = l.getD i 0 := by
  induction l generalizing n i with
  | nil => simp [xorSel]
  | cons a l ih =>
    rw [List.zipIdx_cons, xorSel_cons, testBit_one_shiftLeft]
    cases i with
    | zero =>
      have none : xorSel (l.zipIdx (n + 1)) (1 <<< n) = xorSel (l.zipIdx (n + 1)) 0 := by
        refine xorSel_congr fun x hx => ?_
        have := List.le_snd_of_mem_zipIdx hx
        rw [testBit_one_shiftLeft, Nat.zero_testBit, decide_eq_false (by omega)]
      rw [Nat.add_zero, none]
      simp [xorSel]
    | succ i =>
      have := ih (n + 1) i
      rw [show n + 1 + i = n + (i + 1) by omega] at this
      simp [this]

/-- The code position of each bit of a stored word: its data bits, its low check bits, and 0 for the parity (R412). -/
def codePositions (k r : Nat) : List Nat := dataPositions k r ++ ((List.range r).map (2 ^ ·) ++ [0])

/-- Where an entry stands in a list without repetitions. -/
theorem find?_zipIdx_getElem {l : List Nat} (h : l.Nodup) (n : Nat) {i : Nat} (hi : i < l.length) :
    (l.zipIdx n).find? (fun x => decide (x.1 = l[i])) = some (l[i], n + i) := by
  induction l generalizing n i with
  | nil => simp at hi
  | cons a l ih =>
    rw [List.zipIdx_cons]
    cases i with
    | zero => simp
    | succ i =>
      have hi' : i < l.length := by simpa using hi
      have hne : a ≠ l[i] := fun e => (List.nodup_cons.mp h).1 (e ▸ List.getElem_mem hi')
      simp only [List.getElem_cons_succ]
      rw [List.find?_cons_of_neg (by simpa using hne), ih (List.nodup_cons.mp h).2 (n + 1) hi']
      congr 2
      omega

theorem find?_zipIdx_eq_none {l : List Nat} {s : Nat} (h : s ∉ l) : l.zipIdx.find? (fun x => decide (x.1 = s)) = none := by
  rw [List.find?_eq_none]
  intro x hx e
  exact h (of_decide_eq_true e ▸ List.fst_mem_of_mem_zipIdx hx)

section
variable {k r i : Nat} (hlen : (dataPositions k r).length = k) (hnodup : (codePositions k r).Nodup)
include hlen

theorem codePositions_length : (codePositions k r).length = k + r + 1 := by
  simp [codePositions, hlen, Nat.add_assoc]

theorem secSyn_one_bit (hi : i < (codePositions k r).length) : secSyn k r (1 <<< i) = (codePositions k r)[i] := by
  have data : xorSel (dataPositions k r).zipIdx (1 <<< i) = (dataPositions k r).getD i 0 := by
    simpa using xorSel_zipIdx_one_bit (dataPositions k r) 0 i
  have hi' := codePositions_length hlen ▸ hi
  rw [secSyn, data, Nat.one_shiftLeft, Nat.shiftRight_eq_div_pow]
  rcases Nat.lt_or_ge i k with h | h
  · have hp : i < (dataPositions k r).length := by omega
    rw [Nat.div_eq_of_lt (Nat.pow_lt_pow_right (by decide) h), List.getD_eq_getElem _ _ hp]
    simp [codePositions, List.getElem_append_left hp]
  · obtain ⟨j, rfl⟩ := Nat.exists_eq_add_of_le h
    rw [Nat.pow_add, Nat.mul_div_cancel_left _ (Nat.two_pow_pos k), List.getD_eq_default _ _ (by omega), Nat.zero_xor]
    rcases Nat.lt_or_ge j r with hj | hj
    · rw [Nat.mod_eq_of_lt (Nat.pow_lt_pow_right (by decide) hj)]
      simp [codePositions, hlen, hj]
    · obtain rfl : j = r := by omega
      simp [codePositions, hlen]

theorem secOdd_one_bit (hi : i < (codePositions k r).length) : secOdd k r (1 <<< i) = true := by
  rw [secOdd, oddAt_range_one_bit, decide_eq_true (codePositions_length hlen ▸ hi)]

include hnodup

/-- Every code position names its bit. -/
theorem secSyn_one_bit_inj {j : Nat} (hi : i < (codePositions k r).length) (hj : j < (codePositions k r).length)
    (h : secSyn k r (1 <<< i) = secSyn k r (1 <<< j)) : i = j := by
  rw [secSyn_one_bit hlen hi, secSyn_one_bit hlen hj] at h
  exact (hnodup.getElem_inj_iff).mp h

theorem secdedDecode_two_bits {j : Nat} (hij : i < j) (hj : j < (codePositions k r).length) :
    (secdedDecode k r (1 <<< i ^^^ 1 <<< j)).1 = .uncorrectable := by
  have hne : secSyn k r (1 <<< i) ^^^ secSyn k r (1 <<< j) ≠ 0 := fun e =>
    absurd (secSyn_one_bit_inj hlen hnodup (hij.trans hj) hj (Nat.xor_eq_zero_iff.mp e)) hij.ne
  rw [secdedDecode_fst, secSyn_xor, secOdd_xor, secOdd_one_bit hlen (hij.trans hj), secOdd_one_bit hlen hj]
  exact if_neg hne

/-- A data bit in error stands at its own position, and a check bit at none of the data's. -/
theorem find?_one_bit (hi : i < (codePositions k r).length) :
    (dataPositions k r).zipIdx.find? (fun x => decide (x.1 = secSyn k r (1 <<< i))) =
      if i < k then some (secSyn k r (1 <<< i), i) else none := by
  rw [secSyn_one_bit hlen hi]
  split
  case isTrue h =>
    have hp : i < (dataPositions k r).length := by omega
    have e : (codePositions k r)[i] = (dataPositions k r)[i] := List.getElem_append_left hp
    rw [e, find?_zipIdx_getElem (List.nodup_append.mp hnodup).1 0 hp, Nat.zero_add]
  case isFalse h =>
    refine find?_zipIdx_eq_none fun hmem => ?_
    obtain ⟨j, hj, e⟩ := List.getElem_of_mem hmem
    have e' : (codePositions k r)[j]'(by rw [codePositions_length hlen]; omega) = (dataPositions k r)[j] := List.getElem_append_left hj
    have := (hnodup.getElem_inj_iff).mp (e'.trans e)
    omega

theorem secdedDecode_one_bit (hle : ∀ p ∈ codePositions k r, p ≤ k + r) (hi : i < (codePositions k r).length) :
    secdedDecode k r (1 <<< i) = (.corrected, 0) := by
  have hs : secSyn k r (1 <<< i) ≤ k + r := by
    rw [secSyn_one_bit hlen hi]
    exact hle _ (List.getElem_mem hi)
  have h0 : secSyn k r (1 <<< i) = 0 → (if i < k then some (secSyn k r (1 <<< i), i) else none) = none := fun e => by
    have top : k + r < (codePositions k r).length := by rw [codePositions_length hlen]; omega
    have e' : secSyn k r (1 <<< (k + r)) = 0 := by
      rw [secSyn_one_bit hlen top]
      simp [codePositions, hlen]
    have := secSyn_one_bit_inj hlen hnodup hi top (e.trans e'.symm)
    exact if_neg (by omega)
  rw [secdedDecode_of_odd (secOdd_one_bit hlen hi) hs (find?_one_bit hlen hnodup hi) h0]
  rcases Nat.lt_or_ge i k with h | h
  · simp [h, Nat.one_shiftLeft, Nat.mod_eq_of_lt (Nat.pow_lt_pow_right (by decide : 1 < 2) h)]
  · simp [Nat.not_lt.mpr h, Nat.one_shiftLeft, Nat.mod_eq_zero_of_dvd (Nat.pow_dvd_pow 2 h)]

end

/-- The three sizes of R412. -/
def secSizes : List (Nat × Nat) := [(40, 6), (128, 8), (49, 6)]

theorem secSizes_spec : ∀ x ∈ secSizes, x.1 + x.2 < 2 ^ x.2 ∧ (dataPositions x.1 x.2).length = x.1 ∧ (codePositions x.1 x.2).Nodup
    ∧ ∀ p ∈ codePositions x.1 x.2, p ≤ x.1 + x.2 := by
  decide +kernel

theorem secdedDecode_zero (k r : Nat) : secdedDecode k r 0 = (.clean, 0) := by
  have none : (List.range (k + r + 1)).filter (Nat.testBit 0) = [] := by simp
  simp [secdedDecode, none]

/-- Settles O45: a stored word has no syndrome and even parity, so that an error alone is decoded; and every bit has a code position of its
own. -/
theorem secDed : Obligations.SecDed := by
  unfold Obligations.SecDed
  intro k r hsize
  obtain ⟨hfit, hlen, hnodup, hle⟩ := secSizes_spec (k, r) hsize
  have bits : (codePositions k r).length = k + r + 1 := codePositions_length hlen
  dsimp only at hfit hlen hnodup hle
  have linear : ∀ v e, v < 2 ^ k → (secdedDecode k r ((v + secdedCheck k r v <<< k) ^^^ e)).1 = (secdedDecode k r e).1 := fun v e hv =>
    secdedDecode_fst_xor (secSyn_codeword hfit hlen hv) (secOdd_codeword hfit hv) e
  refine ⟨fun v hv => ?_, secdedDecode_zero k r, fun i hi => secdedDecode_one_bit hlen hnodup hle (by omega),
    fun i j hij hj => secdedDecode_two_bits hlen hnodup hij (by omega), linear⟩
  have := linear v 0 hv
  rwa [Nat.xor_zero, secdedDecode_zero] at this

end Sys2Proof.Machine
end

section
/-! PROOF. The chip-failure code: the encoder's syndromes are none, and errors of one device fit that device alone (R220–R223). -/

namespace Sys2Proof.Machine

/-! Doubling and multiplying are linear on symbols. -/

theorem gfDouble_lt {a : Nat} (h : a < 256) : gfDouble a < 256 := by
  have bytes : ∀ a < 256, gfDouble a < 256 := by decide +kernel
  exact bytes a h

theorem gfDouble_eq {a : Nat} (h : a < 256) : gfDouble a = 2 * a ^^^ (if a.testBit 7 then 0x11D else 0) := by
  have bytes : ∀ a < 256, gfDouble a = 2 * a ^^^ (if a.testBit 7 then 0x11D else 0) := by decide +kernel
  exact bytes a h

theorem xor_lt_256 {a b : Nat} (ha : a < 256) (hb : b < 256) : a ^^^ b < 256 := Nat.xor_lt_two_pow (n := 8) ha hb

theorem gfDouble_xor {a b : Nat} (ha : a < 256) (hb : b < 256) : gfDouble (a ^^^ b) = gfDouble a ^^^ gfDouble b := by
  have two : 2 * (a ^^^ b) = 2 * a ^^^ 2 * b := by
    simpa [Nat.shiftLeft_eq, Nat.mul_comm] using Nat.shiftLeft_xor_distrib (a := a) (b := b) (i := 1)
  rw [gfDouble_eq ha, gfDouble_eq hb, gfDouble_eq (xor_lt_256 ha hb), two, Nat.testBit_xor]
  cases a.testBit 7 <;> cases b.testBit 7 <;> simp [Nat.xor_assoc, Nat.xor_comm, Nat.xor_left_comm]

theorem iterate_gfDouble_lt {a : Nat} (h : a < 256) (j : Nat) : gfDouble^[j] a < 256 := by
  induction j with
  | zero => exact h
  | succ j ih => rw [Function.iterate_succ_apply']; exact gfDouble_lt ih

theorem iterate_gfDouble_xor {a b : Nat} (ha : a < 256) (hb : b < 256) (j : Nat) :
    gfDouble^[j] (a ^^^ b) = gfDouble^[j] a ^^^ gfDouble^[j] b := by
  induction j with
  | zero => rfl
  | succ j ih =>
    simp only [Function.iterate_succ_apply', ih]
    exact gfDouble_xor (iterate_gfDouble_lt ha j) (iterate_gfDouble_lt hb j)

theorem gfMul_alpha_xor {a b j : Nat} (ha : a < 256) (hb : b < 256) (hj : j < 10) :
    gfMul (a ^^^ b) (alpha j) = gfMul a (alpha j) ^^^ gfMul b (alpha j) := by
  rw [gfMul_alpha ha hj, gfMul_alpha hb hj, gfMul_alpha (xor_lt_256 ha hb) hj, iterate_gfDouble_xor ha hb]

theorem gfMul_alpha_eq_zero {a j : Nat} (ha : a < 256) (hj : j < 10) : gfMul a (alpha j) = 0 ↔ a = 0 := by
  rw [gfMul_alpha ha hj, iterate_gfDouble_eq_zero]

/-- Fewer than ten doublings give no symbol but 0 back. -/
theorem eq_zero_of_iterate_gfDouble_eq {a d : Nat} (ha : a < 256) (hd : 0 < d) (hd' : d < 10) (h : gfDouble^[d] a = a) : a = 0 := by
  have bytes : ∀ a < 256, ∀ d < 10, 0 < d → gfDouble^[d] a = a → a = 0 := by decide +kernel
  exact bytes a ha d hd' hd h

/-- A symbol in error stands at one position only. -/
theorem gfMul_alpha_inj {a i j : Nat} (ha : a < 256) (h0 : a ≠ 0) (hi : i < 10) (hj : j < 10)
    (h : gfMul a (alpha i) = gfMul a (alpha j)) : i = j := by
  rw [gfMul_alpha ha hi, gfMul_alpha ha hj] at h
  have later : ∀ {m n}, m < n → n < 10 → gfDouble^[m] a ≠ gfDouble^[n] a := fun {m n} hmn hn e => by
    obtain ⟨d, rfl⟩ := Nat.exists_eq_add_of_lt hmn
    rw [show m + d + 1 = (d + 1) + m by omega, Function.iterate_add_apply] at e
    have := eq_zero_of_iterate_gfDouble_eq (iterate_gfDouble_lt ha m) (by omega) (by omega) e.symm
    exact h0 (iterate_gfDouble_eq_zero.mp this)
  rcases lt_trichotomy i j with hij | hij | hij
  · exact absurd h (later hij hj)
  · exact hij
  · exact absurd h.symm (later hij hi)

theorem gfMul_lt {a : Nat} (ha : a < 256) (b : Nat) : gfMul a b < 256 := by
  have step : ∀ (l : List Nat) (acc : Nat), acc < 256 → l.foldl (fun acc i => gfDouble acc ^^^ (if b.testBit i then a else 0)) acc < 256 := by
    intro l
    induction l with
    | nil => exact fun _ h => h
    | cons i l ih =>
      refine fun acc h => ih _ (xor_lt_256 (gfDouble_lt h) ?_)
      split
      · exact ha
      · decide
  exact step _ 0 (by decide)

/-! Symbols of a line and of its check bytes. -/

theorem errSym_lt (e : BitVec 640) (i j : Nat) : errSym e i j < 256 := Nat.mod_lt _ (by decide)

theorem ofLe_lt (l : List Byte) : ofLe l < 256 ^ l.length := by
  induction l with
  | nil => exact Nat.one_pos
  | cons b l ih =>
    have := b.isLt
    rw [ofLe, List.length_cons, Nat.pow_succ]
    omega

theorem ofLe_byte (l : List Byte) (k : Nat) : (ofLe l >>> (8 * k)) % 256 = (l.getD k 0).toNat := by
  induction l generalizing k with
  | nil => simp [ofLe]
  | cons b l ih =>
    have := b.isLt
    cases k with
    | zero => simp [ofLe]; omega
    | succ k =>
      have low : ofLe (b :: l) >>> 8 = ofLe l := by rw [ofLe, Nat.shiftRight_eq_div_pow]; omega
      rw [Nat.mul_succ, Nat.add_comm, Nat.shiftRight_add, low, ih]
      rfl

/-- A byte of a word that a list of bytes spells. -/
theorem bits_ofLe {n : Nat} {l : List Byte} {k : Nat} (hl : 8 * l.length ≤ n) : bits (BitVec.ofNat n (ofLe l)) (8 * k) 8 = (l.getD k 0).toNat := by
  have small : ofLe l < 2 ^ n := calc
    ofLe l < 256 ^ l.length := ofLe_lt l
    _ = 2 ^ (8 * l.length) := by rw [Nat.pow_mul]
    _ ≤ 2 ^ n := Nat.pow_le_pow_right (by decide) hl
  rw [bits, BitVec.toNat_ofNat, Nat.mod_eq_of_lt small]
  exact ofLe_byte l k

/-- The poison pattern's share of the two check symbols and of S0 (R221). -/
def poisonSym (p : Bool) (j : Nat) : Nat := if p then (if j = 0 then 0xB4 else 0x5A) else 0

theorem rsData_lt {d : Line} {i x : Nat} (h : x ∈ rsData d i) : x < 256 := by
  obtain ⟨k, -, rfl⟩ := List.mem_map.mp h
  exact Nat.mod_lt _ (by decide)

theorem rsCheck_lt {c : List Nat} (h : ∀ x ∈ c, x < 256) : (rsCheck c).1 < 256 ∧ (rsCheck c).2 < 256 := by
  have ha : xorAll c < 256 := xorAll_lt (n := 8) h
  have hb : xorAll (c.zipIdx.map (fun x => gfMul x.1 (alpha (x.2 + 2)))) < 256 := xorAll_lt (n := 8) fun x hx => by
    obtain ⟨y, hy, rfl⟩ := List.mem_map.mp hx
    exact gfMul_lt (h _ (List.fst_mem_of_mem_zipIdx hy)) _
  have h1 := gfMul_lt (xor_lt_256 ha hb) 0xF4
  exact ⟨xor_lt_256 ha h1, h1⟩

/-- 0xF4 divides by 1 + α (R220). -/
theorem gfMul_F4 {x : Nat} (h : x < 256) : gfMul x 0xF4 ^^^ gfDouble (gfMul x 0xF4) = x := by
  have bytes : ∀ x < 256, gfMul x 0xF4 ^^^ gfDouble (gfMul x 0xF4) = x := by decide +kernel
  exact bytes x h

/-- A check symbol of a stored line (R220, R221). -/
def checkSym (d : Line) (p : Bool) (i j : Nat) : Nat := (if j = 0 then (rsCheck (rsData d i)).1 else (rsCheck (rsData d i)).2) ^^^ poisonSym p j

theorem poisonSym_lt (p : Bool) (j : Nat) : poisonSym p j < 256 := by
  unfold poisonSym
  split_ifs <;> decide

theorem checkSym_lt (d : Line) (p : Bool) (i j : Nat) : checkSym d p i j < 256 := by
  obtain ⟨h0, h1⟩ := rsCheck_lt (c := rsData d i) fun _ => rsData_lt
  refine xor_lt_256 ?_ (poisonSym_lt p j)
  split
  · exact h0
  · exact h1

theorem bits_lineCheck (d : Line) (p : Bool) {i j : Nat} (hi : i < 8) (hj : j < 2) : bits (lineCheck d p) (8 * (2 * i + j)) 8 = checkSym d p i j := by
  rw [lineCheck, bits_ofLe (by simp)]
  have byte : ∀ l : List Byte, l.getD (2 * i + j) 0 = BitVec.ofNat 8 (checkSym d p i j) → (l.getD (2 * i + j) 0).toNat = checkSym d p i j :=
    fun l h => by rw [h, BitVec.toNat_ofNat, Nat.mod_eq_of_lt (checkSym_lt d p i j)]
  apply byte
  interval_cases i <;> interval_cases j <;> cases p <;> rfl

/-- A codeword as it is stored: its check symbols, then its data. -/
def codeSym (d : Line) (p : Bool) (i j : Nat) : Nat := if j < 2 then checkSym d p i j else (rsData d i).getD (j - 2) 0

theorem storedSym_eq (d : Line) (p : Bool) (e : BitVec 640) {i j : Nat} (hi : i < 8) (hj : j < 10) :
    storedSym d (lineCheck d p) e i j = codeSym d p i j ^^^ errSym e i j := by
  unfold storedSym codeSym
  split
  case isTrue h => rw [bits_lineCheck d p hi h]
  case isFalse h =>
    have : j - 2 < 8 := by omega
    simp [rsData, this]

theorem xorAll_map_xor (f g : Nat → Nat) (l : List Nat) : xorAll (l.map (fun j => f j ^^^ g j)) = xorAll (l.map f) ^^^ xorAll (l.map g) := by
  induction l with
  | nil => simp
  | cons j l ih =>
    simp only [List.map_cons, xorAll_cons, ih]
    simp only [Nat.xor_assoc, Nat.xor_left_comm]

theorem checkSym_zero (d : Line) (p : Bool) (i : Nat) : checkSym d p i 0 = (xorAll (rsData d i) ^^^ (rsCheck (rsData d i)).2) ^^^ poisonSym p 0 := rfl

theorem checkSym_one (d : Line) (p : Bool) (i : Nat) : checkSym d p i 1 = (rsCheck (rsData d i)).2 ^^^ poisonSym p 1 := rfl

/-- What a stored codeword leaves of S0 is the poison's share (R220, R221). -/
theorem xorAll_codeSym (d : Line) (p : Bool) (i : Nat) : xorAll ((List.range 10).map (codeSym d p i)) = if p then 0xEE else 0 := by
  have syms : (List.range 10).map (codeSym d p i) = checkSym d p i 0 :: checkSym d p i 1 :: rsData d i := rfl
  have share : poisonSym p 0 ^^^ poisonSym p 1 = if p then 0xEE else 0 := by cases p <;> rfl
  rw [syms, xorAll_cons, xorAll_cons, checkSym_zero, checkSym_one, ← share]
  generalize xorAll (rsData d i) = a, (rsCheck (rsData d i)).2 = c, poisonSym p 0 = x, poisonSym p 1 = y
  calc a ^^^ c ^^^ x ^^^ (c ^^^ y ^^^ a) = (a ^^^ a) ^^^ (c ^^^ c) ^^^ (x ^^^ y) := by ac_rfl
    _ = x ^^^ y := by simp

/-- It leaves nothing of S1. -/
theorem xorAll_gfMul_codeSym (d : Line) (p : Bool) (i : Nat) : xorAll ((List.range 10).map (fun j => gfMul (codeSym d p i j) (alpha j))) = 0 := by
  have hdata : xorAll (rsData d i) < 256 := xorAll_lt (n := 8) fun _ => rsData_lt
  have syms : (List.range 10).map (fun j => gfMul (codeSym d p i j) (alpha j)) =
      gfMul (checkSym d p i 0) (alpha 0) :: gfMul (checkSym d p i 1) (alpha 1) ::
        (rsData d i).zipIdx.map (fun x => gfMul x.1 (alpha (x.2 + 2))) := rfl
  have hb : xorAll ((rsData d i).zipIdx.map (fun x => gfMul x.1 (alpha (x.2 + 2)))) < 256 := xorAll_lt (n := 8) fun x hx => by
    obtain ⟨y, hy, rfl⟩ := List.mem_map.mp hx
    exact gfMul_lt (rsData_lt (List.fst_mem_of_mem_zipIdx hy)) _
  have hc := (rsCheck_lt (c := rsData d i) fun _ => rsData_lt).2
  have div := gfMul_F4 (xor_lt_256 hdata hb)
  have share : poisonSym p 0 = gfDouble (poisonSym p 1) := by cases p <;> rfl
  rw [syms, xorAll_cons, xorAll_cons, checkSym_zero, checkSym_one, gfMul_alpha (xor_lt_256 (xor_lt_256 hdata hc) (poisonSym_lt p 0)) (by decide),
    gfMul_alpha (xor_lt_256 hc (poisonSym_lt p 1)) (by decide), Function.iterate_zero_apply, Function.iterate_one, gfDouble_xor hc (poisonSym_lt p 1), share]
  rw [show (rsCheck (rsData d i)).2 = gfMul (xorAll (rsData d i) ^^^ xorAll ((rsData d i).zipIdx.map (fun x => gfMul x.1 (alpha (x.2 + 2))))) 0xF4
    from rfl]
  generalize xorAll (rsData d i) = a, xorAll ((rsData d i).zipIdx.map _) = b, gfDouble (poisonSym p 1) = y at div ⊢
  generalize gfMul (a ^^^ b) 0xF4 = c at div ⊢
  calc a ^^^ c ^^^ y ^^^ (gfDouble c ^^^ y ^^^ b) = (c ^^^ gfDouble c) ^^^ (a ^^^ b) ^^^ (y ^^^ y) := by ac_rfl
    _ = 0 := by rw [div]; simp

theorem codeSym_lt (d : Line) (p : Bool) (i : Nat) {j : Nat} (hj : j < 10) : codeSym d p i j < 256 := by
  unfold codeSym
  split
  · exact checkSym_lt d p i j
  · have hlen : j - 2 < (rsData d i).length := by simp [rsData]; omega
    rw [List.getD_eq_getElem _ _ hlen]
    exact rsData_lt (List.getElem_mem hlen)

/-- The encoder makes both syndromes zero, but for the poison's share: a read has those of its error (R220, R221). -/
theorem readSyndromes_lineCheck (d : Line) (e : BitVec 640) (p : Bool) {i : Nat} (hi : i < 8) :
    readSyndromes d (lineCheck d p) e i = syndromes e p i := by
  have read : ∀ f : Nat → Nat → Nat, (List.range 10).map (fun j => f (storedSym d (lineCheck d p) e i j) j) =
      (List.range 10).map (fun j => f (codeSym d p i j ^^^ errSym e i j) j) := fun f =>
    List.map_congr_left fun j hj => by rw [storedSym_eq d p e hi (List.mem_range.mp hj)]
  have linear : (List.range 10).map (fun j => gfMul (codeSym d p i j ^^^ errSym e i j) (alpha j)) =
      (List.range 10).map (fun j => gfMul (codeSym d p i j) (alpha j) ^^^ gfMul (errSym e i j) (alpha j)) :=
    List.map_congr_left fun j hj => gfMul_alpha_xor (codeSym_lt d p i (List.mem_range.mp hj)) (errSym_lt e i j) (List.mem_range.mp hj)
  rw [readSyndromes, read fun x _ => x, read fun x j => gfMul x (alpha j), linear, xorAll_map_xor, xorAll_map_xor, xorAll_codeSym,
    xorAll_gfMul_codeSym, Nat.zero_xor, Nat.xor_comm]
  rfl

/-! Errors of one device. -/

theorem testBit_bits_of {n : Nat} (v : BitVec n) (lo w i : Nat) : (bits v lo w).testBit i = (decide (i < w) && v.getLsbD (lo + i)) := by
  simp [bits, Nat.testBit_mod_two_pow, Nat.testBit_shiftRight, BitVec.getLsbD]

/-- An error pattern is its symbols. -/
theorem eq_zero_of_errSym {e : BitVec 640} (h : ∀ i j, i < 8 → j < 10 → errSym e i j = 0) : e = 0 := by
  apply BitVec.eq_of_getLsbD_eq
  intro n hn
  have sym : (errSym e (n / 80) (n / 8 % 10)).testBit (n % 8) = false := by
    rw [h _ _ (by omega) (by omega), Nat.zero_testBit]
  rw [errSym, testBit_bits_of, decide_eq_true (by omega), Bool.true_and] at sym
  rw [show n = 8 * (10 * (n / 80) + n / 8 % 10) + n % 8 by omega, sym]
  exact BitVec.getLsbD_zero.symm

theorem errSym_xor (a b : BitVec 640) (i j : Nat) : errSym (a ^^^ b) i j = errSym a i j ^^^ errSym b i j := by
  simp only [errSym, bits, BitVec.toNat_xor, Nat.shiftRight_xor_distrib, Nat.xor_mod_two_pow]

theorem testBit_of_lt_256 {v m : Nat} (hv : v < 256) (hm : 8 ≤ m) : v.testBit m = false :=
  Nat.testBit_lt_two_pow (hv.trans_le (Nat.pow_le_pow_right (by decide) hm : 2 ^ 8 ≤ 2 ^ m))

/-- The pattern with one symbol in error. -/
theorem errSym_single {v k i j : Nat} (hv : v < 256) (hk : k < 80) :
    errSym (BitVec.ofNat 640 (v <<< (8 * k))) i j = if 10 * i + j = k then v else 0 := by
  apply Nat.eq_of_testBit_eq
  intro m
  rw [errSym, testBit_bits_of, BitVec.getLsbD_ofNat, Nat.testBit_shiftLeft]
  rcases Nat.lt_or_ge m 8 with hm | hm
  · split
    case isTrue h => simp [h, hm, show 8 * k + m < 640 by omega]
    case isFalse h =>
      rw [Nat.zero_testBit]
      rcases Nat.lt_or_ge (10 * i + j) k with hlt | hge
      · simp [show ¬ 8 * k ≤ 8 * (10 * i + j) + m by omega]
      · simp [testBit_of_lt_256 hv (show 8 ≤ 8 * (10 * i + j) + m - 8 * k by omega)]
  · split
    · simp [testBit_of_lt_256 hv hm, Nat.not_lt.mpr hm]
    · simp [Nat.not_lt.mpr hm]

/-- Symbols taken off at one position of the codewords from the `n`th on. -/
theorem errSym_foldl {pos : Nat} (hpos : pos < 10) (ss : List (Nat × Nat)) (hss : ∀ x ∈ ss, x.1 < 256) (n : Nat) (hn : n + ss.length ≤ 8)
    (e : BitVec 640) {i j : Nat} (hj : j < 10) :
    errSym ((ss.zipIdx n).foldl (fun e x => e ^^^ BitVec.ofNat 640 (x.1.1 <<< (8 * (10 * x.2 + pos)))) e) i j =
      errSym e i j ^^^ (if j = pos ∧ n ≤ i then (ss.getD (i - n) (0, 0)).1 else 0) := by
  induction ss generalizing n e with
  | nil => simp
  | cons x ss ih =>
    rw [List.length_cons] at hn
    rw [List.zipIdx_cons, List.foldl_cons, ih (fun y hy => hss y (by simp [hy])) (n + 1) (by omega), errSym_xor,
      errSym_single (hss x (by simp)) (by omega), Nat.xor_assoc]
    congr 1
    rcases lt_trichotomy i n with h | rfl | h
    · simp [show ¬ n + 1 ≤ i by omega, show ¬ n ≤ i by omega, show ¬ 10 * i + j = 10 * n + pos by omega]
    · simp
    · obtain ⟨d, rfl⟩ := Nat.exists_eq_add_of_lt h
      simp [show n + d + 1 - n = d + 1 by omega, show n + d + 1 - (n + 1) = d by omega, show ¬ 10 * (n + d + 1) + j = 10 * n + pos by omega,
        show n + 1 ≤ n + d + 1 by omega, show n ≤ n + d + 1 by omega]

/-- The error of a device on a codeword, where only that device is in error. -/
def deviceErr (e : BitVec 640) (pos i : Nat) : Nat × Nat := (errSym e i pos, gfMul (errSym e i pos) (alpha pos))

/-- Syndromes with the poison's share counted in or taken off (R221). -/
def flipped (x : Nat × Nat) : Nat × Nat := (x.1 ^^^ 0xEE, x.2)

/-- The syndromes of a read with the poison's share taken off, where only the device at `pos` is in error. -/
def deviceSyns (e : BitVec 640) (pos : Nat) : List (Nat × Nat) := (List.range 8).map (deviceErr e pos)

/-- Only the symbols at one position of the codewords are in error. -/
def OnlyAt (e : BitVec 640) (pos : Nat) : Prop := ∀ i j, i < 8 → j < 10 → j ≠ pos → errSym e i j = 0

theorem xorAll_eq_zero {l : List Nat} (h : ∀ x ∈ l, x = 0) : xorAll l = 0 := by
  induction l with
  | nil => rfl
  | cons a l ih => rw [xorAll_cons, h a (by simp), ih fun x hx => h x (by simp [hx]), Nat.xor_zero]

theorem xorAll_append (l m : List Nat) : xorAll (l ++ m) = xorAll l ^^^ xorAll m := by
  rw [xorAll, List.foldl_append, foldl_xor]
  rfl

/-- A sum with one term is that term. -/
theorem xorAll_map_single {f : Nat → Nat} {pos n : Nat} (hpos : pos < n) (h : ∀ j < n, j ≠ pos → f j = 0) :
    xorAll ((List.range n).map f) = f pos := by
  induction n with
  | zero => omega
  | succ n ih =>
    rw [List.range_succ, List.map_append, xorAll_append, List.map_singleton, xorAll_cons, xorAll_nil, Nat.xor_zero]
    rcases Nat.lt_or_ge pos n with hlt | hge
    · rw [ih hlt fun j hj => h j (by omega), h n (by omega) (by omega), Nat.xor_zero]
    · obtain rfl : pos = n := by omega
      rw [xorAll_eq_zero, Nat.zero_xor]
      intro x hx
      obtain ⟨j, hj, rfl⟩ := List.mem_map.mp hx
      have := List.mem_range.mp hj
      exact h j (by omega) (by omega)

section
variable {e : BitVec 640} {pos k : Nat} (h : OnlyAt e pos) (hpos : pos < 10)

include h hpos

theorem syndromes_of_onlyAt {i : Nat} (hi : i < 8) (p : Bool) :
    syndromes e p i = if p then flipped (deviceErr e pos i) else deviceErr e pos i := by
  have s0 : xorAll ((List.range 10).map (errSym e i)) = errSym e i pos := xorAll_map_single hpos fun j hj hne => h i j hi hj hne
  have s1 : xorAll ((List.range 10).map (fun j => gfMul (errSym e i j) (alpha j))) = gfMul (errSym e i pos) (alpha pos) :=
    xorAll_map_single hpos fun j hj hne => by rw [h i j hi hj hne, gfMul_zero_left]
  rw [syndromes, s0, s1]
  cases p <;> simp [deviceErr, flipped]

theorem map_syndromes (p : Bool) : (List.range 8).map (syndromes e p) = if p then (deviceSyns e pos).map flipped else deviceSyns e pos := by
  have each : (List.range 8).map (syndromes e p) = (List.range 8).map (fun i => if p then flipped (deviceErr e pos i) else deviceErr e pos i) :=
    List.map_congr_left fun i hi => syndromes_of_onlyAt h hpos (List.mem_range.mp hi) p
  rw [each]
  cases p <;> simp [deviceSyns]

/-- With the syndromes taken off at its position, nothing of the device's error is left. -/
theorem fixAt_deviceSyns : fixAt e (deviceSyns e pos) pos = 0 := by
  refine eq_zero_of_errSym fun i j hi hj => ?_
  have small : ∀ x ∈ deviceSyns e pos, x.1 < 256 := fun x hx => by
    obtain ⟨i, -, rfl⟩ := List.mem_map.mp hx
    exact errSym_lt e i pos
  rw [fixAt, errSym_foldl hpos _ small 0 (by simp [deviceSyns]) e hj]
  by_cases hne : j = pos
  · subst hne
    simp [deviceSyns, deviceErr, hi]
  · simp [h i j hi hj hne, hne]

end

theorem flipped_flipped (x : Nat × Nat) : flipped (flipped x) = x := by simp [flipped]

/-- The decoder's two readings of the syndromes: as they are, and with the poison's share taken off (R222). -/
theorem map_flipped_flipped (l : List (Nat × Nat)) : (l.map flipped).map flipped = l := by
  simp [List.map_map, Function.comp_def, flipped_flipped]

theorem count_deviceSyns (e : BitVec 640) (k : Nat) : ((deviceSyns e (devPos k)).filter (fun x => decide (x.1 ≠ 0))).length =
    ((List.range 8).filter (fun i => decide (errSym e i (devPos k) ≠ 0))).length := by
  rw [deviceSyns, List.filter_map, List.length_map]
  rfl

/-- Syndromes that are zero in every codeword, and those that a device's errors give (R222). -/
def zeroSyns (l : List (Nat × Nat)) : Bool := l.all (fun x => decide (x.1 = 0 ∧ x.2 = 0))
def markFits (m : Nat) (l : List (Nat × Nat)) : Bool := l.all (fun x => decide (x.2 = gfMul x.1 (alpha (devPos m))))

theorem devPos_lt (k : Nat) : devPos k < 10 := Nat.mod_lt _ (by decide)

theorem devPos_inj {k m : Nat} (hk : k < 10) (hm : m < 10) (h : devPos k = devPos m) : k = m := by
  unfold devPos at h
  omega

theorem exists_errSym_ne_zero {e : BitVec 640} {pos : Nat} (h : OnlyAt e pos) (he : e ≠ 0) : ∃ i < 8, errSym e i pos ≠ 0 := by
  by_contra hne
  push Not at hne
  refine he (eq_zero_of_errSym fun i j hi hj => ?_)
  by_cases hj' : j = pos
  · exact hj' ▸ hne i hi
  · exact h i j hi hj hj'

theorem mem_deviceSyns {e : BitVec 640} {pos i : Nat} (hi : i < 8) : deviceErr e pos i ∈ deviceSyns e pos :=
  List.mem_map.mpr ⟨i, List.mem_range.mpr hi, rfl⟩

theorem zeroSyns_deviceSyns {e : BitVec 640} {pos : Nat} (h : OnlyAt e pos) (he : e ≠ 0) : zeroSyns (deviceSyns e pos) = false := by
  obtain ⟨i, hi, hne⟩ := exists_errSym_ne_zero h he
  rw [zeroSyns, List.all_eq_false]
  exact ⟨_, mem_deviceSyns hi, by simp [deviceErr, hne]⟩

/-- The marked device's own errors fit its mark, whatever they are; with the poison's share they do not. -/
theorem markFits_deviceSyns (e : BitVec 640) (k : Nat) : markFits k (deviceSyns e (devPos k)) = true := by
  simp [markFits, deviceSyns, deviceErr]

theorem gfMul_poison_ne_zero {pos : Nat} (hpos : pos < 10) : gfMul 0xEE (alpha pos) ≠ 0 := by
  rw [Ne, gfMul_alpha_eq_zero (by decide) hpos]
  decide

theorem markFits_flipped (e : BitVec 640) (k : Nat) : markFits k ((deviceSyns e (devPos k)).map flipped) = false := by
  rw [markFits, List.all_eq_false]
  refine ⟨_, List.mem_map_of_mem (mem_deviceSyns (i := 0) (by decide)), ?_⟩
  have share := gfMul_poison_ne_zero (devPos_lt k)
  rw [decide_eq_true_eq, flipped, deviceErr, gfMul_alpha_xor (errSym_lt _ _ _) (by decide) (devPos_lt k)]
  intro heq
  exact share (Nat.xor_right_inj.mp (heq.symm.trans (Nat.xor_zero _).symm))

section
variable {e : BitVec 640} {k : Nat} (h : OnlyAt e (devPos k)) (hk : k < 10)

/-- What hypothesis 3 asks of one codeword at a device (R222). -/
def fitsAt (m : Nat) (x : Nat × Nat) : Bool := decide (x.1 = 0 ∧ x.2 = 0) || (decide (x.1 ≠ 0) && decide (x.2 = gfMul x.1 (alpha (devPos m))))

theorem fitDevice_eq (ss : List (Nat × Nat)) : fitDevice ss = (List.range 10).find? (fun m => ss.all (fitsAt m)) := rfl

theorem fitsAt_deviceErr (i : Nat) : fitsAt k (deviceErr e (devPos k) i) = true := by
  by_cases h0 : errSym e i (devPos k) = 0 <;> simp [fitsAt, deviceErr, h0]

include hk

/-- A symbol in error fits no other device. -/
theorem eq_of_fitsAt {m i : Nat} (hm : m < 10) (h0 : errSym e i (devPos k) ≠ 0) (hfit : fitsAt m (deviceErr e (devPos k) i) = true) : m = k := by
  rw [fitsAt, Bool.or_eq_true, Bool.and_eq_true, decide_eq_true_eq, decide_eq_true_eq, decide_eq_true_eq] at hfit
  obtain hzero | ⟨-, eq⟩ := hfit
  · exact absurd hzero.1 h0
  · exact (devPos_inj hk hm (gfMul_alpha_inj (errSym_lt _ _ _) h0 (devPos_lt k) (devPos_lt m) eq)).symm

include h

theorem fitDevice_deviceSyns (he : e ≠ 0) : fitDevice (deviceSyns e (devPos k)) = some k := by
  obtain ⟨i, hi, h0⟩ := exists_errSym_ne_zero h he
  have hfit : ∀ m < 10, (deviceSyns e (devPos k)).all (fitsAt m) = true ↔ m = k := fun m hm =>
    ⟨fun ha => eq_of_fitsAt hk hm h0 (List.all_eq_true.mp ha _ (mem_deviceSyns hi)),
     fun hmk => by
      subst hmk
      rw [List.all_eq_true]
      intro x hx
      obtain ⟨j, -, rfl⟩ := List.mem_map.mp hx
      exact fitsAt_deviceErr j⟩
  rw [fitDevice_eq, List.find?_range_eq_some]
  refine ⟨(hfit k hk).mpr rfl, List.mem_range.mpr hk, fun m hm => ?_⟩
  rw [Bool.not_eq_true', ← Bool.not_eq_true, hfit m (by omega)]
  omega

omit h hk in
/-- A codeword without error, read as if the line's poison were the other, fits no device. -/
theorem fitDevice_flipped {i : Nat} (hi : i < 8) (h0 : errSym e i (devPos k) = 0) : fitDevice ((deviceSyns e (devPos k)).map flipped) = none := by
  rw [fitDevice_eq, List.find?_eq_none]
  intro m hm hall
  have := List.all_eq_true.mp hall _ (List.mem_map_of_mem (mem_deviceSyns hi))
  have share := (gfMul_poison_ne_zero (devPos_lt m)).symm
  simp [fitsAt, flipped, deviceErr, h0, share] at this

omit h hk in
theorem zeroSyns_flipped {i : Nat} (hi : i < 8) (h0 : errSym e i (devPos k) = 0) : zeroSyns ((deviceSyns e (devPos k)).map flipped) = false := by
  rw [zeroSyns, List.all_eq_false]
  exact ⟨_, List.mem_map_of_mem (mem_deviceSyns hi), by simp [flipped, deviceErr, h0]⟩

include h hk

theorem rsDecode_unmarked (p : Bool) (he : e ≠ 0) {i : Nat} (hi : i < 8) (h0 : errSym e i (devPos k) = 0) :
    rsDecode p e none =
      { poison := p, device := some k, words := ((List.range 8).filter (fun i => decide (errSym e i (devPos k) ≠ 0))).length } := by
  have z1 := zeroSyns_deviceSyns h he
  have z2 := zeroSyns_flipped (e := e) (k := k) hi h0
  have f1 := fitDevice_deviceSyns h hk he
  have f2 := fitDevice_flipped (e := e) (k := k) hi h0
  have fix := fixAt_deviceSyns h (devPos_lt k)
  have un : (fun x : Nat × Nat => (x.1 ^^^ 0xEE, x.2)) = flipped := rfl
  unfold zeroSyns at z1 z2
  unfold rsDecode
  rw [map_syndromes h (devPos_lt k), un]
  cases p
  · simp only [Bool.false_eq_true, if_false, z1, z2, f1, f2, fix, count_deviceSyns]
  · simp only [if_true, map_flipped_flipped, Bool.false_eq_true, if_false, z1, z2, f1, f2, fix, count_deviceSyns]

omit hk in
theorem rsDecode_marked (p : Bool) : rsDecode p e (some k) = { poison := p, rebuilt := true } := by
  have m1 := markFits_deviceSyns e k
  have m2 := markFits_flipped e k
  have fix := fixAt_deviceSyns h (devPos_lt k)
  have un : (fun x : Nat × Nat => (x.1 ^^^ 0xEE, x.2)) = flipped := rfl
  unfold markFits at m1 m2
  unfold rsDecode
  rw [map_syndromes h (devPos_lt k), un]
  cases p
  · simp only [Bool.false_eq_true, if_false, m1, if_true, fix]
  · simp only [if_true, map_flipped_flipped, Bool.false_eq_true, if_false, m1, m2, fix]

end

/-- Settles O46: the encoder's word has the poison's syndromes alone, and errors of one device fit that device and no other. -/
theorem chipFailure : Obligations.ChipFailure := by
  unfold Obligations.ChipFailure
  refine ⟨fun d e p i hi => readSyndromes_lineCheck d e p hi, fun e k p hk h => ⟨fun he => ?_, ?_, rsDecode_marked h p⟩⟩
  · rw [he]
    exact rsDecode_zero p
  · rintro he ⟨i, hi, h0⟩
    exact rsDecode_unmarked h hk p he hi h0

end Sys2Proof.Machine
end

section
/-! PROOF. Where DRAM lines of this device lie: its own range below, its share of the interleaved range above (R31, R219). -/

namespace Sys2Proof.Machine

theorem covers_iff {w : Word} {gib : Nat} : covers w gib = true ↔ bit w 31 = true ∧ bits w 0 15 ≤ gib ∧ gib ≤ bits w 16 15 := by
  simp [covers, and_assoc]

theorem self_lt (s : State) : self s < 4 := getF_lt s _

/-- The GiB of this device's own range that its DRAM base register names, and of the interleaved range (R30). -/
def ownBase (s : State) : Nat := bits (effWord s (R.DIR_DRNG (self s))) 0 15
def ilvBase (s : State) : Nat := bits (effWord s R.DIR_ILV) 0 15

/-- The bits of an address that choose the way, as many as name one (R31). -/
def wayBits (s : State) : Nat := if ilvWays s = 2 then 1 else 2

/-- The way an address is interleaved to (R31). -/
def ilvWay (s : State) (pa : Nat) : Nat :=
  if ilvWays s = 2 then ((pa >>> 12) ^^^ (pa >>> 21)) % 2 else 2 * (((pa >>> 13) ^^^ (pa >>> 22)) % 2) + ((pa >>> 12) ^^^ (pa >>> 21)) % 2

theorem ilvDevice_eq (s : State) (pa : Nat) : ilvDevice s pa = ilvMap s (ilvWay s pa) := rfl

theorem ilvWays_eq (s : State) : ilvWays s = 2 ∨ ilvWays s = 4 := by
  unfold ilvWays
  split <;> simp

theorem ilvWay_lt (s : State) (pa : Nat) : ilvWay s pa < ilvWays s := by
  unfold ilvWay
  rcases ilvWays_eq s with h | h <;> rw [h] <;> simp <;> omega

/-- A DRAM address of this device lies in its own range, or in the interleaved range at a way of its own (R30, R31). -/
theorem route_own {s : State} {pa : Nat} (h : route s pa = some (.dram, self s)) :
    covers (effWord s (R.DIR_DRNG (self s))) (pa >>> 30) = true
    ∨ (covers (effWord s (R.DIR_DRNG (self s))) (pa >>> 30) = false ∧ covers (effWord s R.DIR_ILV) (pa >>> 30) = true
        ∧ ilvMap s (ilvWay s pa) = self s) := by
  unfold route at h
  split at h
  · simp at h
  split at h
  · split at h
    case h_1 d hd =>
      have hcov := List.find?_some hd
      obtain ⟨-, rfl⟩ : True ∧ d = self s := by simpa using h
      exact .inl hcov
    case h_2 hnone =>
      have hown := List.find?_eq_none.mp hnone (self s) (List.mem_range.mpr (self_lt s))
      split at h
      case isTrue hilv => exact .inr ⟨Bool.eq_false_iff.mpr hown, hilv, by simpa [ilvDevice_eq] using h⟩
      case isFalse => simp at h
  · split_ifs at h <;> simp at h

theorem laOf_own {s : State} {pa : Nat} (h : covers (effWord s (R.DIR_DRNG (self s))) (pa >>> 30) = true) :
    laOf s pa = pa - ownBase s * 0x40000000 := by
  rw [laOf]
  exact if_pos h

theorem laOf_ilv {s : State} {pa : Nat} (h : covers (effWord s (R.DIR_DRNG (self s))) (pa >>> 30) = false) :
    laOf s pa = ownSize s + (((pa - ilvBase s * 0x40000000) >>> (12 + wayBits s)) <<< 12) + pa % 0x1000 := by
  rw [laOf]
  exact if_neg (by rw [h]; exact Bool.false_ne_true)

/-- The own range's lines have the local addresses below its size. -/
theorem laOf_own_lt {s : State} {pa : Nat} (h : covers (effWord s (R.DIR_DRNG (self s))) (pa >>> 30) = true) :
    ownBase s * 0x40000000 ≤ pa ∧ laOf s pa < ownSize s := by
  obtain ⟨en, lo, hi⟩ := covers_iff.mp h
  rw [Nat.shiftRight_eq_div_pow] at lo hi
  rw [laOf_own h, ownSize, if_pos en]
  unfold ownBase
  omega

theorem ownSize_mod (s : State) : ownSize s % 64 = 0 := by
  rw [ownSize]
  split <;> omega

/-- The address bits that the way leaves out of the local address are those that the way gives back (R31, R219). -/
theorem eq_of_ilvWay_eq {s : State} {p q b : Nat} (hb : b * 0x40000000 ≤ p) (hb' : b * 0x40000000 ≤ q) (hway : ilvWay s p = ilvWay s q)
    (hhigh : (p - b * 0x40000000) >>> (12 + wayBits s) = (q - b * 0x40000000) >>> (12 + wayBits s)) : p / 4096 = q / 4096 := by
  unfold ilvWay at hway
  unfold wayBits at hhigh
  simp only [Nat.shiftRight_eq_div_pow, Nat.xor_mod_two_eq] at hway hhigh
  split at hway
  case isTrue h2 =>
    rw [if_pos h2] at hhigh
    norm_num at hway hhigh
    omega
  case isFalse h4 =>
    rw [if_neg h4] at hhigh
    norm_num at hway hhigh
    have high : p / 16384 = q / 16384 := by omega
    have bit21 : p / 2097152 = q / 2097152 := by omega
    have bit22 : p / 4194304 = q / 4194304 := by omega
    rw [bit21, bit22] at hway
    have bit13 : p / 8192 = q / 8192 := by omega
    omega

theorem laOf_own_inj {s : State} {p q : Nat} (hp : covers (effWord s (R.DIR_DRNG (self s))) (p >>> 30) = true)
    (hq : covers (effWord s (R.DIR_DRNG (self s))) (q >>> 30) = true) (h : laOf s p / 64 = laOf s q / 64) : p / 64 = q / 64 := by
  have := (laOf_own_lt hp).1
  have := (laOf_own_lt hq).1
  rw [laOf_own hp, laOf_own hq] at h
  omega

theorem ilvBase_le {s : State} {p : Nat} (h : covers (effWord s R.DIR_ILV) (p >>> 30) = true) : ilvBase s * 0x40000000 ≤ p := by
  have lo := (covers_iff.mp h).2.1
  rw [Nat.shiftRight_eq_div_pow] at lo
  unfold ilvBase
  omega

theorem laOf_ilv_inj {s : State} {p q : Nat} (hp : covers (effWord s (R.DIR_DRNG (self s))) (p >>> 30) = false)
    (hq : covers (effWord s (R.DIR_DRNG (self s))) (q >>> 30) = false) (cp : covers (effWord s R.DIR_ILV) (p >>> 30) = true)
    (cq : covers (effWord s R.DIR_ILV) (q >>> 30) = true) (hway : ilvWay s p = ilvWay s q) (h : laOf s p / 64 = laOf s q / 64) : p / 64 = q / 64 := by
  have hmod := ownSize_mod s
  rw [laOf_ilv hp, laOf_ilv hq, Nat.shiftLeft_eq, Nat.shiftLeft_eq] at h
  have hpage := eq_of_ilvWay_eq (ilvBase_le cp) (ilvBase_le cq) hway (by omega)
  omega

/-- An address of the own range and one of the interleaved range have different local lines. -/
theorem laOf_own_ne_ilv {s : State} {p q : Nat} (hp : covers (effWord s (R.DIR_DRNG (self s))) (p >>> 30) = true)
    (hq : covers (effWord s (R.DIR_DRNG (self s))) (q >>> 30) = false) : laOf s p / 64 ≠ laOf s q / 64 := by
  have hlt := (laOf_own_lt hp).2
  have hmod := ownSize_mod s
  rw [laOf_ilv hq, Nat.shiftLeft_eq]
  omega

/-- The two lines of a granule differ in bit 6 alone, which chooses the subchannel (R219). -/
theorem cellOf_granule (s : State) {la : Nat} (h : la % 128 = 0) :
    cellOf s la = { cellOf s (la + 64) with sub := 0 } ∧ (cellOf s (la + 64)).sub = 1 := by
  have high : ∀ n, (la + 64) >>> (7 + n) = la >>> (7 + n) := fun n => by
    rw [Nat.shiftRight_add, Nat.shiftRight_add]
    congr 1
    rw [Nat.shiftRight_eq_div_pow, Nat.shiftRight_eq_div_pow]
    omega
  have sub0 : (la >>> 6) % 2 = 0 := by rw [Nat.shiftRight_eq_div_pow]; omega
  have sub1 : ((la + 64) >>> 6) % 2 = 1 := by rw [Nat.shiftRight_eq_div_pow]; omega
  have ch0 := high 0
  have ch10 : (la + 64) >>> 17 = la >>> 17 := high 10
  rw [Nat.add_zero] at ch0
  simp only [cellOf, sub0, sub1, ch0, ch10, high, and_self]

/-- Settles O48: the own range lies below the interleaved share, and the way that an address is interleaved to gives back the bits that the share
leaves out. -/
theorem dramPlacement : Obligations.DramPlacement := by
  unfold Obligations.DramPlacement
  refine ⟨fun s k l inj hk hl h => ?_, fun s la h => cellOf_granule s h⟩
  have lines : k.toNat * 64 / 64 = l.toNat * 64 / 64 := by
    rcases route_own hk with ok | ⟨nk, ck, dk⟩ <;> rcases route_own hl with ol | ⟨nl, cl, dl⟩
    · exact laOf_own_inj ok ol h
    · exact absurd h (laOf_own_ne_ilv ok nl)
    · exact absurd h.symm (laOf_own_ne_ilv ol nk)
    · exact laOf_ilv_inj nk nl ck cl (inj _ _ (ilvWay_lt s _) (ilvWay_lt s _) (dk.trans dl.symm)) h
  exact BitVec.eq_of_toNat_eq (by omega)

end Sys2Proof.Machine
end

section
/-! PROOF. A message in sequence at a port or on a link: what the link layer takes, and what the protocol layer does with it (R48, R53–R64, R113). -/

namespace Sys2Proof.Machine

variable {s : State} {p : Fin 6} {l : Fin 3} {f : Flit}

/-- The machine right after the link layer has taken a flit in sequence. -/
def taken (s : State) (side : Side) (f : Flit) : State := push (setLnk s side (heard (lnkOf s side) f)) (.egress side)

@[simp] theorem heard_rxSeq (k : Lnk) (f : Flit) : (heard k f).rxSeq = (k.rxSeq + 1) % 256 := by simp [heard]
@[simp] theorem heard_room (k : Lnk) (f : Flit) : (heard k f).room = k.room := by simp [heard]
@[simp] theorem heard_owed (k : Lnk) (f : Flit) : (heard k f).owed = k.owed := by simp [heard]
@[simp] theorem heard_txSeq (k : Lnk) (f : Flit) : (heard k f).txSeq = k.txSeq := by simp [heard]
@[simp] theorem heard_egress (k : Lnk) (f : Flit) : (heard k f).egress = k.egress := by simp [heard]
@[simp] theorem heard_nakked (k : Lnk) (f : Flit) : (heard k f).nakked = false := rfl

theorem port_push (s : State) (w : Flow) (q : Nat) : port (push s w) q = port s q := rfl
theorem vl_push (s : State) (w : Flow) (q : Nat) : vl (push s w) q = vl s q := rfl

theorem lnkOf_taken_ap (s : State) (p : Fin 6) (f : Flit) : (port (taken s (.ap p) f) p).lnk = heard (port s p).lnk f := by
  simp [taken, port_push, setLnk, lnkOf, port_setPort]

/-- A port whose agent has sent a request in sequence, with its credit used. -/
def requested (s : State) (p : Fin 6) (f : Flit) : Port :=
  { port s p with lnk := { heard (port s p).lnk f with room := ((port s p).lnk.room.1 - 1, (port s p).lnk.room.2) } }

/-- A request in sequence with room in the REQ queue reaches `portReq` (R53, R55). -/
theorem takeMsg_request (h1 : 1 ≤ fOpc f) (h2 : fOpc f ≤ 0x0F) (hd : opData (fOpc f) = decide (fType f = 2)) (hr : 0 < (port s p).lnk.room.1) :
    takeMsg (taken s (.ap p) f) (.ap p) f = portReq (push (setPort s p (requested s p f)) (.egress (.ap p))) p f := by
  have room : (port (taken s (.ap p) f) p).lnk.room = (port s p).lnk.room := by rw [lnkOf_taken_ap, heard_room]
  have x : port (taken s (.ap p) f) p = { port s p with lnk := heard (port s p).lnk f } := by
    simp [taken, port_push, setLnk, lnkOf, port_setPort]
  rw [takeMsg, portMsg_request ⟨h1, h2⟩ hd (by rw [room]; exact hr), x]
  congr 1
  simp [taken, requested, setPort, push, setLnk, lnkOf, nset_nset]

/-- The transaction that a request's flit makes (R55, R57). -/
def txnOf (x : Port) (f : Flit) : Txn :=
  ⟨x.arrivals, fTx f, fOpc f, fLine f, fMark f, fArg f, f.data, fPoison f, f.hdr, 0, 0, []⟩

theorem portReq_joins (htx : fTx f < getF s (F.APT_CAPS_MAXTX p)) (hfree : ∀ t ∈ (port s p).txns, t.tx ≠ fTx f) (hok : requestOk s f = true) :
    portReq s p f =
      push (setPort s p { port s p with txns := (port s p).txns ++ [txnOf (port s p) f], arrivals := (port s p).arrivals + 1 }) (.port p) := by
  have hno : ¬ ((port s p).txns.any (fun t => decide (t.tx = fTx f)) = true ∨ getF s (F.APT_CAPS_MAXTX p) ≤ fTx f) := by
    rintro (h | h)
    · obtain ⟨t, ht, e⟩ := List.any_eq_true.mp h
      exact hfree t ht (of_decide_eq_true e)
    · omega
  rw [portReq, if_neg hno, if_pos hok]
  rfl

theorem portReq_breaks (h : getF s (F.APT_CAPS_MAXTX p) ≤ fTx f ∨ ∃ t ∈ (port s p).txns, t.tx = fTx f) :
    portReq s p f = push s (.breach (.ap p) 3 f.hdr) := by
  rw [portReq, if_pos, apS_val]
  rcases h with h | ⟨t, ht, e⟩
  · exact .inr h
  · exact .inl (List.any_eq_true.mpr ⟨t, ht, decide_eq_true e⟩)

theorem port_requested (s : State) (p : Fin 6) (f : Flit) : port (push (setPort s p (requested s p f)) (.egress (.ap p))) p = requested s p f := by
  rw [port_push, port_setPort, if_pos rfl]

/-- Settles O8: the request's arrival changes the link state of its port and the queue it joins. -/
theorem agentRequestJoins : Obligations.AgentRequestJoins := by
  unfold Obligations.AgentRequestJoins
  intro s p f i harr hears h1 h2 hd hr htx hfree hok x t
  have joins := portReq_joins (s := push (setPort s p (requested s p (flitOn f (.ap p)))) (.egress (.ap p))) (p := p) (f := flitOn f (.ap p))
    htx (by rw [port_requested]; exact hfree) hok
  refine ⟨_, (requested s p (flitOn f (.ap p))).lnk, acts_hears harr hears ((takeMsg_request h1 h2 hd hr).trans joins), ?_, ?_⟩
  · rw [port_requested]
    simp [push, setPort, nset_nset]
    rfl
  · simp [requested]

/-- Settles O9: with the TXID taken or out of range, the port reports the breach in place of taking the request. -/
theorem agentRequestBreaks : Obligations.AgentRequestBreaks := by
  unfold Obligations.AgentRequestBreaks
  intro s p f i harr hears h1 h2 hd hr htx
  have breaks := portReq_breaks (s := push (setPort s p (requested s p (flitOn f (.ap p)))) (.egress (.ap p))) (p := p) (f := flitOn f (.ap p))
    (by rw [port_requested]; exact htx)
  refine ⟨_, acts_hears harr hears ((takeMsg_request h1 h2 hd hr).trans breaks), ?_, ?_, rfl⟩
  · rw [port_push, port_requested]
    rfl
  · simp

/-! A credit used and given back. -/

theorem lnkOf_setLnk (s : State) (side : Side) (k : Lnk) (w : Flow) : lnkOf (push (setLnk s side k) w) side = k := by
  cases side with
  | ap p => simp [lnkOf, setLnk, port_push, port_setPort]
  | vl l => simp [lnkOf, setLnk, vl_push, vl_setVl]

theorem setLnk_setLnk (s : State) (side : Side) (k k' : Lnk) (w : Flow) :
    setLnk (push (setLnk s side k) w) side k' = push (setLnk s side k') w := by
  cases side with
  | ap p => simp [setLnk, push, port, setPort, nset_nset]
  | vl l => simp [setLnk, push, vl, setVl, nset_nset]

/-- The link state after a message of class `c` in sequence, its credit used (R53). -/
def roomUsed (k : Lnk) (f : Flit) (c : Nat) : Lnk := { heard k f with room := setCr k.room c (cr k.room c - 1) }

/-- The same, its credit due back. -/
def cycled (k : Lnk) (f : Flit) (c : Nat) : Lnk := { roomUsed k f c with owed := setCr k.owed c (cr k.owed c + 1) }

theorem takeRoom_taken {side : Side} {c : Nat} (hc : c < 4) (hr : 0 < cr (lnkOf s side).room c) :
    takeRoom (taken s side f) side c = (push (setLnk s side (roomUsed (lnkOf s side) f c)) (.egress side), true) := by
  rw [takeRoom, taken, lnkOf_setLnk, setLnk_setLnk, heard_room]
  rw [if_neg (by omega), if_neg (by omega)]
  rfl

theorem giveBack_takeRoom {side : Side} {c : Nat} (hc : c < 4) (hr : 0 < cr (lnkOf s side).room c) :
    giveBack (takeRoom (taken s side f) side c).1 side c = push (setLnk s side (cycled (lnkOf s side) f c)) (.egress side) := by
  rw [takeRoom_taken hc hr, giveBack, lnkOf_setLnk, setLnk_setLnk]
  simp [roomUsed, cycled]

theorem cr_setCr {t : Nat × Nat × Nat × Nat} {c v : Nat} (hc : c < 4) : cr (setCr t c v) c = v := by
  interval_cases c <;> rfl

/-! Answers to forwards. -/

theorem opClass_answer {o : Nat} (h : (0x28 ≤ o ∧ o ≤ 0x2B) ∨ (0x30 ≤ o ∧ o ≤ 0x32)) : opClass o = some (if o < 0x30 then 2 else 3) := by
  unfold opClass
  rw [if_neg (by omega), if_neg (by omega), if_neg (by omega)]
  by_cases ho : o < 0x30
  · rw [if_pos (by omega), if_pos ho]
  · rw [if_neg (by omega), if_pos (by omega), if_neg ho]

/-- An answer from an agent, or a writeback that its home waits for, with its credit (R53, R55, R64). -/
theorem portMsg_answer {c : Nat} (hc : opClass (fOpc f) = some c) (h2 : 2 ≤ c) (h4 : c < 4) (hag : opFromAgent (fOpc f) = true)
    (hd : opData (fOpc f) = decide (fType f = 2)) (hroom : (takeRoom s (.ap p) c).2 = true) (hwb : ¬ (fOpc f = 0x32 ∧ bit (fArg f) 0 = false)) :
    portMsg s p f = portAnswer (giveBack (takeRoom s (.ap p) c).1 (.ap p) c) p f := by
  unfold portMsg
  simp only [hc, hag, hd, hroom, apS_val, Bool.true_eq_false, if_false, ne_eq, not_true]
  rw [if_neg (by omega), if_neg (by omega), if_neg hwb]

/-- It ends the forward that it answers, and goes to the slice that sent it. -/
theorem portAnswer_home {q : Fwd} (hq : (port s p).fwds.find? (fun q => decide (q.tx = fTx f) && !q.pulled) = some q) (hl : q.line = fLine f)
    (hp : q.peer = none) (ho : q.opc ≠ 0x25) :
    portAnswer s p f = push (retryFwd (setPort s p { port s p with fwds := dropOne (fun q => decide (q.tx = fTx f) && !q.pulled) (port s p).fwds }) p)
      (.answer q.slice { src := { dev := self s, port := p }, hdr := f.hdr, tx := q.tx, opc := fOpc f, line := fLine f, arg := fArg f,
                         data := dataSlot f, poison := fPoison f }) := by
  unfold portAnswer
  simp only [hq, hl, hp, ho, ne_eq, not_true, if_false, false_and]

/-- Where no forward waits for a TXID, a TXID that is free again calls none up. -/
theorem retryFwd_none {n : Nat} (h : (port s n).fwdWait = []) : retryFwd s n = s := by
  unfold retryFwd
  rw [h]

/-- Settles O10: the credit goes round, the forward's entry leaves, and its slice gets the answer. -/
theorem agentAnswerReachesHome : Obligations.AgentAnswerReachesHome := by
  unfold Obligations.AgentAnswerReachesHome
  intro s p f i q harr hears hop hd hr hwb hq hl hp ho c mine a v
  have hc4 : c < 4 := by dsimp only [c]; split <;> decide
  have hc2 : 2 ≤ c := by dsimp only [c]; split <;> decide
  have hag : opFromAgent (fOpc f) = true := by simp [opFromAgent]; omega
  have hv : v = push (setLnk s (.ap p) (cycled (port s p).lnk f c)) (.egress (.ap p)) := by
    dsimp only [v]
    rw [accept_in hears.2.2.2.1]
    exact giveBack_takeRoom hc4 hr
  have port_v : port v p = { port s p with lnk := cycled (port s p).lnk f c } := by
    rw [hv, port_push, setLnk, port_setPort, if_pos rfl]
  have e : takeMsg (taken s (.ap p) (flitOn f (.ap p))) (.ap p) (flitOn f (.ap p)) =
      push (retryFwd (setPort v p { port v p with fwds := dropOne mine (port v p).fwds }) p) (.answer q.slice a) := by
    have room := takeRoom_taken (s := s) (side := .ap p) (f := flitOn f (.ap p)) hc4 hr
    have cycle := giveBack_takeRoom (s := s) (side := .ap p) (f := flitOn f (.ap p)) hc4 hr
    rw [takeMsg, portMsg_answer (f := flitOn f (.ap p)) (c := c) (opClass_answer hop) hc2 hc4 hag hd (by rw [room]) hwb, cycle]
    rw [show push (setLnk s (.ap p) (cycled (lnkOf s (.ap p)) (flitOn f (.ap p)) c)) (.egress (.ap p)) = v from hv.symm]
    rw [portAnswer_home (f := flitOn f (.ap p)) (by rw [port_v]; exact hq) hl hp ho, hv]
    rfl
  refine ⟨acts_hears harr hears e, fun hw => ⟨_, acts_hears harr hears e, ?_⟩⟩
  rw [retryFwd_none (by rw [port_setPort, if_pos rfl, port_v]; exact hw), port_push, port_setPort, if_pos rfl, port_v]
  refine ⟨by rw [hv]; rfl, rfl, rfl, rfl, cr_setCr hc4, ?_⟩
  rw [hv]
  simp [setLnk]

/-! Messages on a Vrelcia link. -/

/-- What the protocol layer of a link does with a well-formed message within its credits (R53, R113, R368): `stale` where it carries another epoch,
`fresh` where it carries this one. -/
theorem linkMsg_of_room {c : Nat} (hc : opClass (fOpc f) = some c) (h0e : fOpc f ≠ 0x0E) (h2e : fOpc f ≠ 0x2E)
    (hd : opData (fOpc f) = decide (fType f = 2)) (hroom : (takeRoom s (.vl l) c).2 = true) :
    linkMsg s l f =
      (let r := (takeRoom s (.vl l) c).1
       let b := giveBack r (.vl l) c
       if rtFep f.route ≠ getF s F.FED_STAT_EPOCH then
         let v := setF r (F.FED_CNT_STALE_COUNT l) (bump 0xFFFFFFFF (getF r (F.FED_CNT_STALE_COUNT l)) 1)
         if c < 4 then giveBack v (.vl l) c else v
       else if c = 4 then r
       else if c = 0 then linkReq r l f
       else if c = 1 then linkFwd r l f
       else if fOpc f = 0x2C ∨ fOpc f = 0x2D then linkComplete b l f
       else if fOpc f = 0x32 ∧ bit (fArg f) 0 = false then linkWb b l f
       else if c = 2 ∨ fOpc f = 0x32 ∨ (vl b l).fwds.any (fun q => decide (q.tx = fTx f) && decide (q.line = fLine f)) = true then linkAnswer b l f
       else linkComplete b l f) := by
  have side : vlS l.val = .vl l := vlS_val l
  unfold linkMsg
  simp only [hc, side, h0e, h2e, hd, hroom, or_self, if_false, ne_eq, not_true, Bool.true_eq_false]

/-- A credit given back and a register field stored do not meet. -/
theorem giveBack_setF (s : State) (side : Side) (c : Nat) (g : Fld) (v : Nat) : giveBack (setF s g v) side c = setF (giveBack s side c) g v := by
  cases side <;> rfl

theorem bump_lt {cap n k : Nat} : bump cap n k < cap + 1 := by
  unfold bump
  split <;> omega

/-- The link after a flit of another epoch: its credit is due back, and it is counted (R368). -/
def staleCounted (s : State) (l : Fin 3) (f : Flit) (c : Nat) : State :=
  setF (push (setLnk s (.vl l) (cycled (vl s l).lnk f c)) (.egress (.vl l))) (F.FED_CNT_STALE_COUNT l)
    (bump 0xFFFFFFFF (getF s (F.FED_CNT_STALE_COUNT l)) 1)

theorem linkMsg_stale {c : Nat} (hc : opClass (fOpc f) = some c) (h4 : c < 4) (h0e : fOpc f ≠ 0x0E) (h2e : fOpc f ≠ 0x2E)
    (hd : opData (fOpc f) = decide (fType f = 2)) (hr : 0 < cr (vl s l).lnk.room c) (hep : rtFep f.route ≠ getF s F.FED_STAT_EPOCH) :
    linkMsg (taken s (.vl l) f) l f = staleCounted s l f c := by
  have room := takeRoom_taken (s := s) (side := .vl l) (f := f) h4 hr
  have back := giveBack_takeRoom (s := s) (side := .vl l) (f := f) h4 hr
  have same : getF (taken s (.vl l) f) F.FED_STAT_EPOCH = getF s F.FED_STAT_EPOCH := rfl
  rw [linkMsg_of_room hc h0e h2e hd (by rw [room])]
  dsimp only
  rw [same, if_pos hep, if_pos h4, giveBack_setF, back, room]
  rfl

/-- Settles O11: of the link only its numbers, its credits and the stale count move. -/
theorem staleFlitDiscarded : Obligations.StaleFlitDiscarded := by
  unfold Obligations.StaleFlitDiscarded
  intro s l f i c harr hears hc h4 h0e h2e hd hr hep
  have vls : vl (staleCounted s l f c) l = { vl s l with lnk := cycled (vl s l).lnk f c } := by
    show vl (setVl s l _) l = _
    rw [vl_setVl, if_pos rfl]
  refine ⟨staleCounted s l f c, acts_hears harr hears (linkMsg_stale hc h4 h0e h2e hd hr hep), ?_, ?_, ?_, rfl, rfl, ?_⟩
  · rw [staleCounted, getF_setF_same _ _ _ (le_refl 32)]
    exact Nat.mod_eq_of_lt bump_lt
  · exact OnlyBits.trans (t := push (setLnk s (.vl l) (cycled (vl s l).lnk f c)) (.egress (.vl l))) (OnlyBits.of_csr rfl) (OnlyBits.setF _ (by simp))
  · rw [vls]
    exact cr_setCr h4
  · rw [vls]
    exact ⟨rfl, rfl, rfl⟩

/-- Settles O12: the dispatch of the protocol layer, on the machine that the link layer leaves. -/
theorem linkRequestArrives : Obligations.LinkRequestArrives := by
  unfold Obligations.LinkRequestArrives
  intro s l f i c harr hears hc h0e h2e hd hr hep t r b
  have ht : t = taken s (.vl l) f := by
    dsimp only [t]
    rw [accept_in hears.2.2.2.1]
    rfl
  have hroom : (takeRoom t (.vl l) c).2 = true := by
    rw [ht]
    by_cases h4 : c < 4
    · rw [takeRoom_taken (side := .vl l) h4 (hr h4)]
    · rw [takeRoom, if_pos (by omega)]
  have same : getF t F.FED_STAT_EPOCH = getF s F.FED_STAT_EPOCH := by rw [ht]; rfl
  have hmsg := linkMsg_of_room hc h0e h2e hd hroom
  simp only [same, hep, ne_eq, not_true, if_false] at hmsg
  refine acts_hears harr hears ?_
  show linkMsg (taken s (.vl l) f) l f = _
  rw [← ht, hmsg]
  by_cases h4 : c = 4
  · rw [if_pos h4, if_pos h4, takeRoom, if_pos (by omega)]
  · rw [if_neg h4, if_neg h4]

end Sys2Proof.Machine
end

section
/-! PROOF. Flits that the link layer refuses or takes, and link control at a port and on a link (R45–R53, R64, R266, R369). -/

namespace Sys2Proof.Machine

variable {s : State} {side : Side} {f : Flit}

theorem recvMsg_inactive (h : ltssm s side ≠ 6) : recvMsg s side f = s := by
  rw [recvMsg, if_pos h]

theorem recvMsg_bad (h : ltssm s side = 6) (hb : goodCheck side f = false) : recvMsg s side f = badCheck s side := by
  rw [recvMsg, if_neg (by simp [h]), if_pos hb]

theorem recvMsg_out_of_turn (h : ltssm s side = 6) (hg : goodCheck side f = true) (hs : fSeq f ≠ (lnkOf s side).rxSeq) : recvMsg s side f = s := by
  rw [recvMsg, if_neg (by simp [h]), if_neg (by simp [hg]), accept_out hs]
  rfl

/-- In CLOCK-HOLD the message stands in the receive queue (R266). -/
theorem recvMsg_in_turn (h : ltssm s side = 6) (hg : goodCheck side f = true) (hs : fSeq f = (lnkOf s side).rxSeq) :
    recvMsg s side f = if getF s F.CLK_STAT_CST = 4 then push (taken s side f) (.rx side f) else takeMsg (taken s side f) side f := by
  rw [recvMsg, if_neg (by simp [h]), if_neg (by simp [hg]), accept_in hs]
  cases side <;> rfl

/-- A bad check value is counted; the first since the last flit in sequence is answered with a Nak (R49). -/
theorem badCheck_nakked (h : (lnkOf s side).nakked = true) :
    badCheck s side = setF (flag s (sideRegs side).crc) (sideRegs side).cntCrc (bump 0xFFFFFFFF (getF s (sideRegs side).cntCrc) 1) := by
  rw [badCheck, if_pos h]

theorem badCheck_first (h : (lnkOf s side).nakked = false) :
    badCheck s side = lctl (setLnk (setF (flag s (sideRegs side).crc) (sideRegs side).cntCrc (bump 0xFFFFFFFF (getF s (sideRegs side).cntCrc) 1)) side
      { lnkOf s side with nakked := true }) side 1 0 := by
  rw [badCheck, if_neg (by simp [h])]

/-- Settles O5: the three ways in which the link layer discards a message. -/
theorem messageOutOfTurn : Obligations.MessageOutOfTurn := by
  unfold Obligations.MessageOutOfTurn
  intro s side f i harr hmsg k g counted
  have arrives : ∀ {u}, recvMsg s side (flitOn f side) = u → Acts i s u := fun e => acts_arrives harr ((recvFlit_message hmsg).trans e)
  refine ⟨fun h => arrives (recvMsg_inactive h), fun h hb hn => arrives ?_, fun h hb hn => arrives ?_, fun h hg hs => arrives ?_⟩
  · rw [recvMsg_bad h (by simpa using hb), badCheck_nakked hn]
  · rw [recvMsg_bad h (by simpa using hb), badCheck_first hn]
    rfl
  · exact recvMsg_out_of_turn h (by simpa using hg) (by simpa using hs)

/-- Settles O6: the link layer's numbers move, and the message goes on, or waits in CLOCK-HOLD. -/
theorem messageInTurn : Obligations.MessageInTurn := by
  unfold Obligations.MessageInTurn
  intro s side f i harr hmsg h hg hs k t
  refine acts_arrives harr ((recvFlit_message hmsg).trans ?_)
  rw [recvMsg_in_turn h (by simpa using hg) (by simpa using hs)]
  cases side <;> rfl

/-- Settles O7: the upset joins its slice before the flit is taken. -/
theorem upsetRequestArrives : Obligations.UpsetRequestArrives := by
  unfold Obligations.UpsetRequestArrives
  exact fun s side f u => ⟨acts_after rfl rfl, acts_after rfl rfl⟩

/-! Link control. -/

theorem recvFlit_idle (h : f.ftype = 0) : recvFlit s side f = recvIdle s side (flitOn f side) := by
  unfold recvFlit
  simp only [flitOn_ftype, h]

theorem recvFlit_lctl (h : f.ftype = 3) : recvFlit s side f = recvLctl s side (flitOn f side) := by
  unfold recvFlit
  simp only [flitOn_ftype, h]

theorem checkedFlit_flitOn (s : State) (side : Side) (f : Flit) (t : State) :
    checkedFlit s side (flitOn f side) t =
      if goodCheck side f = false then badCheck s side else if ltssm s side = 6 ∧ (lnkOf s side).nakked = true then s else t := by
  rw [checkedFlit, flitOn_goodCheck]

theorem recvLctl_nak (h : f.opc = 1) : recvLctl s side f = recvNak s side f := by
  cases side <;> simp [recvLctl, h]

/-- The subtypes that no rule names, at a port and on a link (R51, R369). -/
def reservedOpc (side : Side) (n : Nat) : Prop :=
  match side with
  | .ap _ => n = 0 ∨ 3 < n
  | .vl _ => n = 0 ∨ n = 2 ∨ n = 3 ∨ 9 < n

theorem recvLctl_reserved (h : reservedOpc side f.opc) : recvLctl s side f = reservedLctl s side f := by
  cases side with
  | ap p =>
    have h : f.opc = 0 ∨ 3 < f.opc := h
    simp only [recvLctl]
    rw [if_neg (by omega), if_neg (by omega), if_neg (by omega)]
  | vl l =>
    have h : f.opc = 0 ∨ f.opc = 2 ∨ f.opc = 3 ∨ 9 < f.opc := h
    simp only [recvLctl]
    split
    case h_8 => rfl
    all_goals omega

/-- The agent's Cap recorded and answered (R51). -/
def capAnswered (s : State) (p : Fin 6) (f : Flit) : State := lctl (recordCap s p f) (.ap p) 3 0

theorem recvCap_eq (s : State) (p : Fin 6) (f : Flit) :
    recvCap s p f = if ltssm s (.ap p) ≠ 5 ∧ ltssm s (.ap p) ≠ 6 then s
      else checkedFlit s (.ap p) f (if badCap f = true then capFail (recordCap s p f) p f
        else if ltssm s (.ap p) = 6 then capAnswered s p f
        else tryActive (setLnk (capAnswered s p f) (.ap p) { lnkOf (capAnswered s p f) (.ap p) with capSeen := true }) p) := by
  unfold recvCap
  simp only [apS_val]
  rfl

theorem recvCapAck_eq (s : State) (p : Fin 6) (f : Flit) :
    recvCapAck s p f = if ltssm s (.ap p) ≠ 5 then s
      else checkedFlit s (.ap p) f (tryActive (setLnk s (.ap p) { lnkOf s (.ap p) with capAck := true }) p) := by
  unfold recvCapAck
  simp only [apS_val]

theorem recvLctl_cap {p : Fin 6} (h : f.opc = 2) : recvLctl s (.ap p) f = recvCap s p f := by
  simp [recvLctl, h]

theorem recvLctl_capAck {p : Fin 6} (h : f.opc = 3) : recvLctl s (.ap p) f = recvCapAck s p f := by
  simp [recvLctl, h]

theorem badCap_iff (f : Flit) : badCap f = true ↔
    (lineByte f.data 0).toNat ≠ 1 ∨ (lineByte f.data 5).toNat < 8 ∨ (lineByte f.data 6).toNat < 8 ∨ (lineByte f.data 7).toNat < 8 :=
  decide_eq_true_iff

/-- Settles O13: each subtype's own operation, behind the check value and the discard after a Nak. -/
theorem linkControlArrives : Obligations.LinkControlArrives := by
  unfold Obligations.LinkControlArrives
  intro s side f i harr k bad mute
  refine ⟨fun h0 => ?_, fun h3 ho => ?_, fun h3 ho => ?_, fun p hp h3 ho => ?_, fun p hp h3 ho => ?_⟩
  · refine acts_arrives harr ((recvFlit_idle h0).trans ?_)
    rw [recvIdle, checkedFlit_flitOn, flitOn_fAck]
  · refine acts_arrives harr ((recvFlit_lctl h3).trans ((recvLctl_nak (by simpa using ho)).trans ?_))
    rw [recvNak, checkedFlit_flitOn, flitOn_fAck]
  · have hres : reservedOpc side (flitOn f side).opc := by rw [flitOn_opc]; exact ho
    refine acts_arrives harr ((recvFlit_lctl h3).trans ((recvLctl_reserved hres).trans ?_))
    rw [reservedLctl, checkedFlit_flitOn, flitOn_hdr]
  · subst hp
    intro t v
    refine acts_arrives harr ((recvFlit_lctl h3).trans ((recvLctl_cap (by simpa using ho)).trans ?_))
    rw [recvCap_eq, checkedFlit_flitOn]
    simp only [badCap_iff, flitOn_data]
    rfl
  · subst hp
    refine acts_arrives harr ((recvFlit_lctl h3).trans ((recvLctl_capAck (by simpa using ho)).trans ?_))
    rw [recvCapAck_eq, checkedFlit_flitOn]
    by_cases h5 : ltssm s (.ap p) = 5
    · simp only [h5, ne_eq, not_true, if_false, show ¬ (5 = 6 ∧ (lnkOf s (.ap p)).nakked = true) by omega]
      rfl
    · rw [if_pos h5, if_pos h5]

/-- Settles O58: the flits up to the one named are those before it in the list and itself. -/
theorem ackReleases : Obligations.AckReleases := by
  refine fun k ack => ⟨fun pre f post hr hf hpre => ?_, fun hno => ?_⟩
  · have hany : k.replay.any (fun g => decide (g.seq = ack)) = true := List.any_eq_true.mpr ⟨f, by simp [hr], by simp [hf]⟩
    have hdrop : k.replay.dropWhile (fun g => decide (g.seq ≠ ack)) = f :: post := by
      rw [hr, List.dropWhile_append_of_pos (fun g hg => by simp [hpre g hg]), List.dropWhile_cons_of_neg (by simp [hf])]
    rw [takeAck, if_pos hany, hdrop, List.drop_succ_cons, List.drop_zero]
  · rw [takeAck, if_neg]
    simpa using hno

end Sys2Proof.Machine
end

section
/-! PROOF. What the arrival of a message changes at once: one relation between the machine before and after, kept by each operation of the link and
protocol layers (R45–R64, R113–R117, R368). -/

namespace Sys2Proof.Machine

/-- What a message's arrival on a side may change. -/
structure MsgFrame (side : Side) (s u : State) : Prop where
  parts : u = { s with csr := u.csr, ports := u.ports, vls := u.vls, slices := u.slices, fabric := u.fabric, out := u.out, evq := u.evq, pcie := u.pcie, can := u.can }
  dead : ∀ n, slice u n = { slice s n with dead := (slice u n).dead }
  regs : ∀ o, InBlock side o ∨ o ∈ signalRegs ∨ raw u o = raw s o

namespace MsgFrame

variable {side : Side} {s t u : State}

theorem refl (side : Side) (s : State) : MsgFrame side s s := ⟨rfl, fun _ => rfl, fun _ => .inr (.inr rfl)⟩

theorem trans (h1 : MsgFrame side s t) (h2 : MsgFrame side t u) : MsgFrame side s u := by
  refine ⟨?_, fun n => ?_, fun o => ?_⟩
  · have a := h1.parts
    have b := h2.parts
    rw [a] at b
    exact b
  · have a := h1.dead n
    have b := h2.dead n
    rw [a] at b
    exact b
  · rcases h2.regs o with h | h | h
    · exact .inl h
    · exact .inr (.inl h)
    · rw [h]
      exact h1.regs o

/-- A change of the ports, the links and the work to come. -/
theorem units (h : u = { s with ports := u.ports, vls := u.vls, fabric := u.fabric }) : MsgFrame side s u := by
  have hc : u.csr = s.csr := by rw [h]
  have hs : u.slices = s.slices := by rw [h]
  refine ⟨?_, fun n => ?_, fun o => .inr (.inr (raw_congr hc o))⟩
  · rw [h]
  · rw [slice_congr hs]

theorem told (h : Told s u) : MsgFrame side s u := by
  refine ⟨?_, fun n => ?_, fun o => ?_⟩
  · have a := h.1
    rw [a]
  · rw [slice_congr h.slices]
  · by_cases ho : ∀ f ∈ signalFlds, f.off ≠ o
    · exact .inr (.inr (h.raw ho))
    · push Not at ho
      obtain ⟨f, hf, rfl⟩ := ho
      refine .inr (.inl ?_)
      revert f
      decide

theorem wr {o : Nat} (w : Word) (h : InBlock side o ∨ o ∈ signalRegs) : MsgFrame side s (wr s o w) := by
  refine ⟨rfl, fun _ => rfl, fun q => ?_⟩
  by_cases hq : q = o
  · subst hq
    exact h.imp id .inl
  · exact .inr (.inr (raw_wr_ne s o q w hq))

theorem setF {f : Fld} (v : Nat) (h : InBlock side f.off ∨ f.off ∈ signalRegs) : MsgFrame side s (setF s f v) := wr _ h

theorem ite {c : Prop} [Decidable c] {a b : State} (h1 : MsgFrame side s a) (h2 : MsgFrame side s b) : MsgFrame side s (if c then a else b) := by
  split
  · exact h1
  · exact h2

theorem foldl {α : Type} {f : State → α → State} (l : List α) (h : ∀ a ∈ l, ∀ s, MsgFrame side s (f s a)) : ∀ s, MsgFrame side s (l.foldl f s) := by
  induction l with
  | nil => exact fun s => refl side s
  | cons a l ih => exact fun s => (h a (.head l) s).trans (ih (fun b hb => h b (.tail a hb)) _)

end MsgFrame

section
variable (side : Side) (s : State)

theorem msgFrame_push (w : Flow) : MsgFrame side s (push s w) := .units rfl
theorem msgFrame_pushFirst (w : Flow) : MsgFrame side s (pushFirst s w) := .units rfl
theorem msgFrame_setPort (p : Nat) (x : Port) : MsgFrame side s (setPort s p x) := .units rfl
theorem msgFrame_setVl (l : Nat) (x : Vl) : MsgFrame side s (setVl s l x) := .units rfl
theorem msgFrame_setLnk (at' : Side) (k : Lnk) : MsgFrame side s (setLnk s at' k) := by cases at' <;> exact .units rfl
theorem msgFrame_giveBack (at' : Side) (c : Nat) : MsgFrame side s (giveBack s at' c) := msgFrame_setLnk side s at' _
theorem msgFrame_egress (at' : Side) (m : Msg) : MsgFrame side s (egress s at' m) := by cases at' <;> exact .units rfl
theorem msgFrame_post (code unit : Nat) (d : List Byte) : MsgFrame side s (post s code unit d) := .told (told_post s code unit d)
theorem msgFrame_emit (o : Out) : MsgFrame side s (emit s o) := .told (Told.parts rfl)

theorem msgFrame_takeRoom (at' : Side) (c : Nat) : MsgFrame side s (takeRoom s at' c).1 := by
  rw [takeRoom]
  split
  · exact .refl side s
  · split
    · exact .refl side s
    · exact msgFrame_setLnk side s at' _

theorem msgFrame_taken (at' : Side) (f : Flit) : MsgFrame side s (taken s at' f) :=
  (msgFrame_setLnk side s at' _).trans (msgFrame_push side _ _)

/-- An agent of a peer that sends again leaves the dead masks (R66). -/
theorem msgFrame_agentBack (a : Agent) : MsgFrame side s (agentBack s a) := by
  refine ⟨rfl, fun n => ?_, fun o => .inr (.inr rfl)⟩
  have h := nget_map (fun _ (x : Slice) => if x.scans.contains a then x else { x with dead := x.dead.filter (fun b => decide (b ≠ a)) }) s.slices n
  have e : slice (agentBack s a) n = ((nget s.slices n).map
      (fun x : Slice => if x.scans.contains a then x else { x with dead := x.dead.filter (fun b => decide (b ≠ a)) })).getD {} := by
    rw [slice, ← h]
    rfl
  rw [e, slice]
  cases nget s.slices n with
  | none => rfl
  | some x =>
    rw [Option.map_some, Option.getD_some, Option.getD_some]
    split <;> rfl

/-- A failed access changes the registers that record it, and tells the masters (R39). -/
theorem msgFrame_failAccess (pa cause src : Nat) : MsgFrame side s (failAccess s pa cause src) := by
  rw [failAccess]
  refine MsgFrame.trans (.ite ?_ ?_) (msgFrame_post side _ _ _ _)
  · exact .setF _ (.inr (by decide))
  · exact (MsgFrame.wr _ (.inr (by decide))).trans ((MsgFrame.wr _ (.inr (by decide))).trans ((MsgFrame.setF _ (.inr (by decide))).trans
      ((MsgFrame.setF _ (.inr (by decide))).trans (.setF _ (.inr (by decide))))))

theorem msgFrame_failReq (r : HReq) (cause : Nat) : MsgFrame side s (failReq s r cause) := by
  unfold failReq
  have h (c : Prop) [Decidable c] : MsgFrame side s (if c then failAccess s (r.line.toNat * 64) cause (srcOf r) else s) :=
    .ite (msgFrame_failAccess side s _ _ _) (.refl side s)
  dsimp only
  split
  · exact (h _).trans (msgFrame_push side _ _)
  · exact (h _).trans (msgFrame_push side _ _)

theorem msgFrame_badCheck : MsgFrame side s (badCheck s side) := by
  have hc : InBlock side (sideRegs side).crc.off := by
    cases side <;> constructor <;> dsimp only [sideRegs, F.APT_ERR_CRC, F.FED_LERR_CRC, R.APT_ERR, R.FED_LERR] <;> omega
  have hn : InBlock side (sideRegs side).cntCrc.off := by
    cases side <;> constructor <;> dsimp only [sideRegs, F.APT_CNT_CRC_COUNT, F.FED_CNT_CRC_COUNT, R.APT_CNT_CRC, R.FED_CNT_CRC] <;> omega
  rw [badCheck]
  have h := (MsgFrame.setF (s := s) 1 (.inl hc)).trans (.setF (f := (sideRegs side).cntCrc) (bump 0xFFFFFFFF (getF s (sideRegs side).cntCrc) 1) (.inl hn))
  exact .ite h (h.trans ((msgFrame_setLnk side _ side _).trans (msgFrame_emit side _ _)))

theorem msgFrame_setTxn (p tx : Nat) (g : Txn → Txn) : MsgFrame side s (setTxn s p tx g) := msgFrame_setPort side s p _

theorem msgFrame_completeTxn (p : Nat) (t : Txn) (m : Msg) : MsgFrame side s (completeTxn s p t m) :=
  (msgFrame_setTxn side s p _ _).trans ((msgFrame_egress side _ _ _).trans (msgFrame_push side _ _))

theorem msgFrame_portFwd (p : Nat) (q : Fwd) (m : Msg) : MsgFrame side s (portFwd s p q m) := by
  unfold portFwd
  dsimp only
  split
  · exact (msgFrame_setPort side s p _).trans (msgFrame_egress side _ _ _)
  · exact msgFrame_setPort side s p _

theorem msgFrame_retryFwd (p : Nat) : MsgFrame side s (retryFwd s p) := by
  unfold retryFwd
  split
  · exact .refl side s
  · exact (msgFrame_setPort side s p _).trans (msgFrame_portFwd side _ _ _ _)

theorem msgFrame_answerBack (k : Nat × BitVec 64 × Nat) (m : Msg) : MsgFrame side s (answerBack s k m) :=
  .ite (msgFrame_egress side s _ _) (.refl side s)

theorem msgFrame_gatherDone (l tx : Nat) (a : LineAddr) : MsgFrame side s (gatherDone s l tx a) := by
  unfold gatherDone
  dsimp only
  split
  · exact .ite ((msgFrame_setVl side s l _).trans (msgFrame_answerBack side _ _ _)) (.refl side s)
  · exact .refl side s

theorem msgFrame_gatherOne (l tx p : Nat) (a : LineAddr) : MsgFrame side s (gatherOne s l tx p a) :=
  (msgFrame_setVl side s l _).trans (msgFrame_gatherDone side _ l tx a)

theorem msgFrame_toPort (p : Nat) (m : Msg) (n : Nat) (peer : Option (Nat × BitVec 64 × Nat)) (g : Bool) : MsgFrame side s (toPort s p m n peer g) := by
  unfold toPort
  split
  · exact msgFrame_portFwd side s p _ m
  · split
    · exact msgFrame_push side s _
    · exact .ite (.refl side s) (msgFrame_answerBack side s _ _)

theorem msgFrame_linkOut (l : Nat) (q : LFwd) (m : Msg) : MsgFrame side s (linkOut s l q m) := by
  unfold linkOut
  dsimp only
  split
  · exact (msgFrame_setVl side s l _).trans (msgFrame_egress side _ _ _)
  · exact msgFrame_setVl side s l _

theorem msgFrame_sendRemote (d : Nat) (r : HReq) : MsgFrame side s (sendRemote s d r) := by
  unfold sendRemote
  dsimp only
  split
  · exact msgFrame_failReq side s r 2
  · split
    · exact msgFrame_setVl side s _ _
    · exact (msgFrame_setVl side s _ _).trans (msgFrame_egress side _ _ _)

theorem msgFrame_retryWaiting (l : Nat) : MsgFrame side s (retryWaiting s l) := by
  unfold retryWaiting
  dsimp only
  split
  · exact (msgFrame_setVl side s l _).trans (msgFrame_linkOut side _ _ _ _)
  · exact (msgFrame_setVl side s l _).trans (msgFrame_sendRemote side _ _ _)
  · exact .refl side s

end

section
variable (s : State)

/-! At a port. -/

theorem msgFrame_noteBreach (p : Fin 6) (code : Nat) (h : BitVec 128) : MsgFrame (.ap p) s (noteBreach s p code h) := by
  refine MsgFrame.trans (.ite (.refl _ s) ((MsgFrame.setF code (.inl ?_)).trans (.foldl _ (fun k hk t => .setF _ (.inl ?_)) _))) (msgFrame_post _ _ _ _ _)
  · constructor <;> dsimp only [F.APT_ERR_VCODE, R.APT_ERR] <;> omega
  · have := List.mem_range.mp hk
    constructor <;> dsimp only [F.APT_ERR_HDR_HDR, R.APT_ERR_HDR] <;> omega

theorem msgFrame_portReq (p : Fin 6) (f : Flit) : MsgFrame (.ap p) s (portReq s p f) := by
  have hm : InBlock (.ap p) (F.APT_ERR_MALFORMED p).off := by constructor <;> dsimp only [F.APT_ERR_MALFORMED, R.APT_ERR] <;> omega
  refine .ite (msgFrame_push _ s _) (.ite ?_ ?_)
  · exact (msgFrame_setPort _ s p _).trans (msgFrame_push _ _ _)
  · exact (msgFrame_setPort _ s p _).trans ((msgFrame_noteBreach _ p 7 _).trans ((MsgFrame.setF 1 (.inl hm)).trans
      ((msgFrame_giveBack _ _ _ _).trans (msgFrame_completeTxn _ _ _ _ _))))

variable (side : Side)

theorem msgFrame_portAnswer (p : Nat) (f : Flit) : MsgFrame side s (portAnswer s p f) := by
  unfold portAnswer
  dsimp only
  split
  · exact msgFrame_push side s _
  next q hq =>
    refine .ite (msgFrame_push side s _) ?_
    have h (c : Prop) [Decidable c] (x y : Port) : MsgFrame side s (if c then setPort s p x else retryFwd (setPort s p y) p) :=
      .ite (msgFrame_setPort side s p x) ((msgFrame_setPort side s p y).trans (msgFrame_retryFwd side _ p))
    split
    · exact (h _ _ _).trans (msgFrame_push side _ _)
    · refine .ite (.ite ((h _ _ _).trans (msgFrame_gatherOne side _ _ _ _ _)) ?_) ((h _ _ _).trans (msgFrame_answerBack side _ _ _))
      exact (msgFrame_setPort side s p _).trans (msgFrame_push side _ _)

theorem msgFrame_portWb (p : Nat) (f : Flit) : MsgFrame side s (portWb s p f) := by
  unfold portWb
  dsimp only
  refine .ite (msgFrame_push side s _) ?_
  split
  · exact (msgFrame_setPort side s p _).trans (msgFrame_push side _ _)
  · exact .ite ((msgFrame_setPort side s p _).trans (msgFrame_push side _ _)) ((msgFrame_setPort side s p _).trans (msgFrame_sendRemote side _ _ _))
  · exact (msgFrame_setPort side s p _).trans (msgFrame_push side _ _)

theorem msgFrame_portMsg (p : Fin 6) (f : Flit) : MsgFrame (.ap p) s (portMsg s p f) := by
  unfold portMsg
  dsimp only
  split
  · exact msgFrame_push _ s _
  next c hc =>
    have h := msgFrame_takeRoom (.ap p) s (apS p) c
    have hg := h.trans (msgFrame_giveBack _ _ (apS p) c)
    refine .ite (msgFrame_push _ s _) (.ite (msgFrame_push _ s _) (.ite (msgFrame_push _ s _) (.ite h (.ite ?_ (.ite ?_ ?_)))))
    · exact h.trans (msgFrame_portReq _ p f)
    · exact hg.trans (msgFrame_portWb _ _ p f)
    · exact hg.trans (msgFrame_portAnswer _ _ p f)

/-! On a link. -/

theorem msgFrame_linkServe (l : Nat) (r : HReq) : MsgFrame side s (linkServe s l r) := by
  have hf := msgFrame_failReq side s r
  unfold linkServe
  dsimp only
  refine .ite (hf 2) ?_
  split
  · exact .ite (hf 1) (.ite (hf 4) (msgFrame_push side s _))
  · exact .ite (hf 1) (.ite (hf _) (msgFrame_push side s _))
  · exact hf 1

theorem msgFrame_linkReq (l : Nat) (f : Flit) : MsgFrame side s (linkReq s l f) := by
  unfold linkReq
  extract_lets w r x s1
  have h : MsgFrame side s s1 := by
    dsimp only [s1, x]
    split
    · exact (msgFrame_setVl side s l _).trans (.ite (.refl side _) (msgFrame_agentBack side _ _))
    · exact .refl side s
  clear_value s1 r
  exact h.trans (.ite (msgFrame_setVl side s1 l _) ((msgFrame_giveBack side s1 _ _).trans (msgFrame_linkServe _ side l r)))

theorem msgFrame_linkFwd (l : Nat) (f : Flit) : MsgFrame side s (linkFwd s l f) := by
  have hg := msgFrame_giveBack side s (vlS l) 1
  refine .ite ?_ (.ite (hg.trans (msgFrame_answerBack side _ _ _)) (hg.trans (msgFrame_toPort side _ _ _ _ _ _)))
  exact hg.trans ((msgFrame_setVl side _ l _).trans ((MsgFrame.foldl _ (fun p _ t => msgFrame_toPort side t p _ _ _ _) _).trans (msgFrame_gatherDone side _ _ _ _)))

theorem msgFrame_linkAnswer (l : Nat) (f : Flit) : MsgFrame side s (linkAnswer s l f) := by
  unfold linkAnswer
  dsimp only
  split
  · exact msgFrame_push side s _
  · exact .ite (msgFrame_push side s _) ((msgFrame_setVl side s l _).trans ((msgFrame_retryWaiting side _ l).trans (msgFrame_push side _ _)))

theorem msgFrame_linkDone (l : Nat) (f : Flit) (q : Remote) : MsgFrame side s (linkDone s l f q) := by
  unfold linkDone
  dsimp only
  have h (c : Prop) [Decidable c] (x : Vl) (pa cause src : Nat) : MsgFrame side s (if c then failAccess (retryWaiting (setVl s l x) l) pa cause src
      else retryWaiting (setVl s l x) l) :=
    have hr := (msgFrame_setVl side s l x).trans (msgFrame_retryWaiting side _ l)
    .ite (hr.trans (msgFrame_failAccess side _ _ _ _)) hr
  split
  · exact .ite ((h _ _ _ _ _).trans (msgFrame_push side _ _)) (h _ _ _ _ _)
  · exact (h _ _ _ _ _).trans (msgFrame_pushFirst side _ _)

theorem msgFrame_linkComplete (l : Nat) (f : Flit) : MsgFrame side s (linkComplete s l f) := by
  unfold linkComplete
  dsimp only
  split
  · exact (msgFrame_setPort side s _ _).trans ((msgFrame_retryFwd side _ _).trans (msgFrame_egress side _ _ _))
  · split
    · exact msgFrame_linkDone s side l f _
    · exact msgFrame_push side s _

theorem msgFrame_linkMsg (l : Fin 3) (f : Flit) : MsgFrame (.vl l) s (linkMsg s l f) := by
  have hs : InBlock (.vl l) (F.FED_CNT_STALE_COUNT l).off := by constructor <;> dsimp only [F.FED_CNT_STALE_COUNT, R.FED_CNT_STALE] <;> omega
  unfold linkMsg
  dsimp only
  split
  · exact msgFrame_push _ s _
  next c hc =>
    have h := msgFrame_takeRoom (.vl l) s (vlS l) c
    have hg := h.trans (msgFrame_giveBack _ _ (vlS l) c)
    refine .ite (msgFrame_push _ s _) (.ite (msgFrame_push _ s _) (.ite (msgFrame_push _ s _) (.ite ?_ (.ite h (.ite ?_ (.ite ?_ ?_))))))
    · have hb := h.trans (.setF (bump 0xFFFFFFFF (getF (takeRoom s (vlS l) c).1 (F.FED_CNT_STALE_COUNT l)) 1) (.inl hs))
      exact .ite (hb.trans (msgFrame_giveBack _ _ _ _)) hb
    · exact h.trans (msgFrame_linkReq _ _ l f)
    · exact h.trans (msgFrame_linkFwd _ _ l f)
    · exact .ite (hg.trans (msgFrame_linkComplete _ _ l f)) (.ite (hg.trans (msgFrame_push _ _ _)) (.ite (hg.trans (msgFrame_linkAnswer _ _ l f))
        (hg.trans (msgFrame_linkComplete _ _ l f))))

theorem msgFrame_takeMsg (f : Flit) : MsgFrame side s (takeMsg s side f) := by
  cases side with
  | ap p => exact msgFrame_portMsg s p f
  | vl l => exact msgFrame_linkMsg s l f

theorem msgFrame_recvMsg (f : Flit) : MsgFrame side s (recvMsg s side f) := by
  by_cases h6 : ltssm s side = 6
  · by_cases hg : goodCheck side f = true
    · by_cases hs : fSeq f = (lnkOf s side).rxSeq
      · rw [recvMsg_in_turn h6 hg hs]
        have ht := msgFrame_taken side s side f
        exact .ite (ht.trans (msgFrame_push side _ _)) (ht.trans (msgFrame_takeMsg _ side f))
      · rw [recvMsg_out_of_turn h6 hg hs]
        exact .refl side s
    · rw [recvMsg_bad h6 (by simpa using hg)]
      exact msgFrame_badCheck side s
  · rw [recvMsg_inactive h6]
    exact .refl side s

end

/-- Settles O59: every operation that a message's arrival runs through keeps the frame. -/
theorem messageRowsFrame : Obligations.MessageRowsFrame := by
  intro s side f i hi hm
  obtain ⟨parts, dead, regs⟩ := msgFrame_recvMsg s side (flitOn f side)
  exact ⟨_, acts_arrives hi (recvFlit_message hm), parts, dead, regs⟩

end Sys2Proof.Machine
end

section
/-! PROOF. The age order of sixteen ways (R74–R76). -/

namespace Sys2Proof.Machine

theorem getLsbD_setBit {n : Nat} (v : BitVec n) (i : Nat) {j : Nat} (hj : j < n) : (setBit v i).getLsbD j = (decide (i = j) || v.getLsbD j) := by
  rw [setBit, BitVec.getLsbD_or, BitVec.getLsbD_ofNat, Nat.one_shiftLeft, Nat.testBit_two_pow, Bool.or_comm]
  simp [hj]

theorem getLsbD_clrBit {n : Nat} (v : BitVec n) (i : Nat) {j : Nat} (hj : j < n) : (clrBit v i).getLsbD j = (!decide (i = j) && v.getLsbD j) := by
  rw [clrBit, BitVec.getLsbD_and, BitVec.getLsbD_not, BitVec.getLsbD_ofNat, Nat.one_shiftLeft, Nat.testBit_two_pow, Bool.and_comm]
  simp [hj]

theorem ageBit_eq_iff {i j k l : Nat} (hij : i < j) (hj : j < 16) (hkl : k < l) (hl : l < 16) : ageBit i j = ageBit k l ↔ i = k ∧ j = l :=
  ⟨ageBit_inj hij hj hkl hl, fun ⟨a, b⟩ => a ▸ b ▸ rfl⟩

/-- The bit of two ways, as making `i` older than `j` writes it. -/
theorem newer_clrBit (m : BitVec 120) {i j a b : Nat} (hij : i < j) (hj : j < 16) (ha : a < 16) (hb : b < 16) (hab : a ≠ b) :
    newer (clrBit m (ageBit i j)) a b = if a = i ∧ b = j then false else if a = j ∧ b = i then true else newer m a b := by
  rcases Nat.lt_or_gt_of_ne hab with h | h
  · rw [newer_of_lt _ h, newer_of_lt _ h, getLsbD_clrBit _ _ (ageBit_lt h hb)]
    simp only [ageBit_eq_iff hij hj h hb]
    grind
  · rw [newer_of_ge _ (Nat.le_of_lt h), newer_of_ge _ (Nat.le_of_lt h), getLsbD_clrBit _ _ (ageBit_lt h ha)]
    simp only [ageBit_eq_iff hij hj h ha]
    grind

/-- The bit of two ways, as making `i` newer than `j` writes it. -/
theorem newer_setBit (m : BitVec 120) {i j a b : Nat} (hij : i < j) (hj : j < 16) (ha : a < 16) (hb : b < 16) (hab : a ≠ b) :
    newer (setBit m (ageBit i j)) a b = if a = i ∧ b = j then true else if a = j ∧ b = i then false else newer m a b := by
  rcases Nat.lt_or_gt_of_ne hab with h | h
  · rw [newer_of_lt _ h, newer_of_lt _ h, getLsbD_setBit _ _ (ageBit_lt h hb)]
    simp only [ageBit_eq_iff hij hj h hb]
    grind
  · rw [newer_of_ge _ (Nat.le_of_lt h), newer_of_ge _ (Nat.le_of_lt h), getLsbD_setBit _ _ (ageBit_lt h ha)]
    simp only [ageBit_eq_iff hij hj h ha]
    grind

/-- Way `w` made newer than way `j`, or older. -/
def ageStep (w : Nat) (v : Bool) (m : BitVec 120) (j : Nat) : BitVec 120 :=
  if j < w then (bif v then clrBit m (ageBit j w) else setBit m (ageBit j w))
  else if w < j then (bif v then setBit m (ageBit w j) else clrBit m (ageBit w j))
  else m

theorem touchAge_eq (m : BitVec 120) (w : Nat) : touchAge m w = (List.range 16).foldl (ageStep w true) m := rfl
theorem oldestAge_eq (m : BitVec 120) (w : Nat) : oldestAge m w = (List.range 16).foldl (ageStep w false) m := rfl

variable {m : BitVec 120} {w a b : Nat}

theorem newer_ageStep (v : Bool) {j : Nat} (hj : j < 16) (hw : w < 16) (ha : a < 16) (hb : b < 16) (hab : a ≠ b) :
    newer (ageStep w v m j) a b = if a = w ∧ b = j then v else if b = w ∧ a = j then !v else newer m a b := by
  unfold ageStep
  rcases Nat.lt_trichotomy j w with h | h | h
  · rw [if_pos h]
    cases v
    · rw [cond_false, newer_setBit m h hw ha hb hab]
      grind
    · rw [cond_true, newer_clrBit m h hw ha hb hab]
      grind
  · rw [if_neg (by omega), if_neg (by omega), if_neg (by omega), if_neg (by omega)]
  · rw [if_neg (by omega), if_pos h]
    cases v
    · rw [cond_false, newer_clrBit m h hj ha hb hab]
      grind
    · rw [cond_true, newer_setBit m h hj ha hb hab]
      grind

theorem newer_foldl_ageStep (v : Bool) (hw : w < 16) (ha : a < 16) (hb : b < 16) (hab : a ≠ b) (l : List Nat) (hl : ∀ j ∈ l, j < 16) : ∀ m,
    newer (l.foldl (ageStep w v) m) a b = if a = w ∧ b ∈ l then v else if b = w ∧ a ∈ l then !v else newer m a b := by
  induction l with
  | nil => simp
  | cons j l ih =>
    intro m
    rw [List.foldl_cons, ih (fun i hi => hl i (.tail j hi)), newer_ageStep v (hl j (.head l)) hw ha hb hab]
    simp only [List.mem_cons]
    grind

theorem newer_touchAge (m : BitVec 120) (hw : w < 16) (ha : a < 16) (hb : b < 16) (hab : a ≠ b) :
    newer (touchAge m w) a b = if a = w then true else if b = w then false else newer m a b := by
  rw [touchAge_eq, newer_foldl_ageStep true hw ha hb hab _ (by simp)]
  simp [ha, hb]

theorem newer_oldestAge (m : BitVec 120) (hw : w < 16) (ha : a < 16) (hb : b < 16) (hab : a ≠ b) :
    newer (oldestAge m w) a b = if a = w then false else if b = w then true else newer m a b := by
  rw [oldestAge_eq, newer_foldl_ageStep false hw ha hb hab _ (by simp)]
  simp [ha, hb]

theorem ageStrict_touchAge (h : AgeStrict m) (hw : w < 16) : AgeStrict (touchAge m w) := by
  intro a b c ha hb hc hab hbc hac h1 h2
  rw [newer_touchAge m hw ha hb hab] at h1
  rw [newer_touchAge m hw hb hc hbc] at h2
  rw [newer_touchAge m hw ha hc hac]
  have := h a b c ha hb hc hab hbc hac
  grind

theorem ageStrict_oldestAge (h : AgeStrict m) (hw : w < 16) : AgeStrict (oldestAge m w) := by
  intro a b c ha hb hc hab hbc hac h1 h2
  rw [newer_oldestAge m hw ha hb hab] at h1
  rw [newer_oldestAge m hw hb hc hbc] at h2
  rw [newer_oldestAge m hw ha hc hac]
  have := h a b c ha hb hc hab hbc hac
  grind

theorem newer_total (m : BitVec 120) (h : a ≠ b) : newer m b a = !newer m a b := by
  rcases Nat.lt_or_gt_of_ne h with h | h
  · rw [newer_of_lt m h, newer_of_ge m (Nat.le_of_lt h)]
  · rw [newer_of_lt m h, newer_of_ge m (Nat.le_of_lt h), Bool.not_not]

theorem oldestOf_some {c : List Nat} {v : Nat} (h : oldestOf m c = some v) : v ∈ c ∧ ∀ j ∈ c, j ≠ v → newer m j v = true := by
  refine ⟨List.mem_of_find?_eq_some h, fun j hj hne => ?_⟩
  have hall : c.all (fun j => decide (j = v) || newer m j v) = true := List.find?_some (p := fun v => c.all (fun j => decide (j = v) || newer m j v)) h
  have := List.all_eq_true.mp hall j hj
  simpa [hne] using this

/-- A strict order has an oldest among any ways: the oldest of the rest, or the way before them. -/
theorem exists_oldest (h : AgeStrict m) : ∀ c : List Nat, c ≠ [] → (∀ j ∈ c, j < 16) → ∃ v ∈ c, ∀ j ∈ c, j = v ∨ newer m j v = true
  | [], h0, _ => absurd rfl h0
  | [x], _, _ => ⟨x, .head _, fun j hj => .inl (List.mem_singleton.mp hj)⟩
  | x :: y :: c, _, hc => by
    obtain ⟨v, hv, hold⟩ := exists_oldest h (y :: c) (by simp) (fun j hj => hc j (.tail x hj))
    have hx := hc x (.head _)
    have hv16 := hc v (.tail x hv)
    by_cases hxv : x = v ∨ newer m x v = true
    · exact ⟨v, .tail x hv, fun j hj => (List.mem_cons.mp hj).elim (fun e => e ▸ hxv) (hold j)⟩
    · push Not at hxv
      have hvx : newer m v x = true := by simp [newer_total m hxv.1, hxv.2]
      refine ⟨x, .head _, fun j hj => (List.mem_cons.mp hj).imp id (fun hj => ?_)⟩
      rcases hold j hj with rfl | hjv
      · exact hvx
      · by_cases hjv' : j = v
        · exact hjv' ▸ hvx
        · by_cases hjx : j = x
          · subst hjx
            exact absurd hjv hxv.2
          · exact h j v x (hc j (.tail x hj)) hv16 hx hjv' (Ne.symm hxv.1) hjx hjv hvx

/-- Settles O43: each step of touching a way writes the bit of one pair. -/
theorem ageOrder : Obligations.AgeOrder := by
  intro m w hw
  refine ⟨fun a b ha hb hab => ⟨newer_touchAge m hw ha hb hab, newer_oldestAge m hw ha hb hab⟩,
    fun h => ⟨ageStrict_touchAge h hw, ageStrict_oldestAge h hw⟩, fun c v => oldestOf_some, fun h c hne hc => ?_⟩
  obtain ⟨v, hv, hold⟩ := exists_oldest h c hne hc
  have hs : (oldestOf m c).isSome = true := List.find?_isSome.mpr ⟨v, hv, List.all_eq_true.mpr (fun j hj => by simpa using hold j hj)⟩
  exact Option.isSome_iff_exists.mp hs

end Sys2Proof.Machine
end

section
/-! PROOF. The round before ownership or a write (R101, R105), and what a grant of E or M leaves (R98, R112). -/

namespace Sys2Proof.Machine

/-- The holder a request asks for the line: none where it is the requester of an Upgrade (R101). -/
def askedHolder (r : HReq) (d : Dir) : Option Agent := if r.op = .upgrade ∧ d.hld = agentOf r.who then none else d.hld

/-- The forward to a holder. -/
def toHolder (h : Option Agent) (op : Nat) : List (Target × Nat) :=
  match h with
  | some b => [(Target.agent b, op)]
  | none => []

/-- The Invals to the sharers of this device. -/
def toLocal (s : State) (r : HReq) (d : Dir) : List (Target × Nat) :=
  ((localSharers s d).filter (fun b => (decide (some b ≠ agentOf r.who) || !(sparesOwn r.op d)) && decide (d.hld ≠ some b))).map (fun b => (Target.agent b, 0x22))

/-- The Invals to the peers in SHR. -/
def toPeers (d : Dir) : List (Target × Nat) := if d.dst = 3 then [] else (peerSharers d).map (fun l => (Target.peer l, 0x22))

/-- A round of a code, with an opcode for the holder. -/
def roundTo (s : State) (r : HReq) (d : Dir) (t op : Nat) : Option (Nat × List (Target × Nat)) :=
  if toHolder (askedHolder r d) op ++ toLocal s r d ++ toPeers d = [] then none else some (t, toHolder (askedHolder r d) op ++ toLocal s r d ++ toPeers d)

/-- The round of a request that takes the line: FwdOwn where the holder owns it (R101). -/
def takingRound (s : State) (r : HReq) (d : Dir) : Option (Nat × List (Target × Nat)) :=
  if decide (d.dst = 3 ∨ d.dst = 4) && (askedHolder r d).isSome then roundTo s r d 2 0x21 else roundTo s r d 3 0x22

variable {s : State} {n : Nat} {r : HReq} {d : Dir} {res : Bool}

theorem takingRound_sends : ∃ t, ∃ op ∈ [0x21, 0x22], takingRound s r d = roundTo s r d t op := by
  unfold takingRound
  split
  · exact ⟨2, 0x21, by simp, rfl⟩
  · exact ⟨3, 0x22, by simp, rfl⟩

theorem roundOf_rdOwn (h : r.op = .rdOwn) : roundOf s n r d res =
    if d.dst = 2 ∧ res = false ∧ (askedHolder r d).isSome then roundTo s r d 2 0x21 else takingRound s r d := by
  cases r
  cases h
  rfl

theorem roundOf_taking (h : r.op = .upgrade ∨ r.op = .atomHome ∨ r.op = .atomMem) : roundOf s n r d res = takingRound s r d := by
  cases r
  rcases h with h | h | h <;> cases h <;> rfl

theorem roundOf_itoM (h : r.op = .itoM) : roundOf s n r d res = if attrOf s r.line = .pmem then takingRound s r d else roundTo s r d 3 0x22 := by
  cases r
  cases h
  rfl

theorem roundOf_write (h : r.op = .write) : roundOf s n r d res = if wholeWrite r then roundTo s r d 3 0x22 else takingRound s r d := by
  cases r
  cases h
  rfl

theorem roundOf_dropping (h : r.op = .stashWr ∨ r.op = .maint 6) : roundOf s n r d res = roundTo s r d 3 0x22 := by
  cases r
  rcases h with h | h <;> cases h <;> rfl

/-- The requests that own or write a line send to the holder and to the sharers whatever the state of the entry. -/
theorem roundOf_owning (hop : r.op ∈ [HOp.rdOwn, .upgrade, .itoM, .write, .stashWr, .atomHome, .atomMem, .maint 6]) :
    ∃ t, ∃ op ∈ [0x21, 0x22], roundOf s n r d res = roundTo s r d t op := by
  have dropping : ∃ t, ∃ op ∈ [0x21, 0x22], roundTo s r d 3 0x22 = roundTo s r d t op := ⟨3, 0x22, by simp, rfl⟩
  have taking := takingRound_sends (s := s) (r := r) (d := d)
  simp only [List.mem_cons, List.not_mem_nil, or_false] at hop
  rcases hop with h | h | h | h | h | h | h | h
  · rw [roundOf_rdOwn h]
    split
    · exact ⟨2, 0x21, by simp, rfl⟩
    · exact taking
  · rw [roundOf_taking (.inl h)]
    exact taking
  · rw [roundOf_itoM h]
    split
    · exact taking
    · exact dropping
  · rw [roundOf_write h]
    split
    · exact dropping
    · exact taking
  · rw [roundOf_dropping (.inl h)]
    exact dropping
  · rw [roundOf_taking (.inr (.inl h))]
    exact taking
  · rw [roundOf_taking (.inr (.inr h))]
    exact taking
  · rw [roundOf_dropping (.inr h)]
    exact dropping

/-- A round is sent to all that it lists. -/
theorem roundTo_of_mem {t op : Nat} {e : Target × Nat} (he : e ∈ toHolder (askedHolder r d) op ++ toLocal s r d ++ toPeers d) :
    ∃ fs, roundTo s r d t op = some (t, fs) ∧ e ∈ fs :=
  ⟨_, if_neg (List.ne_nil_of_mem he), he⟩

theorem mem_toLocal (p : Fin 6) (hb : bit d.shr p = true) (ha : agentOf r.who ≠ some { dev := self s, port := p })
    (hh : d.hld ≠ some { dev := self s, port := p }) : (Target.agent { dev := self s, port := p }, 0x22) ∈ toLocal s r d := by
  have hs : p.val ∈ setBits 6 d.shr.toNat := List.mem_filter.mpr ⟨List.mem_range.mpr p.isLt, by simpa [bit, BitVec.getLsbD] using hb⟩
  exact List.mem_map.mpr ⟨_, List.mem_filter.mpr ⟨List.mem_map.mpr ⟨_, hs, rfl⟩, by simp [Ne.symm ha, hh]⟩, rfl⟩

theorem mem_toPeers (l : Fin 3) (hd : d.dst ≠ 3) (hb : bit d.shr (6 + l) = true) : (Target.peer l, 0x22) ∈ toPeers d := by
  rw [toPeers, if_neg hd]
  exact List.mem_map.mpr ⟨_, List.mem_filter.mpr ⟨List.mem_range.mpr l.isLt, hb⟩, rfl⟩

/-- Settles O56: the round of each of these requests lists the holder it asks, the sharers of this device and the peers in SHR. -/
theorem ownershipReachesHolders : Obligations.OwnershipReachesHolders := by
  intro s n r d res hop
  obtain ⟨t, op, hm, e⟩ := roundOf_owning (s := s) (n := n) (d := d) (res := res) hop
  rw [e]
  refine ⟨fun p hb ha hh => ⟨t, ?_⟩, fun l hd hb => ⟨t, ?_⟩, fun h hh ha => ?_⟩
  · exact roundTo_of_mem (by simp [mem_toLocal p hb ha hh])
  · exact roundTo_of_mem (by simp [mem_toPeers l hd hb])
  · have hk : askedHolder r d = some h := by
      rw [askedHolder, if_neg (fun c => ha (c.2.symm.trans hh)), hh]
    obtain ⟨fs, hfs, hmem⟩ := roundTo_of_mem (s := s) (r := r) (d := d) (t := t) (op := op) (e := (.agent h, op)) (by simp [hk, toHolder])
    exact ⟨t, fs, op, hfs, hmem, hm⟩

/-- An entry replaced by one of the same line is found as before. -/
theorem findDir_nset {x y : Slice} {k : Nat} {old d : Dir} (hk : nget x.dir k = some old) (hl : d.line = old.line) (hy : y.dir = nset x.dir k d)
    (l : LineAddr) : findDir y l = findDir x l := by
  refine congrArg (fun p => (keysOf (dsetOf l)).find? p) (funext fun j => ?_)
  rw [hy, nget_nset]
  by_cases hj : j = k
  · subst hj
    rw [if_pos rfl, hk]
    exact congrArg (fun a => decide (a = l)) hl
  · rw [if_neg hj]

theorem findDir_spec {x : Slice} {l : LineAddr} {k : Nat} (h : findDir x l = some k) : ∃ d, nget x.dir k = some d ∧ d.line = l := by
  have := List.find?_some h
  split at this
  next d hd => exact ⟨d, hd, of_decide_eq_true this⟩
  · cases this

section
variable {x y : Slice} {k : Nat} {old : Dir} (hk : nget x.dir k = some old) (hl : d.line = old.line) (hy : y.dir = nset x.dir k d)
include hk hl hy

theorem dirOf_nset_same (h : findDir x old.line = some k) : dirOf y old.line = d := by
  rw [dirOf, findDir_nset hk hl hy, h, hy]
  simp

theorem dirOf_nset_ne {l : LineAddr} (h : l ≠ old.line) : dirOf y l = dirOf x l := by
  rw [dirOf, dirOf, findDir_nset hk hl hy]
  cases hf : findDir x l with
  | none => rfl
  | some j =>
    obtain ⟨e, he, hel⟩ := findDir_spec hf
    have hj : j ≠ k := by
      rintro rfl
      rw [hk] at he
      cases he
      exact h hel.symm
    simp [hy, nget_nset, hj]

end

theorem mem_clearRsv (x : Slice) (l : LineAddr) (w : Who) (e : Who × BitVec 39) :
    e ∈ (clearRsv x l (some w)).rsv ↔ e ∈ x.rsv ∧ (e.2 = granule l → e.1 = w) := by
  simp only [clearRsv, List.mem_filter, Bool.or_eq_true, decide_eq_true_eq, Option.some.injEq]
  exact and_congr_right fun _ => ⟨fun h hg => h.resolve_left (fun n => n hg), fun h => Classical.or_iff_not_imp_left.mpr fun n => h (Decidable.not_not.mp n)⟩

/-- Where the line has an entry, the grant replaces it and clears the other reservations of the granule. -/
theorem grantOwn_eq {a : Agent} {k : Nat} {old : Dir} (hf : findDir (slice s n) r.line = some k) (hk : nget (slice s n).dir k = some old) :
    grantOwn s n r a = setSlice (setSlice s n (putDir (slice s n) k { dxOf s r.line a with trs := old.trs })) n
      (clearRsv (putDir (slice s n) k { dxOf s r.line a with trs := old.trs }) r.line (some r.who)) := by
  have e : setDir s n (dxOf s r.line a) = setSlice s n (putDir (slice s n) k { dxOf s r.line a with trs := old.trs }) := by
    unfold setDir
    have hf' : findDir (slice s n) (dxOf s r.line a).line = some k := hf
    simp only [hf', hk]
  rw [grantOwn, e, slice_setSlice, if_pos rfl]

/-- Settles O57: the new entry stands in the way of the old one, and every other entry is found where it was. -/
theorem oneOwner : Obligations.OneOwner := by
  intro s n r a h
  obtain ⟨k, hf⟩ := Option.isSome_iff_exists.mp h
  obtain ⟨old, hk, hold⟩ := findDir_spec hf
  have hs (j : Nat) : slice (grantOwn s n r a) j =
      if j = n then clearRsv (putDir (slice s n) k { dxOf s r.line a with trs := old.trs }) r.line (some r.who) else slice s j := by
    rw [grantOwn_eq hf hk, slice_setSlice, slice_setSlice]
    split <;> rfl
  have hd : (slice (grantOwn s n r a) n).dir = nset (slice s n).dir k { dxOf s r.line a with trs := old.trs } := by
    rw [hs, if_pos rfl]
    rfl
  refine ⟨?_, fun l hl => dirOf_nset_ne hk hold.symm hd (hold ▸ hl), fun e => ?_, fun j hj => by rw [hs, if_neg hj], ?_⟩
  · have hT : (dirOf (slice s n) r.line).trs = old.trs := by simp [dirOf, hf, hk]
    have hsame := dirOf_nset_same hk hold.symm hd (hold ▸ hf)
    rw [hold] at hsame
    rw [hT]
    exact hsame
  · rw [hs, if_pos rfl, mem_clearRsv]
    rfl
  · rw [grantOwn_eq hf hk]
    rfl

end Sys2Proof.Machine
end

section
/-! PROOF. What an atomic writes (R57, R58, R109). -/

namespace Sys2Proof.Machine

/-- A word of any width with a run of bits replaced. -/
theorem getLsbD_putBits_of {n : Nat} (v : BitVec n) (lo w x : Nat) {i : Nat} (hi : i < n) :
    (putBits v lo w x).getLsbD i = if lo ≤ i ∧ i < lo + w then x.testBit (i - lo) else v.getLsbD i := by
  have hm : ((2 ^ w - 1) <<< lo).testBit i = decide (lo ≤ i ∧ i < lo + w) := by
    rw [Nat.testBit_shiftLeft, Nat.testBit_two_pow_sub_one, ← Bool.decide_and]
    exact decide_eq_decide.mpr (by omega)
  have hx : ((x % 2 ^ w) <<< lo).testBit i = (decide (lo ≤ i ∧ i < lo + w) && x.testBit (i - lo)) := by
    rw [Nat.testBit_shiftLeft, Nat.testBit_mod_two_pow, ← Bool.and_assoc, ← Bool.decide_and]
    exact congrArg (· && _) (decide_eq_decide.mpr (by omega))
  rw [putBits, BitVec.getLsbD_or, BitVec.getLsbD_and, BitVec.getLsbD_not, BitVec.getLsbD_ofNat, BitVec.getLsbD_ofNat, hm, hx]
  by_cases h : lo ≤ i ∧ i < lo + w <;> simp [h, hi]

/-- What is read back of the bits replaced. -/
theorem ofNat_putBits {n : Nat} (v : BitVec n) {lo w : Nat} (x : Nat) (h : lo + w ≤ n) :
    BitVec.ofNat w ((putBits v lo w x).toNat >>> lo) = BitVec.ofNat w x := by
  refine BitVec.eq_of_getLsbD_eq fun i hi => ?_
  rw [BitVec.getLsbD_ofNat, BitVec.getLsbD_ofNat, Nat.testBit_shiftRight, BitVec.testBit_toNat, getLsbD_putBits_of _ _ _ _ (by omega)]
  simp [hi]

theorem lineByte_putBits (line : Line) {o z i : Nat} (x : Nat) (hi : i < 64) (h : i < o ∨ o + z ≤ i) :
    lineByte (putBits line (8 * o) (8 * z) x) i = lineByte line i := by
  refine BitVec.eq_of_getLsbD_eq fun j hj => ?_
  rw [lineByte, lineByte, BitVec.getLsbD_ofNat, BitVec.getLsbD_ofNat, Nat.testBit_shiftRight, Nat.testBit_shiftRight, BitVec.testBit_toNat,
    BitVec.testBit_toNat, getLsbD_putBits_of _ _ _ _ (by omega), if_neg (by omega)]

theorem bits_eq_toNat_ofNat {n : Nat} (v : BitVec n) (lo w : Nat) : bits v lo w = (BitVec.ofNat w (v.toNat >>> lo)).toNat := by
  rw [bits, BitVec.toNat_ofNat]

/-- The value of a bit vector as the model takes it for a signed number. -/
theorem signed_toNat {w : Nat} (v : BitVec w) (hw : 0 < w) : signed w v.toNat = v.toInt := by
  have h2 : 2 ^ w = 2 * 2 ^ (w - 1) := by rw [← Nat.pow_succ', Nat.succ_eq_add_one, Nat.sub_add_cancel hw]
  rw [signed, BitVec.toInt_eq_toNat_cond]
  by_cases h : v.toNat < 2 ^ (w - 1)
  · rw [if_pos h, if_pos (by omega)]
  · rw [if_neg h, if_neg (by omega)]
    norm_cast

theorem signed_le {w : Nat} (a b : BitVec w) (hw : 0 < w) : signed w a.toNat ≤ signed w b.toNat ↔ a.sle b = true := by
  rw [signed_toNat a hw, signed_toNat b hw, BitVec.sle, decide_eq_true_eq]

theorem atomSize_dvd (arg : BitVec 12) : atomSize arg ∈ [1, 2, 4, 8, 16] := by
  have h : bits arg 4 2 < 4 := Nat.mod_lt _ (by decide)
  unfold atomSize
  split
  · decide
  · generalize bits arg 4 2 = k at h
    interval_cases k <;> decide

/-- A well-formed operand lies within its line: its offset is a multiple of its size (R109). -/
theorem atomOff_add_atomSize_le {arg : BitVec 12} (h : atomOk arg = true) : atomOff arg + atomSize arg ≤ 64 := by
  have ho : atomOff arg < 64 := Nat.mod_lt _ (by decide)
  have hz := atomSize_dvd arg
  have hm : atomOff arg % atomSize arg = 0 := of_decide_eq_true (Bool.and_eq_true_iff.mp h).2
  generalize atomSize arg = z at hz hm
  simp only [List.mem_cons, List.not_mem_nil, or_false] at hz
  rcases hz with rfl | rfl | rfl | rfl | rfl <;> omega

/-- The value an atomic writes, on bit vectors of the operand's width (R109). -/
def atomVec {w : Nat} (op : Nat) (old v swap : BitVec w) : Option (BitVec w) :=
  match op with
  | 0 => some (old + v)
  | 1 => some v
  | 3 => some (if old.sle v = true then old else v)
  | 4 => some (if old.sle v = true then v else old)
  | 5 => some (if old.ule v = true then old else v)
  | 6 => some (if old.ule v = true then v else old)
  | 7 => some (old &&& v)
  | 8 => some (old ||| v)
  | 9 => some (old ^^^ v)
  | 2 => if old = v then some swap else none
  | 10 => if old = v then some swap else none
  | _ => none

theorem map_ofNat_ite {w : Nat} (c : Prop) [Decidable c] (a b : BitVec w) :
    (some (if c then a.toNat else b.toNat)).map (BitVec.ofNat w) = some (if c then a else b) := by
  split <;> simp

theorem map_ofNat_swap {w : Nat} (old v swap : BitVec w) :
    (if old.toNat = v.toNat then some swap.toNat else none).map (BitVec.ofNat w) = if old = v then some swap else none := by
  simp only [BitVec.toNat_inj]
  split <;> simp

theorem atomNew_toNat (op : Nat) {z : Nat} (old v swap : BitVec (8 * z)) (hz : 0 < z) :
    (atomNew op z old.toNat v.toNat swap.toNat).map (BitVec.ofNat (8 * z)) = atomVec op old v swap := by
  have hs : (signed (8 * z) old.toNat ≤ signed (8 * z) v.toNat) = (old.sle v = true) := propext (signed_le old v (by omega))
  have hu : (old.toNat ≤ v.toNat) = (old.ule v = true) := by rw [BitVec.ule, decide_eq_true_eq]
  unfold atomNew atomVec
  split
  case h_1 => simp [BitVec.toNat_add, ← BitVec.toNat_inj]
  case h_3 => exact map_ofNat_swap old v swap
  case h_4 => simp only [hs, map_ofNat_ite]
  case h_5 => simp only [hs, map_ofNat_ite]
  case h_6 => simp only [hu, map_ofNat_ite]
  case h_7 => simp only [hu, map_ofNat_ite]
  case h_11 => exact map_ofNat_swap old v swap
  all_goals simp [← BitVec.toNat_and, ← BitVec.toNat_or, ← BitVec.toNat_xor]

/-- Settles O49: the operand written, read back, is the value on bit vectors. -/
theorem atomicBytes : Obligations.AtomicBytes := by
  intro arg x line hok z o old v swap new r
  have hz : 0 < z := by
    have := atomSize_dvd arg
    simp only [List.mem_cons, List.not_mem_nil, or_false] at this
    omega
  have hoz : o + z ≤ 64 := atomOff_add_atomSize_le hok
  have hr2 : r.2 = (atomNew (aop arg) z old.toNat v.toNat swap.toNat).map (fun y => putBits line (8 * o) (8 * z) y) := by
    rw [← bits_eq_toNat_ofNat, ← bits_eq_toNat_ofNat]
    exact congrArg (fun y => (atomNew (aop arg) z (bits line (8 * o) (8 * z)) y _).map _) (bits_eq_toNat_ofNat x 0 (8 * z))
  have hnew : r.2.map new = atomVec (aop arg) old v swap := by
    rw [hr2, Option.map_map, ← atomNew_toNat _ old v swap hz]
    exact congrArg (fun g => Option.map g _) (funext fun y => ofNat_putBits line y (by omega))
  have writes {w : BitVec (8 * z)} (h : atomVec (aop arg) old v swap = some w) : ∃ t, r.2 = some t ∧ new t = w :=
    Option.map_eq_some_iff.mp (hnew.trans h)
  have swaps (h : atomVec (aop arg) old v swap = if old = v then some swap else none) :
      (old = v → ∃ t, r.2 = some t ∧ new t = swap) ∧ (old ≠ v → r.2 = none) :=
    ⟨fun e => writes (h.trans (if_pos e)), fun e => Option.map_eq_none_iff.mp (hnew.trans (h.trans (if_neg e)))⟩
  refine ⟨hoz, ?_, fun t ht i hi hout => ?_, fun h => writes (by rw [h]; rfl), fun h => writes (by rw [h]; rfl), fun h => writes (by rw [h]; rfl),
    fun h => writes (by rw [h]; rfl), fun h => writes (by rw [h]; rfl), fun h => writes (by rw [h]; rfl), fun h => writes (by rw [h]; rfl),
    fun h => writes (by rw [h]; rfl), fun h => writes (by rw [h]; rfl), fun h => h.elim (fun h => swaps (by rw [h]; rfl)) (fun h => swaps (by rw [h]; rfl))⟩
  · exact congrArg (BitVec.ofNat 512) (bits_eq_toNat_ofNat line (8 * o) (8 * z))
  · rw [hr2, Option.map_eq_some_iff] at ht
    obtain ⟨y, -, rfl⟩ := ht
    exact lineByte_putBits line y hi hout

end Sys2Proof.Machine
end

section
/-! PROOF. The algorithms of the CRC units (R356). -/

namespace Sys2Proof.Machine

/-- Settles O50, by running each algorithm over the text. -/
theorem crcAlgorithms : Obligations.CrcAlgorithms := by
  unfold Obligations.CrcAlgorithms
  decide +kernel

end Sys2Proof.Machine
end

section
/-! PROOF. What a write leaves in each field of a register (R6, R8). -/

namespace Sys2Proof.Machine

/-- A field of a word lies within it, and the fields of a row lie apart. -/
def fldsApart (fs : List FRow) : Bool :=
  fs.all (fun f => decide (f.lo + f.w ≤ 32)) && decide (fs.Pairwise (fun f g => f.lo + f.w ≤ g.lo ∨ g.lo + g.w ≤ f.lo))

/-- Every register of the layout has its fields apart (R385). -/
theorem rows_fldsApart (b : Blk) : (rowsOf b).all (fun r => fldsApart r.flds) = true := by
  cases b <;> decide +kernel

theorem fldsApart_of_rowAt {off : Nat} {r : RegRow} (h : rowAt off = some r) : fldsApart r.flds = true := by
  unfold rowAt at h
  split at h
  · cases h
  next b _ _ _ => exact List.all_eq_true.mp (rows_fldsApart b) r (List.mem_of_find?_eq_some h)

/-- What a field's access code makes of one of its bits, from the old bit and the written one. -/
def bitAfter (acc : Acc) (old w : Bool) : Bool :=
  match acc with
  | .rw => w
  | .rws => w
  | .w1c => old && !w
  | .ro => old
  | .wo => old

/-- A word after the write of one of its fields. -/
def mergeFld (w a : Word) (f : FRow) : Word :=
  match f.acc with
  | .rw => putBits a f.lo f.w (bits w f.lo f.w)
  | .rws => putBits a f.lo f.w (bits w f.lo f.w)
  | .w1c => a &&& ~~~(putBits 0 f.lo f.w (bits w f.lo f.w))
  | .ro => a
  | .wo => a

theorem merged_eq (r : RegRow) (old w : Word) : r.merged old w = r.flds.foldl (mergeFld w) old := rfl

section
variable {w a : Word} {f : FRow} {b : Nat} (hb : b < 32)
include hb

theorem getLsbD_mergeFld_in (h : f.lo ≤ b ∧ b < f.lo + f.w) : (mergeFld w a f).getLsbD b = bitAfter f.acc (a.getLsbD b) (w.getLsbD b) := by
  have hw : b - f.lo < f.w := by omega
  have hlo : f.lo + (b - f.lo) = b := by omega
  unfold mergeFld bitAfter
  cases f.acc <;> simp only [BitVec.getLsbD_and, BitVec.getLsbD_not, getLsbD_putBits _ _ _ _ _ hb, if_pos h, testBit_bits, hw, hlo, hb, decide_true, Bool.true_and]

theorem getLsbD_mergeFld_out (h : b < f.lo ∨ f.lo + f.w ≤ b) : (mergeFld w a f).getLsbD b = a.getLsbD b := by
  have hn : ¬ (f.lo ≤ b ∧ b < f.lo + f.w) := by omega
  unfold mergeFld
  cases f.acc <;> simp only [BitVec.getLsbD_and, BitVec.getLsbD_not, getLsbD_putBits _ _ _ _ _ hb, if_neg hn, hb]
  simp

theorem getLsbD_foldl_mergeFld_out (fs : List FRow) (h : ∀ f ∈ fs, b < f.lo ∨ f.lo + f.w ≤ b) :
    ∀ a : Word, (fs.foldl (mergeFld w) a).getLsbD b = a.getLsbD b := by
  induction fs with
  | nil => exact fun _ => rfl
  | cons f fs ih => exact fun a => (ih (fun g hg => h g (.tail f hg)) _).trans (getLsbD_mergeFld_out hb (h f (.head fs)))

/-- Of fields that lie apart, the one that a bit lies in decides it. -/
theorem getLsbD_foldl_mergeFld_in (fs : List FRow) (hp : fs.Pairwise (fun f g => f.lo + f.w ≤ g.lo ∨ g.lo + g.w ≤ f.lo)) (hf : f ∈ fs)
    (h : f.lo ≤ b ∧ b < f.lo + f.w) : ∀ a : Word, (fs.foldl (mergeFld w) a).getLsbD b = bitAfter f.acc (a.getLsbD b) (w.getLsbD b) := by
  induction fs with
  | nil => cases hf
  | cons g fs ih =>
    intro a
    obtain ⟨hg, hp'⟩ := List.pairwise_cons.mp hp
    rcases List.mem_cons.mp hf with rfl | hf'
    · rw [List.foldl_cons, getLsbD_foldl_mergeFld_out hb fs (fun k hk => by have := hg k hk; omega), getLsbD_mergeFld_in hb h]
    · rw [List.foldl_cons, ih hp' hf', getLsbD_mergeFld_out hb (by have := hg f hf'; omega)]

end

theorem bits_congr_of_bits {v x : Word} {lo w : Nat} (h : ∀ b, lo ≤ b → b < lo + w → v.getLsbD b = x.getLsbD b) : bits v lo w = bits x lo w := by
  refine Nat.eq_of_testBit_eq fun i => ?_
  rw [testBit_bits, testBit_bits]
  by_cases hi : i < w
  · rw [h (lo + i) (by omega) (by omega)]
  · simp [hi]

/-- Settles O41: the fields of a register lie apart, so each bit is decided by the access code of its own field. -/
theorem registerClasses : Obligations.RegisterClasses := by
  intro s off w r hr v old
  obtain ⟨hwid, hp⟩ := Bool.and_eq_true_iff.mp (fldsApart_of_rowAt hr)
  replace hp := of_decide_eq_true hp
  have h32 (f : FRow) (hf : f ∈ r.flds) : f.lo + f.w ≤ 32 := of_decide_eq_true (List.all_eq_true.mp hwid f hf)
  have hv : v = r.flds.foldl (mergeFld w) old := by
    have : mergedAt s off w = r.merged (raw s off) w := by rw [mergedAt, hr]
    exact (raw_wr_same s off _).trans this
  have hin (f : FRow) (hf : f ∈ r.flds) (b : Nat) (h1 : f.lo ≤ b) (h2 : b < f.lo + f.w) : v.getLsbD b = bitAfter f.acc (old.getLsbD b) (w.getLsbD b) := by
    rw [hv, getLsbD_foldl_mergeFld_in (by have := h32 f hf; omega) r.flds hp hf ⟨h1, h2⟩]
  refine ⟨fun f hf ha => ?_, fun f hf ha => ?_, fun f hf ha b h1 h2 => ?_, fun b hb hout => ?_, fun o ho => raw_wr_ne s off o _ ho, rfl⟩
  · refine bits_congr_of_bits fun b h1 h2 => ?_
    rw [hin f hf b h1 h2]
    rcases ha with ha | ha <;> rw [ha] <;> rfl
  · refine bits_congr_of_bits fun b h1 h2 => ?_
    rw [hin f hf b h1 h2]
    rcases ha with ha | ha <;> rw [ha] <;> rfl
  · rw [hin f hf b h1 h2, ha]
    rfl
  · rw [hv, getLsbD_foldl_mergeFld_out hb r.flds hout]

end Sys2Proof.Machine
end

section
/-! PROOF. Posting a record (R304–R309). -/

namespace Sys2Proof.Machine

variable {s t u : State}

/-! Raising a source writes its own bit, the fatal flag and the overflow flag of the EMCY queue, and no other register. -/

theorem foldl_csr {α : Type} (f : State → α → State) (h : ∀ s a, (f s a).csr = s.csr) (l : List α) : ∀ s : State, (l.foldl f s).csr = s.csr := by
  induction l with
  | nil => exact fun s => rfl
  | cons a r ih => exact fun s => (ih _).trans (h s a)

theorem notify_csr (s : State) (src p : Nat) : (notify s src p).csr = s.csr := by
  unfold notify
  split <;> rfl

theorem notifyAgents_csr (s : State) (src : Nat) : (notifyAgents s src).csr = s.csr := by
  unfold notifyAgents
  split
  · exact foldl_csr _ (fun s p => notify_csr s src p) _ _
  · split
    · exact foldl_csr _ (fun s p => notify_csr s src p) _ _
    · rfl

theorem notifyHost_csr (s : State) (src : Nat) : (notifyHost s src).csr = s.csr := by
  unfold notifyHost msix
  split
  · split <;> rfl
  · rfl

theorem raw_queueEmcy (b : List Byte) {o : Nat} (h : o ≠ R.CAN_ERR) : raw (queueEmcy s b) o = raw s o := by
  unfold queueEmcy
  split
  · rfl
  · exact raw_setF_ne s _ 1 o h

theorem raw_emcyFor (src : Nat) {o : Nat} (h : o ≠ R.CAN_ERR) : raw (emcyFor s src) o = raw s o := by
  unfold emcyFor
  split
  · exact raw_queueEmcy _ h
  · rfl

theorem raw_refreshErr {o : Nat} (h : o ≠ R.CAN_ERR) : raw (refreshErr s) o = raw s o := by
  unfold refreshErr
  dsimp only
  split
  · exact raw_queueEmcy _ h
  · rfl

/-- The directions of a source, and what follows at the EMCY queue, write no register but CAN_ERR (R310, R335). -/
theorem raw_signalled (src : Nat) {o : Nat} (h : o ≠ R.CAN_ERR) :
    raw (refreshErr (emcyFor (notifyHost (notifyAgents s src) src) src)) o = raw s o := by
  rw [raw_refreshErr h, raw_emcyFor src h, raw_congr (notifyHost_csr _ src), raw_congr (notifyAgents_csr s src)]

theorem irq_sets (s : State) {src : Nat} (h : src < 16) : (getF (irq s src) F.EVQ_IRQ_STAT_SRC).testBit src = true := by
  unfold irq
  dsimp only
  generalize (if src = 10 then flag s F.GEN_STAT_FATAL else s) = t
  split
  next ht => exact ht
  · rw [getF, raw_signalled src (by decide), ← getF, getF_setF_same t F.EVQ_IRQ_STAT_SRC _ (by decide), Nat.testBit_mod_two_pow, Nat.testBit_or,
      Nat.one_shiftLeft, Nat.testBit_two_pow_self]
    simp [F.EVQ_IRQ_STAT_SRC, h]

theorem raw_irq (s : State) (src : Nat) {o : Nat} (hs : o ≠ R.EVQ_IRQ_STAT) (hc : o ≠ R.CAN_ERR) :
    raw (irq s src) o = raw (if src = 10 then flag s F.GEN_STAT_FATAL else s) o := by
  unfold irq
  dsimp only
  generalize (if src = 10 then flag s F.GEN_STAT_FATAL else s) = t
  split
  · rfl
  · rw [raw_signalled src hc, raw_setF_ne t _ _ o hs]

theorem irq_fatal (s : State) : isF (irq s 10) F.GEN_STAT_FATAL = true := by
  rw [isF, getF, raw_irq s 10 (by decide) (by decide), if_pos rfl]
  exact isF_flag_same s F.GEN_STAT_FATAL (by decide) rfl

theorem irqOf_lt (code : Nat) : irqOf code < 16 := by
  unfold irqOf
  split <;> decide

/-! The sources a record may raise are set already: nothing goes out. -/

/-- Nothing went out, and the sources are as they were. -/
structure Silent (s u : State) : Prop where
  src : getF u F.EVQ_IRQ_STAT_SRC = getF s F.EVQ_IRQ_STAT_SRC
  out : u.out = s.out
  ports : u.ports = s.ports
  pcie : u.pcie = s.pcie
  can : u.can = s.can

theorem Silent.refl (s : State) : Silent s s := ⟨rfl, rfl, rfl, rfl, rfl⟩

theorem Silent.trans (h1 : Silent s t) (h2 : Silent t u) : Silent s u :=
  ⟨h2.src.trans h1.src, h2.out.trans h1.out, h2.ports.trans h1.ports, h2.pcie.trans h1.pcie, h2.can.trans h1.can⟩

theorem Silent.ite {c : Prop} [Decidable c] (h1 : Silent s t) (h2 : Silent s u) : Silent s (if c then t else u) := by
  split
  · exact h1
  · exact h2

theorem silent_wr (s : State) {o : Nat} (w : Word) (h : R.EVQ_IRQ_STAT ≠ o) : Silent s (wr s o w) := ⟨getF_wr_ne s o w _ h, rfl, rfl, rfl, rfl⟩

theorem silent_setF (s : State) {f : Fld} (v : Nat) (h : R.EVQ_IRQ_STAT ≠ f.off) : Silent s (setF s f v) := silent_wr s _ h

theorem silent_irq {src : Nat} (h : (getF s F.EVQ_IRQ_STAT_SRC).testBit src = true) : Silent s (irq s src) := by
  rw [irq_set h]
  exact .ite (silent_setF s 1 (by decide)) (.refl s)

theorem silent_evq (s : State) (e : Evq) : Silent s { s with evq := e } := ⟨rfl, rfl, rfl, rfl, rfl⟩

theorem silent_enterRaw (s : State) (r : List Word) : Silent s (enterRaw s r) := by
  unfold enterRaw
  split <;> exact ⟨rfl, rfl, rfl, rfl, rfl⟩

theorem silent_tellChiso (s : State) (code : Nat) (d : List Byte) (r : List Word) : Silent s (tellChiso s code d r) :=
  .ite ⟨rfl, rfl, rfl, rfl, rfl⟩ (.refl s)

section
variable (h0 : (getF s F.EVQ_IRQ_STAT_SRC).testBit 0 = true) (h2 : (getF s F.EVQ_IRQ_STAT_SRC).testBit 2 = true)
include h0 h2

theorem silent_enter (r : List Word) : Silent s (enter s r) := by
  have peak : Silent s (if getF (enterRaw s r) F.EVQ_FN_PEAK < (enterRaw s r).evq.recs.length then
      setF (enterRaw s r) F.EVQ_FN_PEAK (enterRaw s r).evq.recs.length else enterRaw s r) :=
    (silent_enterRaw s r).trans (.ite (silent_setF _ _ (by decide)) (.refl _))
  have first (c : Prop) [Decidable c] := Silent.ite (c := c) (peak.trans (silent_irq (src := 0) (by rw [peak.src]; exact h0))) peak
  have latched {t : State} (ht : Silent s t) (x : NMap (Nat × Nat)) :
      Silent s { floatLatch t floatEvq with evq := { (floatLatch t floatEvq).evq with last := x } } :=
    ht.trans (((silent_setF _ 1 (by decide)).trans ((silent_wr _ _ (by decide)).trans (silent_wr _ _ (by decide)))).trans (silent_evq _ _))
  have raised {t : State} (ht : Silent s t) : Silent s (irq t 2) := ht.trans (silent_irq (by rw [ht.src]; exact h2))
  unfold enter
  dsimp only
  exact .ite (raised (.ite ((latched (first _) _).trans (silent_enterRaw _ _)) ((latched (first _) _).trans (silent_evq _ _)))) (first _)

theorem silent_enterLost : Silent s (enterLost s) := by
  have h := (silent_evq s { s.evq with lost := 0 }).trans
    (silent_enter (s := { s with evq := { s.evq with lost := 0 } }) h0 h2 (record s 0x0100 0x4F (leBytes 4 s.evq.lost)))
  exact h.trans (silent_irq (by rw [h.src]; exact h0))

theorem silent_post (code unit : Nat) (d : List Byte) (hc : (getF s F.EVQ_IRQ_STAT_SRC).testBit (irqOf code) = true) : Silent s (post s code unit d) := by
  have noted := silent_evq s { s.evq with last := nset s.evq.last (irqOf code) (code, unit) }
  have lost (c : Prop) [Decidable c] := Silent.ite (c := c) (noted.trans (silent_enterLost h0 h2)) noted
  have told {t : State} (ht : Silent s t) (r : List Word) : Silent s (irq (tellChiso t code d r) (irqOf code)) := by
    have h : Silent s (tellChiso t code d r) := ht.trans (silent_tellChiso t code d r)
    exact h.trans (silent_irq (by rw [h.src]; exact hc))
  refine told (.ite ((lost _).trans (silent_enter ?_ ?_ _)) ((lost _).trans (silent_evq _ _))) _
  · rw [(lost _).src]
    exact h0
  · rw [(lost _).src]
    exact h2

end

/-! The queue. -/

/-- A queue with room, nothing waiting and a latched notice takes the record at its end. -/
theorem enter_appends (r : List Word) (hw : s.evq.waiters = []) (hl : isF s F.EVQ_FN_LATCHED = true) :
    (enter s r).evq = { s.evq with recs := s.evq.recs ++ [r] } := by
  have hraw : enterRaw s r = { s with evq := { s.evq with recs := s.evq.recs ++ [r] } } := by rw [enterRaw, hw]
  have hpeak (c : Prop) [Decidable c] (v : Nat) : isF (if c then setF (enterRaw s r) F.EVQ_FN_PEAK v else enterRaw s r) F.EVQ_FN_LATCHED = true := by
    rw [hraw]
    split
    · rw [isF, getF_setF_disjoint _ F.EVQ_FN_PEAK F.EVQ_FN_LATCHED _ rfl (by decide) (by decide)]
      exact hl
    · exact hl
  have hirq (c : Prop) [Decidable c] {t : State} (ht : isF t F.EVQ_FN_LATCHED = true) : isF (if c then irq t 0 else t) F.EVQ_FN_LATCHED = true := by
    split
    · rw [isF, getF, raw_irq t 0 (by decide) (by decide), if_neg (by decide)]
      exact ht
    · exact ht
  unfold enter
  dsimp only
  rw [if_neg (fun h => h.2.2 (hirq _ (hpeak _ _)))]
  simp only [apply_ite State.evq, irq_evq, ite_self, setF, wr_evq, hraw]

/-- Settles O40, from what entering a record does to the queue and what raising a source sends. -/
theorem eventsPosted : Obligations.EventsPosted := by
  intro s code unit detail u
  refine ⟨irq_sets _ (irqOf_lt code), fun h => ?_, fun h => ?_, fun hroom hlost hw hl => ?_, fun hc h0 h2 => ?_, told_post s code unit detail⟩
  · dsimp only [u]
    rw [post, h]
    exact irq_fatal _
  · have hn : ¬ s.evq.recs.length < 1024 := Nat.not_lt.mpr h
    have e : u.evq = { s.evq with last := nset s.evq.last (irqOf code) (code, unit), lost := bump 0xFFFF s.evq.lost 1 } := by
      dsimp only [u]
      rw [post, irq_evq, tellChiso_evq]
      simp only [hn, and_false, if_false]
    rw [e]
    refine ⟨rfl, ?_⟩
    show bump 0xFFFF s.evq.lost 1 = _
    unfold bump
    split <;> split <;> omega
  · have e : u.evq = { s.evq with last := nset s.evq.last (irqOf code) (code, unit), recs := s.evq.recs ++ [record s code unit detail] } := by
      dsimp only [u]
      rw [post, irq_evq, tellChiso_evq]
      simp only [hlost, ne_eq, not_true, false_and, if_false, hroom, if_true]
      exact enter_appends _ hw hl
    rw [e]
    exact ⟨rfl, hlost⟩
  · obtain ⟨-, ho, hp, hpc, hcan⟩ := silent_post h0 h2 code unit detail hc
    exact ⟨ho, hp, hpc, hcan⟩

end Sys2Proof.Machine
end

section
/-! PROOF. A relation that every step of telling the masters keeps is kept by posting a record (R304–R310, R335). -/

namespace Sys2Proof.Machine

/-- A relation between the machine before and after that holds of each thing telling the masters of an event may do. -/
structure Signals (Rel : State → State → Prop) : Prop where
  refl : ∀ s, Rel s s
  trans : ∀ {s t u}, Rel s t → Rel t u → Rel s u
  evq : ∀ (s : State) e, Rel s { s with evq := e }
  pcie : ∀ (s : State) x, Rel s { s with pcie := x }
  can : ∀ (s : State) x, Rel s { s with can := x }
  push : ∀ s w, Rel s (push s w)
  emit : ∀ s o, Rel s (emit s o)
  notify : ∀ s src q, q < 6 → Rel s (notify s src q)
  wr : ∀ (s : State) o w, o ∈ signalRegs → Rel s (wr s o w)

namespace Signals

variable {Rel : State → State → Prop} (h : Signals Rel)

theorem ite (_ : Signals Rel) {s t u : State} {c : Prop} [Decidable c] (h1 : Rel s t) (h2 : Rel s u) : Rel s (if c then t else u) := by
  split
  · exact h1
  · exact h2

include h

theorem foldl {α : Type} {f : State → α → State} (l : List α) (hf : ∀ a ∈ l, ∀ s, Rel s (f s a)) : ∀ s, Rel s (l.foldl f s) := by
  induction l with
  | nil => exact h.refl
  | cons a l ih => exact fun s => h.trans (hf a (.head l) s) (ih (fun b hb => hf b (.tail a hb)) _)

theorem rel_setF (s : State) (f : Fld) (v : Nat) (ho : f.off ∈ signalRegs) : Rel s (setF s f v) := h.wr s _ _ ho

theorem rel_notifyAgents (s : State) (src : Nat) : Rel s (notifyAgents s src) :=
  h.ite (h.foldl _ (fun q hq t => h.notify t src q (List.mem_range.mp hq)) s)
    (h.ite (h.foldl _ (fun q hq t => h.notify t src q (List.mem_range.mp (List.mem_filter.mp hq).1)) s) (h.refl s))

theorem rel_notifyHost (s : State) (src : Nat) : Rel s (notifyHost s src) :=
  h.ite (h.ite (h.pcie s _) (h.emit s _)) (h.refl s)

theorem rel_queueEmcy (s : State) (b : List Byte) : Rel s (queueEmcy s b) :=
  h.ite (h.can s _) (h.rel_setF s _ 1 (by decide))

theorem rel_emcyFor (s : State) (src : Nat) : Rel s (emcyFor s src) :=
  h.ite (h.rel_queueEmcy s _) (h.refl s)

theorem rel_refreshErr (s : State) : Rel s (refreshErr s) :=
  h.ite (h.trans (h.can s _) (h.rel_queueEmcy _ _)) (h.can s _)

theorem rel_irq (s : State) (src : Nat) : Rel s (irq s src) := by
  have h1 : Rel s (if src = 10 then flag s F.GEN_STAT_FATAL else s) := h.ite (h.rel_setF s _ 1 (by decide)) (h.refl s)
  have h2 (t : State) : Rel t (refreshErr (emcyFor (notifyHost (notifyAgents t src) src) src)) :=
    h.trans (h.rel_notifyAgents _ src) (h.trans (h.rel_notifyHost _ src) (h.trans (h.rel_emcyFor _ src) (h.rel_refreshErr _)))
  exact h.ite h1 (h.trans h1 (h.trans (h.rel_setF _ F.EVQ_IRQ_STAT_SRC _ (by decide)) (h2 _)))

theorem rel_enterRaw (s : State) (r : List Word) : Rel s (enterRaw s r) := by
  unfold enterRaw
  split
  · exact h.trans (h.evq s _) (h.push _ _)
  · exact h.evq s _

theorem rel_floatLatch (s : State) : Rel s (floatLatch s floatEvq) :=
  h.trans (h.rel_setF s F.EVQ_FN_LATCHED 1 (by decide)) (h.trans (h.wr _ R.EVQ_FN_T_LO _ (by decide)) (h.wr _ R.EVQ_FN_T_HI _ (by decide)))

theorem rel_enter (s : State) (r : List Word) : Rel s (enter s r) := by
  have peak (c : Prop) [Decidable c] (v : Nat) : Rel s (if c then setF (enterRaw s r) F.EVQ_FN_PEAK v else enterRaw s r) :=
    h.ite (h.trans (h.rel_enterRaw s r) (h.rel_setF _ F.EVQ_FN_PEAK v (by decide))) (h.rel_enterRaw s r)
  have first {t : State} (ht : Rel s t) (c : Prop) [Decidable c] : Rel s (if c then irq t 0 else t) := h.ite (h.trans ht (h.rel_irq t 0)) ht
  have latched {t : State} (ht : Rel s t) (e : Evq) : Rel s { floatLatch t floatEvq with evq := e } :=
    h.trans ht (h.trans (h.rel_floatLatch t) (h.evq _ e))
  have raised {t : State} (ht : Rel s t) : Rel s (irq t 2) := h.trans ht (h.rel_irq t 2)
  unfold enter
  dsimp only
  exact h.ite (raised (h.ite (h.trans (latched (first (peak _ _) _) _) (h.rel_enterRaw _ _)) (latched (first (peak _ _) _) _))) (first (peak _ _) _)

theorem rel_enterLost (s : State) : Rel s (enterLost s) :=
  h.trans (h.evq s _) (h.trans (h.rel_enter _ _) (h.rel_irq _ 0))

theorem rel_tellChiso (s : State) (code : Nat) (d : List Byte) (r : List Word) : Rel s (tellChiso s code d r) :=
  h.ite (h.push s _) (h.refl s)

theorem rel_post (s : State) (code unit : Nat) (d : List Byte) : Rel s (post s code unit d) := by
  have h1 (c : Prop) [Decidable c] (e : Evq) := h.ite (c := c) (h.trans (h.evq s e) (h.rel_enterLost _)) (h.evq s e)
  refine h.trans (h.ite (h.trans (h1 _ _) (h.rel_enter _ _)) (h.trans (h1 _ _) (h.evq _ _))) (h.trans (h.rel_tellChiso _ code d _) (h.rel_irq _ _))

end Signals

end Sys2Proof.Machine
end

section
/-! PROOF. A port declares its agent dead (R65, R130, R131). -/

namespace Sys2Proof.Machine

variable {s t u : State}

/-- What may happen beside a port that is down: the masters are told, and answers leave over links. -/
structure Deaf (p : Nat) (s u : State) : Prop where
  rest : u = { s with csr := u.csr, evq := u.evq, ports := u.ports, vls := u.vls, fabric := u.fabric, out := u.out, pcie := u.pcie, can := u.can }
  raws : ∀ o, o ∉ signalRegs → raw u o = raw s o
  grows : ∀ w ∈ s.fabric, w ∈ u.fabric
  port : isF s (F.APT_STAT_UP p) = false → port u p = port s p

theorem aptStat_notMem_signalRegs : ∀ p : Fin 6, R.APT_STAT p ∉ signalRegs := by decide

theorem aptStat_ne_enables : ∀ p : Fin 6, R.PMU_PD_STAT ≠ R.APT_STAT p ∧ R.CLK_EN_SLC_EFF ≠ R.APT_STAT p := by decide

namespace Deaf

theorem getF_eq {p : Nat} (h : Deaf p s u) {f : Fld} (ho : f.off ∉ signalRegs) : getF u f = getF s f := by
  rw [getF, h.raws _ ho, getF]

theorem up_eq {p : Fin 6} (h : Deaf p s u) : isF u (F.APT_STAT_UP p) = isF s (F.APT_STAT_UP p) := by
  rw [isF, isF, h.getF_eq (aptStat_notMem_signalRegs p)]

theorem slices_eq {p : Nat} (h : Deaf p s u) : u.slices = s.slices := by rw [h.rest]
theorem dram_eq {p : Nat} (h : Deaf p s u) : u.dram = s.dram := by rw [h.rest]
theorem cis_eq {p : Nat} (h : Deaf p s u) : u.cis = s.cis := by rw [h.rest]

theorem of_same {p : Nat} (hc : u.csr = s.csr) (hp : u.ports = s.ports) (hf : ∀ w ∈ s.fabric, w ∈ u.fabric)
    (h : u = { s with evq := u.evq, vls := u.vls, fabric := u.fabric, out := u.out, pcie := u.pcie, can := u.can }) : Deaf p s u := by
  refine ⟨?_, fun o _ => raw_congr hc o, hf, fun _ => by rw [Sys2Proof.Machine.port, hp, Sys2Proof.Machine.port]⟩
  rw [hc, hp]
  exact h

theorem refl (p : Nat) (s : State) : Deaf p s s := ⟨rfl, fun _ _ => rfl, fun _ h => h, fun _ => rfl⟩

theorem trans {p : Fin 6} (h1 : Deaf p s t) (h2 : Deaf p t u) : Deaf p s u := by
  refine ⟨?_, fun o ho => (h2.raws o ho).trans (h1.raws o ho), fun w hw => h2.grows w (h1.grows w hw), fun hu => ?_⟩
  · have a := h1.rest
    have b := h2.rest
    rw [a] at b
    exact b
  · rw [h2.port (h1.up_eq.trans hu), h1.port hu]

theorem push (p : Nat) (s : State) (w : Flow) : Deaf p s (push s w) := of_same rfl rfl (fun _ h => List.mem_append_left _ h) rfl

theorem emit (p : Nat) (s : State) (o : Out) : Deaf p s (emit s o) := of_same rfl rfl (fun _ h => h) rfl

theorem setVl (p : Nat) (s : State) (l : Nat) (x : Vl) : Deaf p s (setVl s l x) := of_same rfl rfl (fun _ h => h) rfl

theorem notify (p : Fin 6) (s : State) (src q : Nat) (hq : q < 6) : Deaf p s (notify s src q) := by
  unfold Sys2Proof.Machine.notify
  split
  next hu =>
    refine ⟨rfl, fun o _ => rfl, fun w hw => List.mem_append_left _ hw, fun hd => ?_⟩
    have hne : p.val ≠ (Fin.ofNat 6 q).val := by
      rw [Fin.val_ofNat, Nat.mod_eq_of_lt hq]
      rintro rfl
      rw [hd] at hu
      cases hu
    exact (port_setPort s _ p _).trans (if_neg hne)
  · exact refl p s

theorem signals (p : Fin 6) : Signals (Deaf p) where
  refl := refl p
  trans := trans
  evq _ _ := of_same rfl rfl (fun _ h => h) rfl
  pcie _ _ := of_same rfl rfl (fun _ h => h) rfl
  can _ _ := of_same rfl rfl (fun _ h => h) rfl
  push := push p
  emit := emit p
  notify := notify p
  wr s o w ho := ⟨rfl, fun q hq => raw_wr_ne s o q w (fun e => hq (e ▸ ho)), fun _ h => h, fun _ => rfl⟩

theorem answerBack (p : Fin 6) (s : State) (k : Nat × BitVec 64 × Nat) (m : Msg) : Deaf p s (answerBack s k m) :=
  (signals p).ite (of_same rfl rfl (fun _ h => List.mem_append_left _ h) rfl) (refl p s)

theorem gatherOne (p : Fin 6) (s : State) (l tx q : Nat) (a : LineAddr) : Deaf p s (gatherOne s l tx q a) := by
  have h (t : State) : Deaf p t (gatherDone t l tx a) := by
    unfold gatherDone
    dsimp only
    split
    · exact (signals p).ite ((setVl p t l _).trans (answerBack p _ _ _)) (refl p t)
    · exact refl p t
  exact (setVl p s l _).trans (h _)

end Deaf

/-! The dead notice at the slices. -/

/-- A slice with an agent in its dead mask (R130). -/
def deadMasked (x : Slice) (a : Agent) : Slice :=
  if x.dead.contains a then x else { x with dead := x.dead ++ [a], scans := x.scans ++ [a], rsv := x.rsv.filter (fun e => decide (e.1 ≠ .agent a)) }

theorem slice_deadNotice (s : State) (n k : Nat) (a : Agent) : slice (deadNotice s n a) k = if k = n then deadMasked (slice s n) a else slice s k := by
  unfold deadNotice deadMasked
  dsimp only
  split
  · split
    next h => rw [h]
    · rfl
  · exact slice_setSlice s n k _

theorem sliceUp_congr (h : u.csr = s.csr) (n : Nat) : sliceUp u n = sliceUp s n := by
  rw [sliceUp, sliceUp, pdOn, pdOn, slcEn, slcEn, getF_congr h, getF_congr h]

theorem deadNotice_parts (s : State) (n : Nat) (a : Agent) : deadNotice s n a = { s with slices := (deadNotice s n a).slices } := by
  unfold deadNotice
  dsimp only
  split <;> rfl

theorem noticed_parts (l : List Nat) (a : Agent) : ∀ s : State, l.foldl (fun s n => if sliceUp s n then deadNotice s n a else s) s =
    { s with slices := (l.foldl (fun s n => if sliceUp s n then deadNotice s n a else s) s).slices } := by
  induction l with
  | nil => exact fun _ => rfl
  | cons k l ih =>
    intro s
    have h1 : (if sliceUp s k then deadNotice s k a else s) = { s with slices := (if sliceUp s k then deadNotice s k a else s).slices } := by
      split
      · exact deadNotice_parts s k a
      · rfl
    have h2 := ih (if sliceUp s k then deadNotice s k a else s)
    rw [List.foldl_cons]
    generalize (if sliceUp s k then deadNotice s k a else s) = t at h1 h2 ⊢
    rw [h1] at h2
    exact h1 ▸ h2

/-- Each slice takes its own notice, whatever the others took. -/
theorem slice_noticed (a : Agent) (n : Nat) (l : List Nat) (hl : l.Nodup) : ∀ s : State,
    slice (l.foldl (fun s n => if sliceUp s n then deadNotice s n a else s) s) n =
      if n ∈ l ∧ sliceUp s n = true then deadMasked (slice s n) a else slice s n := by
  induction l with
  | nil => simp
  | cons k l ih =>
    intro s
    obtain ⟨hk, hl'⟩ := List.nodup_cons.mp hl
    have hc : (if sliceUp s k then deadNotice s k a else s).csr = s.csr := by
      split
      · rw [deadNotice_parts]
      · rfl
    have hs : slice (if sliceUp s k then deadNotice s k a else s) n = if n = k ∧ sliceUp s k = true then deadMasked (slice s n) a else slice s n := by
      by_cases hu : sliceUp s k = true
      · rw [if_pos hu, slice_deadNotice]
        by_cases hn : n = k
        · simp [hn, hu]
        · simp [hn]
      · simp [hu]
    rw [List.foldl_cons, ih hl', sliceUp_congr hc, hs]
    by_cases hn : n = k
    · subst hn
      simp [hk]
    · simp [hn]

theorem agentDead_parts (s : State) (a : Agent) : agentDead s a = { s with slices := (agentDead s a).slices } := noticed_parts (List.range 32) a s

/-! The port itself. -/

/-- The registers of a port whose agent is declared dead (R65). -/
def deadFlags (s : State) (p : Nat) : State :=
  flag (flag (setF (setF (setF s (F.APT_STAT_LTSSM p) 0) (F.APT_STAT_WIDTH p) 0) (F.APT_STAT_UP p) 0) (F.APT_STAT_DEAD p)) (F.APT_STAT_RECLAIM p)

/-- The port with its egress, its queue and its forwards gone (R65). -/
def deadPort (x : Port) : Port :=
  { x with txns := x.txns.filter (fun t => decide (t.place = 1)), fwds := [], fwdWait := [], lnk := { x.lnk with egress := [] }, peersDone := [], poisoned := 0 }

/-- The answer that a forward of the dead agent gets (R131). -/
def deadAnswer (me : Agent) (p : Nat) (s : State) (f : Fwd) : State :=
  match f.peer with
  | none => push s (.answer f.slice { src := me, tx := f.tx, opc := 0x28, line := f.line, dead := true })
  | some k => if f.gather then gatherOne s k.1 k.2.2 p f.line else s

/-- The port's own part of the declaration, up to the notices (R65, R131). -/
def deadAnswers (s : State) (p : Nat) : State :=
  ((port s p).fwds ++ (port s p).fwdWait.map (·.1)).foldl (deadAnswer { dev := self s, port := p } p)
    (((port s p).txns.filter (fun t => decide (t.place = 0 ∨ t.place = 2))).foldl (fun s t => post s 0x0201 (0x20 + p) (addrBytes t.line ++ b1 t.opc))
      (setPort (deadFlags s p) p (deadPort (port s p))))

theorem declareDead_eq (s : State) (p reason : Nat) (h : isF s (F.APT_STAT_DEAD p) = false) :
    declareDead s p reason = push (post (noticeAll (agentDead (deadAnswers s p) { dev := self s, port := p }) 2 (self s) p) 0x0202 (0x20 + p) (b1 reason)) (.port p) := by
  have hm : deadAnswer { dev := self s, port := p } p = fun s' f => match f.peer with
      | none => push s' (.answer f.slice { src := { dev := self s, port := p }, tx := f.tx, opc := 0x28, line := f.line, dead := true })
      | some k => if f.gather then gatherOne s' k.1 k.2.2 p f.line else s' := rfl
  rw [declareDead, if_neg (by simp [h]), deadAnswers, hm]
  rfl

/-- A field of a register apart from the one stored. -/
theorem getF_setF_apart (s : State) (o v : Nat) {lo w lo' w' : Nat} (h : lo' + w' ≤ lo ∨ lo + w ≤ lo') (h' : lo' + w' ≤ 32) :
    getF (setF s ⟨o, lo, w⟩ v) ⟨o, lo', w'⟩ = getF s ⟨o, lo', w'⟩ := getF_setF_disjoint s ⟨o, lo, w⟩ ⟨o, lo', w'⟩ v rfl h h'

section
variable (s : State) (p : Fin 6)

theorem raw_deadFlags {o : Nat} (h : o ≠ R.APT_STAT p) : raw (deadFlags s p) o = raw s o := by
  simp only [deadFlags, flag]
  rw [raw_setF_ne _ _ _ _ h, raw_setF_ne _ _ _ _ h, raw_setF_ne _ _ _ _ h, raw_setF_ne _ _ _ _ h, raw_setF_ne _ _ _ _ h]

theorem deadFlags_flags : isF (deadFlags s p) (F.APT_STAT_DEAD p) = true ∧ isF (deadFlags s p) (F.APT_STAT_RECLAIM p) = true
    ∧ getF (deadFlags s p) (F.APT_STAT_LTSSM p) = 0 ∧ getF (deadFlags s p) (F.APT_STAT_UP p) = 0 := by
  have hd (t : State) : getF (flag (flag t (F.APT_STAT_DEAD p)) (F.APT_STAT_RECLAIM p)) (F.APT_STAT_DEAD p) = 1 :=
    (getF_setF_apart _ _ 1 (by decide) (by decide)).trans (getF_setF_same _ _ 1 (by simp [F.APT_STAT_DEAD]))
  have hu (t : State) : getF (flag (flag (setF t (F.APT_STAT_UP p) 0) (F.APT_STAT_DEAD p)) (F.APT_STAT_RECLAIM p)) (F.APT_STAT_UP p) = 0 :=
    (getF_setF_apart _ _ 1 (by decide) (by decide)).trans ((getF_setF_apart _ _ 1 (by decide) (by decide)).trans
      (getF_setF_same _ _ 0 (by simp [F.APT_STAT_UP])))
  have hl (t : State) : getF (deadFlags t p) (F.APT_STAT_LTSSM p) = 0 :=
    (getF_setF_apart _ _ 1 (by decide) (by decide)).trans ((getF_setF_apart _ _ 1 (by decide) (by decide)).trans
      ((getF_setF_apart _ _ 0 (by decide) (by decide)).trans ((getF_setF_apart _ _ 0 (by decide) (by decide)).trans
      (getF_setF_same _ _ 0 (by simp [F.APT_STAT_LTSSM])))))
  refine ⟨?_, isF_flag_same _ _ (by simp [F.APT_STAT_RECLAIM]) rfl, hl s, hu _⟩
  rw [isF]
  exact decide_eq_true (hd _)
theorem deadFlags_slices : (deadFlags s p).slices = s.slices := rfl
theorem deadFlags_dram : (deadFlags s p).dram = s.dram := rfl
theorem deadFlags_cis : (deadFlags s p).cis = s.cis := rfl

theorem deaf_deadAnswer (me : Agent) (f : Fwd) : Deaf p s (deadAnswer me p s f) := by
  unfold deadAnswer
  split
  · exact .push p s _
  · exact (Deaf.signals p).ite (.gatherOne p s _ _ _ _) (.refl p s)

theorem deaf_deadAnswers : Deaf p (setPort (deadFlags s p) p (deadPort (port s p))) (deadAnswers s p) :=
  .trans ((Deaf.signals p).foldl _ (fun _ _ t => (Deaf.signals p).rel_post t _ _ _) _) ((Deaf.signals p).foldl _ (fun f _ t => deaf_deadAnswer t p _ f) _)

theorem deaf_after (t : State) (reason dev : Nat) : Deaf p t (push (post (noticeAll t 2 dev p) 0x0202 (0x20 + p) (b1 reason)) (.port p)) := by
  have h := Deaf.signals p
  have hn (v : State) (l : Nat) : Deaf p v (notice v l 2 dev p) := h.ite (.emit p v _) (.refl p v)
  exact (h.foldl _ (fun l _ v => hn v l) t).trans ((h.rel_post _ _ _ _).trans (.push p _ _))

/-- Each forward of a home here gets its dead answer; what follows takes nothing from the work to come. -/
theorem deadAnswer_mem {me : Agent} {f : Fwd} {l : List Fwd} (hf : f ∈ l) (hp : f.peer = none) :
    Flow.answer f.slice { src := me, tx := f.tx, opc := 0x28, line := f.line, dead := true } ∈ (l.foldl (deadAnswer me p) s).fabric := by
  obtain ⟨l1, l2, rfl⟩ := List.append_of_mem hf
  rw [List.foldl_append, List.foldl_cons]
  refine ((Deaf.signals p).foldl l2 (fun g _ t => deaf_deadAnswer t p me g) _).grows _ ?_
  rw [deadAnswer, hp]
  exact List.mem_append_right _ (.head _)

end

/-- Settles O52: the declaration in its parts, each of which says what it leaves of the port, the slices and the work to come. -/
theorem deadAgent : Obligations.DeadAgent := by
  intro s p reason u me
  refine ⟨fun h => ?_, fun h => ?_⟩
  · dsimp only [u]
    rw [declareDead, if_pos h]
  · have hu : u = _ := declareDead_eq s p reason h
    have h1 := deaf_deadAnswers s p
    have h2 := deaf_after p (agentDead (deadAnswers s p) me) reason (self s)
    have hm := agentDead_parts (deadAnswers s p) me
    rw [← hu] at h2
    have hcsr : (agentDead (deadAnswers s p) me).csr = (deadAnswers s p).csr := by rw [hm]
    have hports : (agentDead (deadAnswers s p) me).ports = (deadAnswers s p).ports := by rw [hm]
    have hfab : (agentDead (deadAnswers s p) me).fabric = (deadAnswers s p).fabric := by rw [hm]
    have hdram : (agentDead (deadAnswers s p) me).dram = (deadAnswers s p).dram := by rw [hm]
    have hcis : (agentDead (deadAnswers s p) me).cis = (deadAnswers s p).cis := by rw [hm]
    clear_value u
    have hraw (o : Nat) (ho : o ∉ signalRegs) : raw u o = raw (deadFlags s p) o :=
      (h2.raws o ho).trans ((raw_congr hcsr o).trans ((h1.raws o ho).trans (raw_congr (setPort_csr _ _ _) o)))
    have hget (f : Fld) (ho : f.off = R.APT_STAT p) : getF u f = getF (deadFlags s p) f := by
      rw [getF, getF, hraw _ (ho ▸ aptStat_notMem_signalRegs p)]
    obtain ⟨hd, hr, hl, hup⟩ := deadFlags_flags s p
    have hdown : isF (setPort (deadFlags s p) p (deadPort (port s p))) (F.APT_STAT_UP p) = false := by
      have : getF (setPort (deadFlags s p) p (deadPort (port s p))) (F.APT_STAT_UP p) = 0 := (getF_congr (setPort_csr _ _ _) _).trans hup
      rw [isF, this]
      rfl
    have hdown' : isF (agentDead (deadAnswers s p) me) (F.APT_STAT_UP p) = false := by
      rw [isF_congr hcsr, h1.up_eq, hdown]
    have hport : port u p = deadPort (port s p) := by
      rw [h2.port hdown', port, hports, ← port, h1.port hdown, port_setPort, if_pos rfl]
    have hsl (n : Fin 32) (hn : sliceUp s n = true) : slice u n = deadMasked (slice s n) me := by
      have hs : (deadAnswers s p).slices = s.slices := h1.slices_eq.trans ((setPort_slices _ _ _).trans (deadFlags_slices s p))
      have hup' : sliceUp (deadAnswers s p) n = true := by
        have e (f : Fld) (h3 : f.off ∉ signalRegs) (h4 : f.off ≠ R.APT_STAT p) : getF (deadAnswers s p) f = getF s f := by
          rw [getF, getF, h1.raws _ h3, ← raw_deadFlags s p h4, raw_congr (setPort_csr _ _ _)]
        rw [← hn, sliceUp, sliceUp, pdOn, pdOn, slcEn, slcEn, e F.PMU_PD_STAT_ON (by decide) (aptStat_ne_enables p).1,
          e F.CLK_EN_SLC_EFF_SLC (by decide) (aptStat_ne_enables p).2]
      have hu' : u.slices = (agentDead (deadAnswers s p) me).slices := h2.slices_eq
      rw [slice_congr hu', agentDead, slice_noticed me n (List.range 32) List.nodup_range, if_pos ⟨List.mem_range.mpr n.isLt, hup'⟩, slice_congr hs]
    refine ⟨?_, ?_, ?_, ?_, ?_, ?_, ?_, fun f hf hp => ?_, fun n hn => ?_, fun n hn hnew => ?_, ?_, ?_, ?_⟩
    · rw [isF, hget _ rfl]
      exact hd
    · rw [isF, hget _ rfl]
      exact hr
    · rw [hget _ rfl, hl]
    · rw [hget _ rfl, hup]
    · rw [hport]
      rfl
    · rw [hport]
      rfl
    · rw [hport]
      rfl
    · exact h2.grows _ (hfab ▸ deadAnswer_mem _ p (List.mem_append_left _ hf) hp)
    · rw [hsl n hn, deadMasked]
      split
      next hc => exact ⟨List.contains_iff_mem.mp hc, rfl, rfl⟩
      · exact ⟨by simp, rfl, rfl⟩
    · rw [hsl n hn, deadMasked, if_neg (by simpa using hnew)]
      exact ⟨by simp, fun e he => of_decide_eq_true (List.mem_filter.mp he).2⟩
    · rw [hu]
      exact List.mem_append_right _ (.head _)
    · rw [h2.dram_eq, hdram, h1.dram_eq, setPort_dram, deadFlags_dram]
    · rw [h2.cis_eq, hcis, h1.cis_eq, setPort_cis, deadFlags_cis]

end Sys2Proof.Machine
end

section
/-! PROOF. What DRAM and the Cistern hold after a write (R168, R181, R182, R185, R220–R226). -/

namespace Sys2Proof.Machine

/-- A read without error, marked device or not, takes the line as it is stored (R221, R222). -/
theorem rsDecode_clean (p : Bool) (m : Option Nat) : ∃ b, rsDecode p 0#640 m = { poison := p, rebuilt := b } := by
  cases m with
  | none => exact ⟨false, rsDecode_zero p⟩
  | some k => exact ⟨true, rsDecode_marked (fun i j _ _ _ => by simp) p⟩

/-- Such a read gives what is stored, and stores nothing. -/
theorem dramRead_clean (s : State) (l : LineAddr) :
    dramRead s l 0 = ({ data := (dramGet s l).data, poison := (dramGet s l).poison }, freshen s) := by
  obtain ⟨b, hb⟩ := rsDecode_clean (dramGet s l).poison (markedDev s (cellOf s (laOf s (l.toNat * 64))))
  unfold dramRead
  dsimp only
  rw [show (0 : BitVec 640) = 0#640 from rfl, hb]
  simp [lineErr_zero]

theorem dramWrite_eq (s : State) (l : LineAddr) (d : Line) (p : Bool) : dramWrite s l d p =
    { s with dram := (dramWrite s l d p).dram, cis := { s.cis with tier := (dramWrite s l d p).cis.tier } } := by
  unfold dramWrite tierClear
  split <;> rfl

theorem dramGet_dramWrite (s : State) (l : LineAddr) (d : Line) (p : Bool) :
    dramGet (dramWrite s l d p) l = { data := d, poison := p, chk := lineCheck d p } := by
  rw [dramGet, laOf_congr (dramWrite_csr s l d p) (dramWrite_eff s l d p), dramWrite_dram, nget_nset_same]
  rfl

/-- The slot that the Tier lets go holds no line (R181). -/
theorem tierProbe_dramWrite {s : State} (l : LineAddr) (d : Line) (p : Bool) (h : nsorted s.cis.tier = true) :
    (tierProbe (dramWrite s l d p) l).1 = none := by
  have hsize : tierSize (dramWrite s l d p) = tierSize s := by rw [tierSize, getF_congr (dramWrite_csr s l d p), tierSize]
  unfold tierProbe
  split
  next hon =>
    rw [tierOn, Bool.and_eq_true, Bool.and_eq_true, decide_eq_true_eq, decide_eq_true_eq, hsize] at hon
    have htier : (dramWrite s l d p).cis.tier = nerase s.cis.tier (l.toNat % tierSize s) := by
      unfold dramWrite tierClear
      split
      · rfl
      next hno => exact absurd hon.1.2 hno
    simp only [hsize, htier, nget_nerase_same _ _ h]
    rfl
  · rfl

/-- Settles O53: what is stored decodes as it was stored. -/
theorem dramReadsBack : Obligations.DramReadsBack := by
  intro s l d p u place
  have hr := dramRead_clean u l
  rw [dramGet_dramWrite] at hr
  refine ⟨congrArg Prod.fst hr, congrArg Prod.snd hr, fun k hk => ?_, dramWrite_sorted l d p, tierProbe_dramWrite l d p, dramWrite_eq s l d p⟩
  dsimp only [u]
  rw [dramWrite_dram, nget_nset_ne _ _ _ _ hk]

/-! The Cistern. -/

/-- What a line write leaves of the Cistern beside its wear and the governor's counts. -/
structure StoreKept (t u : State) : Prop where
  lines : u.cis.lines = t.cis.lines
  zeroed : u.cis.zeroed = t.cis.zeroed
  map : u.cis.map = t.cis.map
  tier : u.cis.tier = t.cis.tier
  moves : u.cis.moves = t.cis.moves
  drain : u.drain = t.drain

theorem StoreKept.refl (t : State) : StoreKept t t := ⟨rfl, rfl, rfl, rfl, rfl, rfl⟩

theorem StoreKept.trans {t u v : State} (h1 : StoreKept t u) (h2 : StoreKept u v) : StoreKept t v :=
  ⟨h2.lines.trans h1.lines, h2.zeroed.trans h1.zeroed, h2.map.trans h1.map, h2.tier.trans h1.tier, h2.moves.trans h1.moves, h2.drain.trans h1.drain⟩

theorem StoreKept.cisGet {t u : State} (h : StoreKept t u) (n : Nat) : cisGet u n = cisGet t n := by
  rw [Sys2Proof.Machine.cisGet, blankLine, h.lines, h.zeroed]
  rfl

theorem StoreKept.moveFrom {t u : State} (h : StoreKept t u) (p : Nat) : moveFrom u p = moveFrom t p := by
  rw [Sys2Proof.Machine.moveFrom, h.moves]
  rfl

theorem StoreKept.gated {t u : State} (h : StoreKept t u) : gated u = gated t := by
  rw [Sys2Proof.Machine.gated, h.drain]
  rfl

theorem floatFall_drain (s : State) (old new : Int) : (floatFall s old new).drain = s.drain := by
  have told (t : State) (code unit : Nat) (d : List Byte) : (post t code unit d).drain = t.drain := by rw [(told_post t code unit d).1]
  have low (c : Prop) [Decidable c] (v : Nat) : (if c then setF s F.WGV_FN_LOWEST v else s).drain = s.drain := by split <;> rfl
  have raised (c : Prop) [Decidable c] (t : State) : (if c then floatRaise (floatLatch t floatWgv) floatWgv else t).drain = t.drain := by
    split
    · exact told _ _ _ _
    · rfl
  exact (raised _ _).trans (low _ _)

theorem regionOf_congr {t u : State} (h : u.cis.regions = t.cis.regions) (q : Nat) : regionOf u q = regionOf t q := by rw [regionOf, h, regionOf]

section
variable (t : State) (p k q : Nat)

theorem takeCredits_kept : StoreKept t (takeCredits t k) := by
  have h := takeCredits_cis t k
  refine ⟨?_, ?_, ?_, ?_, ?_, floatFall_drain _ _ _⟩ <;> rw [h]

theorem slotWear_kept : StoreKept t (slotWear t p k) := by
  unfold slotWear
  split
  · exact .refl t
  · exact StoreKept.trans (u := wearBy t p k) ⟨rfl, rfl, rfl, rfl, rfl, rfl⟩ (takeCredits_kept _ k)

theorem govQueue_kept (g : GWrite) : StoreKept t (govQueue t g) := ⟨rfl, rfl, rfl, rfl, rfl, rfl⟩

/-- One line write counted (R185). -/
theorem slotWear_counts : (slotWear t p 1).cis.total = t.cis.total + 1 ∧ (slotWear t p 1).cis.level = t.cis.level - 1
    ∧ (slotWear t p 1).cis.queue = t.cis.queue := by
  rw [slotWear, if_neg (by decide), takeCredits_cis]
  exact ⟨rfl, rfl, rfl⟩

theorem regionOf_slotWear_ne (h : q ≠ p) : regionOf (slotWear t p k) q = regionOf t q := by
  unfold slotWear
  split
  · rfl
  · have e : (takeCredits (wearBy t p k) k).cis.regions = (wearBy t p k).cis.regions := by rw [takeCredits_cis]
    rw [regionOf_congr e, regionOf, wearBy, nget_nset_ne _ _ _ _ h, regionOf]

theorem wear_slotWear : (regionOf (slotWear t p 1) p).wear = ((regionOf t p).wear + 1) % 2 ^ 48 := by
  rw [slotWear, if_neg (by decide)]
  have e : (takeCredits (wearBy t p 1) 1).cis.regions = (wearBy t p 1).cis.regions := by rw [takeCredits_cis]
  rw [regionOf_congr e, regionOf, wearBy, nget_nset_same]
  rfl

end

/-- Whether a line lies below the copy pointer of a move (R183). -/
def below (m : Move) (i : Nat) : Prop := m.copied = true ∨ i < m.next

/-! The second write of a line below the pointer: taken where the governor has room, or made to wait (R183, R187). -/

section
variable {t : State} {p i : Nat}

theorem twinWear_none (h : moveFrom t p = none) (k : Nat) : twinWear t p i k = t := by rw [twinWear, h]

variable {m : Move} (h : moveFrom t p = some m)
include h

theorem twinWear_above (hb : ¬ below m i) : twinWear t p i 1 = t := by
  have hn : belowPointer m i 1 = 0 := by
    rw [belowPointer, if_neg (fun c => hb (.inl c))]
    have : ¬ i < m.next := fun c => hb (.inr c)
    omega
  rw [twinWear, h]
  dsimp only
  rw [hn, Nat.zero_min, if_pos rfl]
  rfl

theorem twinWear_below (hb : below m i) : twinWear t p i 1 =
    if 0 < govRoom t then slotWear t m.dst 1 else govQueue t { prio := 6, kind := .twin m.dst, left := 1 } := by
  have hn : belowPointer m i 1 = 1 := by
    unfold belowPointer
    split
    · rfl
    next hc =>
      have := hb.resolve_left hc
      omega
  rw [twinWear, h]
  dsimp only
  rw [hn]
  by_cases hr : 0 < govRoom t
  · rw [if_pos hr, Nat.min_eq_left hr, if_pos rfl]
  · rw [if_neg hr, Nat.eq_zero_of_not_pos hr]
    rfl

end

theorem twinWear_kept (t : State) (p i : Nat) : StoreKept t (twinWear t p i 1) := by
  cases h : moveFrom t p with
  | none =>
    rw [twinWear_none h]
    exact .refl t
  | some m =>
    by_cases hb : below m i
    · rw [twinWear_below h hb]
      split
      · exact slotWear_kept t m.dst 1
      · exact govQueue_kept t _
    · rw [twinWear_above h hb]
      exact .refl t

theorem regionOf_twinWear_ne {t : State} {p i q : Nat} (hq : ∀ m, moveFrom t p = some m → q ≠ m.dst) : regionOf (twinWear t p i 1) q = regionOf t q := by
  cases h : moveFrom t p with
  | none => rw [twinWear_none h]
  | some m =>
    by_cases hb : below m i
    · rw [twinWear_below h hb]
      split
      · exact regionOf_slotWear_ne t m.dst 1 q (hq m h)
      · rfl
    · rw [twinWear_above h hb]

theorem govRoom_gated {t : State} (h : gated t = true) : 0 < govRoom t := by
  rw [govRoom, if_pos h]
  decide

theorem govRoom_waiting {t : State} (h : gated t = false) (hq : t.cis.queue ≠ []) : ¬ 0 < govRoom t := by
  rw [govRoom, if_neg (by simp [h]), if_neg hq]
  decide

theorem cisWrite_eq (s : State) (n : Nat) (c : CLine) : cisWrite s n c =
    twinWear (slotWear (cisSet s n c) (physical s (n / 16384)) 1) (physical s (n / 16384)) (n % 16384) 1 := lineWear_one (cisSet s n c) n

/-- Settles O54: the line set, the write counted at its region, and the second write of a line that a move has copied. -/
theorem cisternReadsBack : Obligations.CisternReadsBack := by
  intro s n c hs u p
  obtain ⟨t, ht⟩ : ∃ t, t = slotWear (cisSet s n c) p 1 := ⟨_, rfl⟩
  have hu : u = twinWear t p (n % 16384) 1 := ht ▸ cisWrite_eq s n c
  have hset : StoreKept (cisSet s n c) t := ht ▸ slotWear_kept _ p 1
  have hkept : StoreKept (cisSet s n c) u := hset.trans (hu ▸ twinWear_kept t p (n % 16384))
  have hmove (q : Nat) : moveFrom t q = moveFrom s q := hset.moveFrom q
  have hreg (q : Nat) (hq : q ≠ p) : regionOf t q = regionOf s q := by
    rw [ht, regionOf_slotWear_ne _ _ _ _ hq]
    rfl
  have hwear : (regionOf t p).wear = ((regionOf s p).wear + 1) % 2 ^ 48 := by
    rw [ht, wear_slotWear]
    rfl
  obtain ⟨htotal, hlevel, hqueue⟩ : t.cis.total = s.cis.total + 1 ∧ t.cis.level = s.cis.level - 1 ∧ t.cis.queue = s.cis.queue :=
    ht ▸ slotWear_counts (cisSet s n c) p
  obtain ⟨hdram, hslices, hmdata⟩ := cisWrite_dram s n c
  have hget (k : Nat) : cisGet u k = if k = n then c else cisGet s k := by rw [hkept.cisGet, cisGet_cisSet n k c hs]
  refine ⟨by rw [hget, if_pos rfl], fun k hk => by rw [hget, if_neg hk], ?_, hdram, hslices, hmdata, hkept.map, hkept.tier, hkept.moves, ?_, ?_, ?_⟩
  · rw [hkept.lines]
    exact cisSet_sorted n c hs
  · intro q hq hdst
    rw [hu, regionOf_twinWear_ne (fun m hm => hdst m (hmove p ▸ hm)), hreg q hq]
  · intro hm
    rw [hu, twinWear_none ((hmove p).trans hm)]
    exact ⟨htotal, hlevel, hqueue, hwear⟩
  · intro m hm hdst
    have hm' := (hmove p).trans hm
    refine ⟨?_, fun hb => ?_, fun hb hg => ?_, fun hb hg hq => ?_⟩
    · rw [hu, regionOf_twinWear_ne (fun k hk => by rw [hm'] at hk; cases hk; exact Ne.symm hdst), hwear]
    · rw [hu, twinWear_above hm' hb]
      exact ⟨htotal, hqueue, hreg _ hdst⟩
    · rw [hu, twinWear_below hm' hb, if_pos (govRoom_gated (hset.gated.trans hg))]
      obtain ⟨ht2, -, -⟩ := slotWear_counts t m.dst
      refine ⟨?_, ?_⟩
      · rw [ht2, htotal, BitVec.add_assoc]
        rfl
      · rw [wear_slotWear, hreg _ hdst]
    · rw [hu, twinWear_below hm' hb, if_neg (govRoom_waiting (hset.gated.trans hg) (hqueue ▸ hq))]
      refine ⟨htotal, ?_, hreg _ hdst⟩
      rw [← hqueue]
      rfl

end Sys2Proof.Machine
end

section
/-! PROOF. What the clocks' events change at once: one relation, kept by each operation of the clock unit (R255–R271, R391). -/

namespace Sys2Proof.Machine

/-- The registers that the clocks' events may write. -/
def ClkReg (o : Nat) : Prop :=
  (0x30000 ≤ o ∧ o < 0x40000) ∨ (0xE0000 ≤ o ∧ o < 0xF0000) ∨ o = R.PMU_MCU ∨ (∃ c : Fin 4, o = R.MCH_STAT c) ∨ o ∈ signalRegs

/-- What a clock's event may change. -/
structure ClkFrame (s u : State) : Prop where
  parts : u = { s with csr := u.csr, clk := u.clk, chans := u.chans, ports := u.ports, fabric := u.fabric, out := u.out, evq := u.evq, pcie := u.pcie,
                       can := u.can, fresh := u.fresh, supply := { s.supply with low := u.supply.low } }
  ports : ∀ p, port u p = { port s p with lnk := { (port s p).lnk with egress := (port u p).lnk.egress } }
  chans : ∀ c, chan u c = { chan s c with hot := (chan u c).hot }
  regs : ∀ o, ClkReg o ∨ raw u o = raw s o

namespace ClkFrame

variable {s t u : State}

theorem refl (s : State) : ClkFrame s s := ⟨rfl, fun _ => rfl, fun _ => rfl, fun _ => .inr rfl⟩

theorem trans (h1 : ClkFrame s t) (h2 : ClkFrame t u) : ClkFrame s u := by
  refine ⟨?_, fun p => ?_, fun c => ?_, fun o => ?_⟩
  · have a := h1.parts
    have b := h2.parts
    rw [a] at b
    exact b
  · have a := h1.ports p
    have b := h2.ports p
    rw [a] at b
    exact b
  · have a := h1.chans c
    have b := h2.chans c
    rw [a] at b
    exact b
  · rcases h2.regs o with h | h
    · exact .inl h
    · exact (h1.regs o).imp id h.trans

/-- A change of nothing but the clock unit, the work to come and what goes out. -/
theorem of_same (hc : u.csr = s.csr) (hp : u.ports = s.ports) (hh : u.chans = s.chans)
    (h : u = { s with clk := u.clk, fabric := u.fabric, out := u.out, evq := u.evq, pcie := u.pcie, can := u.can, fresh := u.fresh }) : ClkFrame s u := by
  refine ⟨?_, fun p => by rw [port, hp, ← port], fun c => by rw [chan, hh, ← chan], fun o => .inr (raw_congr hc o)⟩
  rw [hc, hp, hh]
  rw [h]

theorem wr (s : State) {o : Nat} (w : Word) (h : ClkReg o) : ClkFrame s (wr s o w) := by
  refine ⟨rfl, fun _ => rfl, fun _ => rfl, fun q => ?_⟩
  by_cases hq : q = o
  · exact .inl (hq ▸ h)
  · exact .inr (raw_wr_ne s o q w hq)

theorem port_egress (s : State) (q : Fin 6) (m : Msg) (p : Nat) : port (egress s (.ap q) m) p =
    if p = q then { port s q with lnk := { (port s q).lnk with egress := (port s q).lnk.egress ++ [m] } } else port s p :=
  port_setPort s q p _

theorem notify (s : State) (src q : Nat) : ClkFrame s (notify s src q) := by
  unfold Sys2Proof.Machine.notify
  split
  · refine ⟨rfl, fun p => ?_, fun _ => rfl, fun _ => .inr rfl⟩
    rw [apS, port_egress]
    split
    next hp => rw [hp]
    · rfl
  · exact refl s

/-- Telling the masters of an event keeps to the frame. -/
theorem signals : Signals ClkFrame where
  refl := refl
  trans := trans
  evq _ _ := of_same rfl rfl rfl rfl
  pcie _ _ := of_same rfl rfl rfl rfl
  can _ _ := of_same rfl rfl rfl rfl
  push _ _ := of_same rfl rfl rfl rfl
  emit _ _ := of_same rfl rfl rfl rfl
  notify s src q _ := notify s src q
  wr s _ w ho := wr s w (.inr (.inr (.inr (.inr ho))))

variable (h : ClkFrame s t)
include h

theorem clk (c : Clk) : ClkFrame s { t with clk := c } := h.trans (of_same rfl rfl rfl rfl)
theorem freshen : ClkFrame s (freshen t) := h.trans (of_same rfl rfl rfl rfl)
theorem push (w : Flow) : ClkFrame s (push t w) := h.trans (signals.push t w)
theorem emit (o : Out) : ClkFrame s (emit t o) := h.trans (signals.emit t o)
theorem post (code unit : Nat) (d : List Byte) : ClkFrame s (post t code unit d) := h.trans (signals.rel_post t code unit d)
theorem setF {f : Fld} (v : Nat) (ho : ClkReg f.off) : ClkFrame s (setF t f v) := h.trans (wr t _ ho)
theorem flag {f : Fld} (ho : ClkReg f.off) : ClkFrame s (flag t f) := h.setF 1 ho

omit h in
theorem ite {c : Prop} [Decidable c] (h1 : ClkFrame s t) (h2 : ClkFrame s u) : ClkFrame s (if c then t else u) := signals.ite h1 h2

/-- A field of the CLK block. -/
theorem clkF {f : Fld} (v : Nat) (ho : 0x30000 ≤ f.off ∧ f.off < 0x40000) : ClkFrame s (Sys2Proof.Machine.setF t f v) := h.setF v (.inl ho)

theorem showClk : ClkFrame s (showClk t) := ((h.clkF _ (by decide)).clkF _ (by decide)).clkF _ (by decide)
theorem setClk (c : Clk) : ClkFrame s (setClk t c) := (h.clk c).showClk
theorem setMsrc (v : Nat) : ClkFrame s (setMsrc t v) := (h.clkF v (by decide)).clkF v (by decide)

theorem dvfsTry : ClkFrame s (dvfsTry t) :=
  .ite h (.ite ((h.setClk _).emit _) (.ite (h.setClk _) h))

theorem trySvc : ClkFrame s (trySvc t) := by
  have h1 := fun c => (h.clkF (f := F.CLK_STAT_CST) 3 (by decide)).setClk c
  refine .ite (dvfsTry (.ite ((h1 _).post _ _ _) (h1 _))) h

theorem svcOff : ClkFrame s (svcOff t) := .ite ((h.clkF 2 (by decide)).setClk _) h

theorem dvfsArrive (b : Nat) : ClkFrame s (dvfsArrive t b) := svcOff (.ite ((h.setClk _).emit _) (h.setClk _))

theorem enterHold : ClkFrame s (enterHold t) :=
  (((((((((h.clkF 0 (by decide)).clkF 0 (by decide)).clkF 0 (by decide)).clkF 4 (by decide)).setMsrc _).clkF 1 (by decide)).clkF _ (by decide)).setF 4
    (.inr (.inr (.inl rfl)))).setClk _)

theorem leaveHold (b : Bool) : ClkFrame s (leaveHold t b) :=
  ((((((((h.clkF 2 (by decide)).clkF _ (by decide)).clkF 1 (by decide)).setMsrc 2).clkF _ (by decide)).setF _ (.inr (.inr (.inl rfl)))).setClk _).push _)

theorem rmonTrip : ClkFrame s (rmonTrip t) :=
  have h1 := (h.clkF (f := F.CLK_ERR_RMON) 1 (by decide)).post 0x0500 0x41 (b1 2 ++ b1 (cst t))
  .ite h1.enterHold h1

theorem trimStart : ClkFrame s (trimStart t) := .ite h ((h.clk _).clkF 1 (by decide))

theorem trimFail : ClkFrame s (trimFail t) := ((h.clkF 0 (by decide)).clkF _ (by decide)).clkF 1 (by decide)

theorem trimGood : ClkFrame s (trimGood t) := (((h.clk _).clkF 0 (by decide)).clkF 1 (by decide)).clkF 1 (by decide)

end ClkFrame

section
variable (s : State)

theorem clkFrame_troReady : ClkFrame s (troReady s) :=
  have h := (ClkFrame.refl s).clkF (f := F.CLK_STAT_TRO_RDY) 1 (by decide)
  .ite (.refl s) (.ite (((h.clkF 1 (by decide)).setMsrc 1).push _) (.ite (h.setMsrc 1) h))

theorem clkFrame_xtalReady : ClkFrame s (xtalReady s) := .ite (.refl s) (((ClkFrame.refl s).clk _).clkF 1 (by decide))

theorem clkFrame_xtalTimeout : ClkFrame s (xtalTimeout s) := .ite (.refl s) ((((ClkFrame.refl s).clk _).clkF 1 (by decide)).post _ _ _)

theorem clkFrame_rootLock : ClkFrame s (rootLock s) :=
  .ite ((((((((ClkFrame.refl s).clkF 1 (by decide)).clkF _ (by decide)).clkF 2 (by decide)).setMsrc 2).setClk _)).push _) (.refl s)

theorem clkFrame_spllLock : ClkFrame s (spllLock s) := .ite ((ClkFrame.refl s).clkF 1 (by decide)).trySvc (.refl s)

theorem clkFrame_referenceChange : ClkFrame s (referenceChange s) := .ite (((ClkFrame.refl s).clkF 0 (by decide)).clkF _ (by decide)) (.refl s)

theorem clkFrame_rampDwell : ClkFrame s (rampDwell s) := by
  unfold rampDwell
  split
  · exact .refl s
  · exact ((ClkFrame.refl s).setClk _).trySvc

theorem clkFrame_xmonTrip : ClkFrame s (xmonTrip s) :=
  have h := (((((ClkFrame.refl s).clkF (f := F.CLK_ERR_XMON) 1 (by decide)).post 0x0500 0x41 (b1 0 ++ b1 (cst s))).clk _).clkF (f := F.CLK_STAT_XTAL_RDY) 0 (by decide))
  .ite h.enterHold h

theorem clkFrame_tmonTrip : ClkFrame s (tmonTrip s) := by
  have h2 := ((((ClkFrame.refl s).clkF (f := F.CLK_ERR_TMON) 1 (by decide)).post 0x0500 0x41 (b1 1 ++ b1 (cst s))).clkF (f := F.CLK_STAT_TRO_RDY) 0 (by decide)).clkF
    (f := F.CLK_STAT_TRIMMED) 0 (by decide)
  have h3 (c : Prop) [Decidable c] (x : Clk) := ClkFrame.ite (c := c) (h2.clk x) h2
  have h4 {t : State} (h : ClkFrame s t) (c : Prop) [Decidable c] := ClkFrame.ite (c := c) (h.setMsrc 0) h
  unfold tmonTrip
  dsimp only
  exact .ite (h4 (h3 _ _) _).rmonTrip (.ite (h4 (h3 _ _) _).enterHold (h4 (h3 _ _) _))

theorem clkFrame_troRestart : ClkFrame s (troRestart s) := .ite ((ClkFrame.refl s).clk _) (.refl s)

theorem clkFrame_holdEnd : ClkFrame s (holdEnd s) := .ite ((ClkFrame.refl s).leaveHold _) (.refl s)

theorem clkFrame_troFailedHoldEnd : ClkFrame s (troFailedHoldEnd s) := .ite ((((ClkFrame.refl s).leaveHold _).clk _).post _ _ _) (.refl s)

theorem clkFrame_trimAuto : ClkFrame s (trimAuto s) := .ite (ClkFrame.refl s).trimStart (.refl s)

theorem clkFrame_trimTimeout : ClkFrame s (trimTimeout s) := .ite (ClkFrame.refl s).trimFail (.refl s)

theorem clkFrame_trimPassEnd (q : TrimPass) : ClkFrame s (trimPassEnd s q) := by
  have h1 (c : Prop) [Decidable c] (v : Nat) := ClkFrame.ite (c := c) ((ClkFrame.refl s).clkF (f := F.CLK_TRIM_STAT_ERR) v (by decide)) (.refl s)
  have h2 {t : State} (h : ClkFrame s t) (v : Nat) := h.freshen.clkF (f := F.CLK_TRIM_CODE) v (by decide)
  unfold trimPassEnd
  dsimp only
  exact .ite (.refl s) (.ite (h1 _ _).trimFail (.ite (h1 _ _).trimGood (.ite ((h2 (h1 _ _) _).clk _) (.ite (h2 (h1 _ _) _).trimGood (h2 (h1 _ _) _).trimFail))))

theorem clkFrame_vcoreReached : ClkFrame s (vcoreReached s) := .ite (.ite ((ClkFrame.refl s).setClk _) ((ClkFrame.refl s).setClk _)) (.refl s)

theorem clkFrame_voltageTimeout : ClkFrame s (voltageTimeout s) := .ite ((((ClkFrame.refl s).setClk _).clkF 1 (by decide)).post _ _ _) (.refl s)

theorem clkFrame_dvfsMStep : ClkFrame s (dvfsMStep s) :=
  have h (c : Clk) := (ClkFrame.refl s).setClk c
  .ite (.refl s) (.ite (h _) (.ite ((ClkFrame.refl s).dvfsArrive _) (.ite (h _).dvfsTry (.ite (h _) (h _)))))

theorem clkFrame_thermalStep : ClkFrame s (thermalStep s) :=
  .ite ((ClkFrame.refl s).clk _).dvfsTry (.ite ((ClkFrame.refl s).clk _).dvfsTry (.refl s))

theorem clkFrame_setHot (c : Fin 4) (hot : List Nat) : ClkFrame s (setChan s c { chan s c with hot := hot }) := by
  refine ⟨rfl, fun _ => rfl, fun k => ?_, fun _ => .inr rfl⟩
  rw [chan_setChan]
  split
  next hk => rw [hk]
  · rfl

theorem clkFrame_dieSample (k : Fin 8) (t : BitVec 12) : ClkFrame s (sensorSample s (.die k) t) := by
  have hk : ClkReg (R.MSR_TEMP k) := .inr (.inl ⟨by dsimp only [R.MSR_TEMP]; omega, by dsimp only [R.MSR_TEMP]; omega⟩)
  have h1 := ((ClkFrame.refl s).setF (f := F.MSR_TEMP_TEMP k) t.toNat hk).setF (f := F.MSR_TEMP_VALID k) 1 hk
  have h2 (c : Prop) [Decidable c] := ClkFrame.ite (c := c) (h1.clkF (f := F.CLK_STAT_TRIMMED) 0 (by decide)) h1
  have shown {u : State} (h : ClkFrame s u) : ClkFrame s (refreshErr u) := h.trans (ClkFrame.signals.rel_refreshErr u)
  exact .ite (.ite (h2 _) (shown (((h2 _).clk _).clkF 1 (by decide)))) (.ite (shown ((h2 _).clkF 0 (by decide))) (h2 _))

theorem clkFrame_sensorSample (w : Sensor) (t : BitVec 12) : ClkFrame s (sensorSample s w t) := by
  cases w with
  | hub c i => exact (clkFrame_setHot s c _).setF _ (.inr (.inr (.inr (.inl ⟨c, rfl⟩))))
  | die k => exact clkFrame_dieSample s k t

theorem clkFrame_railSample (k : Fin 8) (mv : BitVec 14) : ClkFrame s (railSample s k mv) := by
  have hk : ClkReg (R.MSR_RAIL k) := .inr (.inl ⟨by dsimp only [R.MSR_RAIL]; omega, by dsimp only [R.MSR_RAIL]; omega⟩)
  have h0 (l : List Nat) : ClkFrame s { s with supply := { s.supply with low := l } } := ⟨rfl, fun _ => rfl, fun _ => rfl, fun _ => .inr rfl⟩
  have h1 (l : List Nat) := (h0 l).setF (f := F.MSR_RAIL_MV k) mv.toNat hk
  exact .ite ((h1 _).push _) (h1 _)

end

/-- What each of the clocks' rows makes of the machine. -/
theorem clockRow_acts (s : State) {q : TrimPass} {w : Sensor} {t : BitVec 12} {k : Fin 8} {mv : BitVec 14} {i : Instr}
    (hi : i ∈ [Instr.troReady, .xtalReady, .xtalTimeout, .rootLock, .spllLock, .referenceChange, .rampDwell, .xmonTrip, .tmonTrip, .rmonTrip,
      .troRestartTimeout, .holdEnd, .troFailedHoldEnd, .trimAutoInterval, .trimPassDone q, .trimPassTimeout, .vcoreReached, .voltageTimeout, .dvfsMStep,
      .thermalStep, .sensorSample w t, .railSample k mv]) : ∃ u, Acts i s u ∧ ClkFrame s u := by
  have row {i : Instr} {u : State} (e : exec i s = after s u) (h : ClkFrame s u) : ∃ u, Acts i s u ∧ ClkFrame s u := ⟨u, acts_after e rfl, h⟩
  simp only [List.mem_cons, List.not_mem_nil, or_false] at hi
  rcases hi with rfl | rfl | rfl | rfl | rfl | rfl | rfl | rfl | rfl | rfl | rfl | rfl | rfl | rfl | rfl | rfl | rfl | rfl | rfl | rfl | rfl | rfl
  · exact row rfl (clkFrame_troReady s)
  · exact row rfl (clkFrame_xtalReady s)
  · exact row rfl (clkFrame_xtalTimeout s)
  · exact row rfl (clkFrame_rootLock s)
  · exact row rfl (clkFrame_spllLock s)
  · exact row rfl (clkFrame_referenceChange s)
  · exact row rfl (clkFrame_rampDwell s)
  · exact row rfl (clkFrame_xmonTrip s)
  · exact row rfl (clkFrame_tmonTrip s)
  · exact row rfl (ClkFrame.refl s).rmonTrip
  · exact row rfl (clkFrame_troRestart s)
  · exact row rfl (clkFrame_holdEnd s)
  · exact row rfl (clkFrame_troFailedHoldEnd s)
  · exact row rfl (clkFrame_trimAuto s)
  · exact row rfl ((clkFrame_trimPassEnd s q).push .start)
  · exact row rfl (clkFrame_trimTimeout s)
  · exact row rfl (clkFrame_vcoreReached s)
  · exact row rfl (clkFrame_voltageTimeout s)
  · exact row rfl (clkFrame_dvfsMStep s)
  · exact row rfl (clkFrame_thermalStep s)
  · exact row rfl (clkFrame_sensorSample s w t)
  · exact row rfl (clkFrame_railSample s k mv)

/-- Settles O60: every operation of the clock unit keeps the frame. -/
theorem clockRowsFrame : Obligations.ClockRowsFrame := by
  intro s q w t k mv i hi
  obtain ⟨u, hacts, hparts, hports, hchans, hregs⟩ := clockRow_acts s hi
  refine ⟨u, hacts, hparts, hports, hchans, fun o => ?_⟩
  rcases hregs o with (h | h | h | h | h) | h
  · exact .inl h
  · exact .inr (.inl h)
  · exact .inr (.inr (.inl h))
  · exact .inr (.inr (.inr (.inl h)))
  · exact .inr (.inr (.inr (.inr (.inl h))))
  · exact .inr (.inr (.inr (.inr (.inr h))))

end Sys2Proof.Machine
end

section
/-! PROOF. What a row that writes a register by its name comes to (R6, R292): the block's own write, and the answer. -/

namespace Sys2Proof.Machine

variable {s u : State} {off : Nat} {w : Word}

/-- The register at an offset: a word's, not the data register of a pair, in a block and at a place of it (R385). -/
abbrev RegAt (off : Nat) (b : Blk) (n o : Nat) : Prop := off % 4 = 0 ∧ indPair off = none ∧ place off = some (b, n, o)

/-- A row that is a write of a register acts as that write and is answered. -/
theorem acts_reg {i : Instr} {m : Master} {b : Blk} {n o : Nat} (hr : RegAt off b n o) (h : Serves s off) (e : exec i s = after s (csrPut s m off w))
    (hw : regWrite s off w = u) : Acts i s (emit u (.regDone m off 0 0)) := by
  obtain ⟨h4, hi, -⟩ := hr
  exact acts_after e ((csrPut_serves h h4 hi).trans (by rw [hw]))

section
variable {n o : Nat}

theorem regWrite_gen (h : RegAt off .gen n o) : regWrite s off w = writeGen s o off w := by rw [regWrite, h.2.2]
theorem regWrite_cfg (h : RegAt off .cfg n o) : regWrite s off w = writeCfg s o off w := by rw [regWrite, h.2.2]
theorem regWrite_clk (h : RegAt off .clk n o) : regWrite s off w = writeClk s o off w := by rw [regWrite, h.2.2]
theorem regWrite_pmu (h : RegAt off .pmu n o) : regWrite s off w = writePmu s o off w := by rw [regWrite, h.2.2]
theorem regWrite_mop (h : RegAt off .mop n o) : regWrite s off w = writeMop s o off w := by rw [regWrite, h.2.2]
theorem regWrite_crc (h : RegAt off .crc n o) : regWrite s off w = writeCrc s o off w := by rw [regWrite, h.2.2]
theorem regWrite_sec (h : RegAt off .sec n o) : regWrite s off w = writeSec s o off w := by rw [regWrite, h.2.2]
theorem regWrite_cst (h : RegAt off .cst n o) : regWrite s off w = writeCst s o off w := by rw [regWrite, h.2.2]
theorem regWrite_pmp (h : RegAt off .pmp n o) : regWrite s off w = writePmp s o off w := by rw [regWrite, h.2.2]
theorem regWrite_pci (h : RegAt off .pci n o) : regWrite s off w = writePci s o off w := by rw [regWrite, h.2.2]
theorem regWrite_can (h : RegAt off .can n o) : regWrite s off w = writeCan s o off w := by rw [regWrite, h.2.2]
theorem regWrite_msr (h : RegAt off .msr n o) : regWrite s off w = writeMsr s o off w := by rw [regWrite, h.2.2]
theorem regWrite_slc (h : RegAt off .slc n o) : regWrite s off w = writeSlc s n o off w := by rw [regWrite, h.2.2]
theorem regWrite_apt (h : RegAt off .apt n o) : regWrite s off w = writeApt s n o off w := by rw [regWrite, h.2.2]
theorem regWrite_fed (h : RegAt off .fed n o) : regWrite s off w = writeFed s n o off w := by rw [regWrite, h.2.2]
theorem regWrite_feda (h : RegAt off .feda n o) : regWrite s off w = writeFeda s o off w := by rw [regWrite, h.2.2]
theorem regWrite_mch (h : RegAt off .mch n o) : regWrite s off w = writeMch s n o off w := by rw [regWrite, h.2.2]

end

/-! The registers that the rows write. -/

theorem regAt_GEN_RST : RegAt R.GEN_RST .gen 0 0x20 := by decide
theorem regAt_CFG_COMMIT : RegAt R.CFG_COMMIT .cfg 0 0 := by decide
theorem regAt_CLK_TRIM : RegAt R.CLK_TRIM .clk 0 0x40 := by decide
theorem regAt_PMU_MCU : RegAt R.PMU_MCU .pmu 0 0x20 := by decide
theorem regAt_MOP_S_CMD : ∀ k : Fin 4, RegAt (R.MOP_S_CMD k) .mop 0 (0x100 + 0x40 * k) := by decide
theorem regAt_CRC_U_CTL : ∀ u : Fin 4, RegAt (R.CRC_U_CTL u) .crc 0 (0x40 * u) := by decide
theorem regAt_CRC_U_D8 : ∀ u : Fin 4, RegAt (R.CRC_U_D8 u) .crc 0 (0x40 * u + 0xC) := by decide
theorem regAt_CRC_U_D16 : ∀ u : Fin 4, RegAt (R.CRC_U_D16 u) .crc 0 (0x40 * u + 0x10) := by decide
theorem regAt_CRC_U_D32 : ∀ u : Fin 4, RegAt (R.CRC_U_D32 u) .crc 0 (0x40 * u + 0x14) := by decide
theorem regAt_SEC_CMD : RegAt R.SEC_CMD .sec 0 0x100 := by decide
theorem regAt_CST_RMDAT : RegAt R.CST_RMDAT .cst 0 0x44 := by decide
theorem regAt_CST_RMIDX : RegAt R.CST_RMIDX .cst 0 0x40 := by decide
theorem regAt_CST_RIDX : RegAt R.CST_RIDX .cst 0 0x20 := by decide
theorem regAt_PMP_DRN_CTL : RegAt R.PMP_DRN_CTL .pmp 0 0x220 := by decide
theorem regAt_PCI_DMA_TAIL : ∀ c : Fin 2, RegAt (R.PCI_DMA_TAIL c) .pci 0 (0x118 + 0x40 * c) := by decide
theorem regAt_PCI_DMA_CTL : ∀ c : Fin 2, RegAt (R.PCI_DMA_CTL c) .pci 0 (0x100 + 0x40 * c) := by decide
theorem regAt_PCI_MBX_CMD : RegAt R.PCI_MBX_CMD .pci 0 0x400 := by decide
theorem regAt_PCI_MBX_CTL : RegAt R.PCI_MBX_CTL .pci 0 0x40C := by decide
theorem regAt_CAN_MBX_CMD : RegAt R.CAN_MBX_CMD .can 0 0x400 := by decide
theorem regAt_CAN_MBX_CTL : RegAt R.CAN_MBX_CTL .can 0 0x40C := by decide
theorem regAt_MSR_CTL : RegAt R.MSR_CTL .msr 0 0 := by decide
theorem regAt_MSR_EVSEL : ∀ k : Fin 8, RegAt (R.MSR_EVSEL k) .msr 0 (0x10 + 4 * k) := by decide
theorem regAt_MSR_HCFG : RegAt R.MSR_HCFG .msr 0 0x50 := by decide
theorem regAt_MSR_CIDX : RegAt R.MSR_CIDX .msr 0 0x40 := by decide
theorem regAt_MSR_HIDX : RegAt R.MSR_HIDX .msr 0 0x54 := by decide
theorem regAt_SLC_RMAP : ∀ (n : Fin 32) (k : Fin 8), RegAt (R.SLC_RMAP n k) .slc n (0xC0 + 4 * k) := by decide
theorem regAt_SLC_DBG_IDX : ∀ n : Fin 32, RegAt (R.SLC_DBG_IDX n) .slc n 0x80 := by decide
theorem regAt_APT_CTL : ∀ p : Fin 6, RegAt (R.APT_CTL p) .apt p 0 := by decide
theorem regAt_FED_LCTL : ∀ l : Fin 3, RegAt (R.FED_LCTL l) .fed l 0 := by decide
theorem regAt_FED_GCTL : RegAt R.FED_GCTL .feda 0 0x1008 := by decide
theorem regAt_FED_ARST : RegAt R.FED_ARST .feda 0 0x1018 := by decide
theorem regAt_MCH_MARK : ∀ (c : Fin 4) (k : Fin 8), RegAt (R.MCH_MARK c k) .mch c (0x20 + 4 * k) := by decide
theorem regAt_MCH_CIDX : ∀ c : Fin 4, RegAt (R.MCH_CIDX c) .mch c 0x40 := by decide

/-! A command's strobe: the fields stay as they are. -/

/-- Where a field that a write can change lies: below bit `j`, or, a flag cleared by writing 1, from there on and off bit `b`. -/
def belowStrobe (j b : Nat) (f : FRow) : Bool :=
  match f.acc with
  | .ro => true
  | .wo => true
  | .rw => decide (f.lo + f.w ≤ j)
  | .rws => decide (f.lo + f.w ≤ j)
  | .w1c => decide (j ≤ f.lo) && decide (b < f.lo ∨ f.lo + f.w ≤ b)

/-- Every field of the register lies so. -/
def fldsBelow (off j b : Nat) : Bool := (rowAt off).any (fun r => r.flds.all (belowStrobe j b))

theorem getLsbD_cmdBit (s : State) (off : Nat) {j b i : Nat} (hj : j ≤ b) (hi : i < 32) :
    (cmdBit s off (2 ^ j - 1) b).getLsbD i = ((decide (i < j) && (raw s off).getLsbD i) || decide (i = b)) := by
  have hand : Nat.land (raw s off).toNat (2 ^ j - 1) = (raw s off).toNat % 2 ^ j := Nat.and_two_pow_sub_one_eq_mod _ _
  have hlt : (raw s off).toNat % 2 ^ j < 2 ^ b := lt_of_lt_of_le (Nat.mod_lt _ (Nat.two_pow_pos j)) (Nat.pow_le_pow_right (by decide) hj)
  rw [cmdBit, hand, BitVec.getLsbD_ofNat, Nat.add_comm, ← Nat.mul_one (2 ^ b), Nat.two_pow_add_eq_or_of_lt hlt, Nat.mul_one, Nat.testBit_or,
    Nat.testBit_two_pow, Nat.testBit_mod_two_pow, BitVec.testBit_toNat]
  simp [hi, Bool.or_comm, eq_comm]

/-- What a field of such a register makes of a bit of the command's word. -/
theorem bitAfter_cmdBit (s : State) {off j b i : Nat} {f : FRow} (hj : j ≤ b) (hi : i < 32) (hf : f.lo ≤ i ∧ i < f.lo + f.w)
    (h : belowStrobe j b f = true) :
    bitAfter f.acc ((raw s off).getLsbD i) ((cmdBit s off (2 ^ j - 1) b).getLsbD i) = (raw s off).getLsbD i := by
  rw [getLsbD_cmdBit s off hj hi]
  unfold belowStrobe at h
  cases ha : f.acc <;> rw [ha] at h
  case ro => rfl
  case wo => rfl
  case rw =>
    have hw : f.lo + f.w ≤ j := of_decide_eq_true h
    simp [bitAfter, show i < j by omega, show i ≠ b by omega]
  case rws =>
    have hw : f.lo + f.w ≤ j := of_decide_eq_true h
    simp [bitAfter, show i < j by omega, show i ≠ b by omega]
  case w1c =>
    obtain ⟨h1, h2⟩ := Bool.and_eq_true_iff.mp h
    have h1 := of_decide_eq_true h1
    have h2 := of_decide_eq_true h2
    simp [bitAfter, show ¬ i < j by omega, show i ≠ b by omega]

/-- A write of a command's bit, with the fields below it as they were, changes no register. -/
theorem onlyBits_putReg_cmdBit (s : State) {off j b : Nat} (hr : fldsBelow off j b = true) (hj : j ≤ b) :
    OnlyBits s (putReg s off (cmdBit s off (2 ^ j - 1) b)) [] := by
  intro o i hi _
  by_cases ho : o = off
  · subst ho
    cases hrow : rowAt o with
    | none => rw [putReg, raw_wr_same, mergedAt, hrow]
    | some r =>
      have hall : r.flds.all (belowStrobe j b) = true := by simpa only [fldsBelow, hrow, Option.any_some] using hr
      rw [putReg, raw_wr_same, mergedAt, hrow]
      dsimp only
      rw [merged_eq]
      by_cases hin : ∃ f ∈ r.flds, f.lo ≤ i ∧ i < f.lo + f.w
      · obtain ⟨f, hf, hfi⟩ := hin
        have hp := of_decide_eq_true (Bool.and_eq_true_iff.mp (fldsApart_of_rowAt hrow)).2
        rw [getLsbD_foldl_mergeFld_in hi r.flds hp hf hfi]
        exact bitAfter_cmdBit s hj hi hfi (List.all_eq_true.mp hall f hf)
      · exact getLsbD_foldl_mergeFld_out hi r.flds (fun f hf => by by_contra hc; exact hin ⟨f, hf, by omega⟩) _
  · rw [putReg, raw_wr_ne _ _ _ _ ho]

theorem sameButRegs_putReg (s : State) (off : Nat) (w : Word) : SameButRegs s (putReg s off w) := rfl

theorem wr_wr (s : State) (o : Nat) (a b : Word) : wr (wr s o a) o b = wr s o b := by
  simp [wr, nset_nset]

end Sys2Proof.Machine
end

section
/-! PROOF. The links' timers and events, training, and the end of an agent's death (R42–R51, R61–R67, R130–R135). -/

namespace Sys2Proof.Machine

/-- Settles O14: each row is its operation on the side. -/
theorem linkEventsAct : Obligations.LinkEventsAct := by
  intro s side p l k g active
  refine ⟨acts_after rfl rfl, acts_after rfl rfl, acts_after rfl rfl, acts_after rfl rfl, acts_after rfl rfl, acts_after rfl rfl, acts_after rfl ?_,
    acts_after rfl rfl, acts_after rfl rfl, acts_after rfl ?_⟩
  · rw [capAgain, apS_val]
  · rw [linkLost, vlS_val]

section
variable {s : State} {side : Side} (lanes : BitVec 16) (rev : Bool)

/-! What completes in each training state (R42, R43, R50). -/

theorem ltssmStep_disabled {l : Fin 3} (h : ltssm s (.vl l) = 0) (he : effF s (sideRegs (.vl l)).en = 1) :
    ltssmStep s (.vl l) lanes rev = setLtssm s (.vl l) 1 := by
  simp only [ltssmStep, h, he, if_true]

theorem ltssmStep_detect (h : ltssm s side = 1) : ltssmStep s side lanes rev = setLtssm s side 2 := by simp only [ltssmStep, h]
theorem ltssmStep_lock (h : ltssm s side = 2) : ltssmStep s side lanes rev = setLtssm s side 3 := by simp only [ltssmStep, h]
theorem ltssmStep_align (h : ltssm s side = 3) : ltssmStep s side lanes rev = setLtssm s side 4 := by simp only [ltssmStep, h]

theorem ltssmStep_config (h : ltssm s side = 4) {w : Nat} (hw : widthOf s side lanes = some w) : ltssmStep s side lanes rev =
    enterCap (setF (setF (noteLanes s side lanes) (sideRegs side).width w) (sideRegs side).rev (b2n rev)) side := by
  simp only [ltssmStep, h, hw]

theorem ltssmStep_returns (h : ltssm s side = 4) (hw : widthOf s side lanes = none) : ltssmStep s side lanes rev =
    if 3 ≤ (lnkOf s side).detects then trainFail (noteLanes s side lanes) side
    else setLtssm (setLnk (noteLanes s side lanes) side { lnkOf s side with detects := (lnkOf s side).detects + 1 }) side 1 := by
  simp only [ltssmStep, h, hw]

theorem ltssmStep_recovery (h : ltssm s side = 7) {w : Nat} (hw : widthOf s side lanes = some w) : ltssmStep s side lanes rev =
    push (resendAll (setLtssm (setLnk (setF (setF (noteLanes s side lanes) (sideRegs side).width
      (if w = 3 ∧ getF s (sideRegs side).width ≠ 3 ∧ (lnkOf s side).retrain = false then getF s (sideRegs side).width else w)) (sideRegs side).rev (b2n rev))
      side { lnkOf s side with retrain := false }) side 6) side) (.egress side) := by
  simp only [ltssmStep, h, hw]

theorem ltssmStep_unrecovered (h : ltssm s side = 7) (hw : widthOf s side lanes = none) : ltssmStep s side lanes rev = s := by
  simp only [ltssmStep, h, hw]

theorem ltssmStep_trained (h5 : 5 ≤ ltssm s side) (h7 : ltssm s side ≠ 7) : ltssmStep s side lanes rev = s := by
  unfold ltssmStep
  dsimp only
  split
  case h_7 => rfl
  all_goals omega

end

/-- Settles O15, state by state. -/
theorem trainingAdvances : Obligations.TrainingAdvances := by
  intro s side lanes rev g k row seen
  have acts {u : State} (h : ltssmStep s side lanes rev = u) : Acts row s u := acts_after rfl h
  refine ⟨fun h => acts (ltssmStep_detect lanes rev h), fun h => acts (ltssmStep_lock lanes rev h), fun h => acts (ltssmStep_align lanes rev h),
    fun h w hw => acts (ltssmStep_config lanes rev h hw), fun h hw hd => acts ?_, fun h hw hd => acts ?_, fun h w hw => acts (ltssmStep_recovery lanes rev h hw),
    fun h hw => acts (ltssmStep_unrecovered lanes rev h hw), fun h5 h7 => acts (ltssmStep_trained lanes rev h5 h7), fun l hl h he => acts ?_⟩
  · rw [ltssmStep_returns lanes rev h hw, if_neg (Nat.not_le.mpr hd)]
    rfl
  · rw [ltssmStep_returns lanes rev h hw, if_pos hd]
    rfl
  · subst hl
    exact ltssmStep_disabled lanes rev h he

theorem fldsBelow_APT_CTL : ∀ p : Fin 6, fldsBelow (R.APT_CTL p) 3 5 = true ∧ fldsBelow (R.APT_CTL p) 3 4 = true := by decide
theorem fldsBelow_FED_LCTL : ∀ l : Fin 3, fldsBelow (R.FED_LCTL l) 3 5 = true := by decide

theorem bit_cmdBit (s : State) (off : Nat) {j b i : Nat} (hj : j ≤ b) (hi : i < 32) (hji : j ≤ i) :
    bit (cmdBit s off (2 ^ j - 1) b) i = decide (i = b) := by
  rw [bit, getLsbD_cmdBit s off hj hi]
  simp [Nat.not_lt.mpr hji]

/-- RETRAIN alone, written to the control register of a side (R50). -/
theorem acts_retrain (s : State) (m : Master) (side : Side) (h : Serves s (ctlOf side)) :
    Acts (.retrain m side) s (emit (recover (putReg s (ctlOf side) (cmdBit s (ctlOf side) 7 5)) side true) (.regDone m (ctlOf side) 0 0)) := by
  have b5 (off : Nat) : bit (cmdBit s off 7 5) 5 = true := by simpa using bit_cmdBit s off (j := 3) (b := 5) (i := 5) (by decide) (by decide) (by decide)
  have b4 (off : Nat) : bit (cmdBit s off 7 5) 4 = false := by simpa using bit_cmdBit s off (j := 3) (b := 5) (i := 4) (by decide) (by decide) (by decide)
  cases side with
  | ap p =>
    refine acts_reg (regAt_APT_CTL p) h rfl ((regWrite_apt (regAt_APT_CTL p)).trans ?_)
    rw [writeApt, if_pos rfl, writeAptCtl]
    simp only [ctlOf, b5, b4, if_true, apS_val, Bool.false_eq_true, if_false]
  | vl l =>
    refine acts_reg (regAt_FED_LCTL l) h rfl ((regWrite_fed (regAt_FED_LCTL l)).trans ?_)
    rw [writeFed]
    simp only [ctlOf, b5, and_self, if_true, vlS_val]

theorem acts_portReset (s : State) (m : Master) (p : Fin 6) (h : Serves s (R.APT_CTL p)) :
    Acts (.portReset m p) s (emit (portReset (putReg s (R.APT_CTL p) (cmdBit s (R.APT_CTL p) 7 4)) p) (.regDone m (R.APT_CTL p) 0 0)) := by
  have b5 (off : Nat) : bit (cmdBit s off 7 4) 5 = false := by simpa using bit_cmdBit s off (j := 3) (b := 4) (i := 5) (by decide) (by decide) (by decide)
  have b4 (off : Nat) : bit (cmdBit s off 7 4) 4 = true := by simpa using bit_cmdBit s off (j := 3) (b := 4) (i := 4) (by decide) (by decide) (by decide)
  refine acts_reg (regAt_APT_CTL p) h rfl ?_
  rw [regWrite_apt (regAt_APT_CTL p), writeApt, if_pos rfl, writeAptCtl]
  simp only [b5, b4, if_true, Bool.false_eq_true, if_false]

theorem onlyBits_retrain (s : State) (side : Side) : OnlyBits s (putReg s (ctlOf side) (cmdBit s (ctlOf side) 7 5)) [] := by
  cases side with
  | ap p => exact onlyBits_putReg_cmdBit s (j := 3) (fldsBelow_APT_CTL p).1 (by decide)
  | vl l => exact onlyBits_putReg_cmdBit s (j := 3) (fldsBelow_FED_LCTL l) (by decide)

/-- Registers whose bits are unchanged read the same. -/
theorem getF_of_onlyBits {s t : State} (h : OnlyBits s t []) (f : Fld) : getF t f = getF s f := by
  have e : raw t f.off = raw s f.off := BitVec.eq_of_getLsbD_eq fun i hi => h f.off i hi (by rintro ⟨g, hg, -⟩; cases hg)
  rw [getF, e, getF]

/-- Settles O16: each row is its operation; the two strobes of a control register reach it with its fields as they were. -/
theorem deadAgentRows : Obligations.DeadAgentRows := by
  refine ⟨fun s p q tx n d l => ⟨acts_after rfl rfl, acts_after rfl rfl, acts_after rfl rfl, acts_after rfl rfl⟩, fun s m side p => ⟨fun h => ?_, fun h => ?_⟩⟩
  · have ho := onlyBits_retrain s side
    have hl : lnkOf (putReg s (ctlOf side) (cmdBit s (ctlOf side) 7 5)) side = lnkOf s side := by cases side <;> rfl
    refine ⟨_, sameButRegs_putReg s _ _, ho, ?_⟩
    have := acts_retrain s m side h
    rw [recover, ltssm, getF_of_onlyBits ho, hl] at this
    exact this
  · exact ⟨_, sameButRegs_putReg s _ _, onlyBits_putReg_cmdBit s (j := 3) (fldsBelow_APT_CTL p).2 (by decide), acts_portReset s m p h⟩

end Sys2Proof.Machine
end

section
/-! PROOF. Rows whose effect the statement writes out: the stores' returns, the supply, the drain, the phase unit and the clocks. -/

namespace Sys2Proof.Machine

/-- A row whose arm is one operation acts by it. -/
theorem acts_row {i : Instr} {s u : State} (e : exec i s = after s u) : Acts i s u := acts_after e rfl

/-- Settles O17: each row is one operation, asked at a slice that serves. -/
theorem storeReturns : Obligations.StoreReturns :=
  ⟨fun _ _ _ _ => ⟨acts_row rfl, acts_row rfl, acts_row rfl, acts_row rfl, acts_row rfl, acts_row rfl⟩,
    fun _ _ => ⟨acts_row rfl, acts_row rfl, acts_row rfl⟩,
    fun _ _ _ => ⟨acts_row rfl, acts_row rfl, acts_row rfl⟩⟩

/-- Settles O24: each row of the drain is one operation, asked while the drain is in its stage. -/
theorem drainRows : Obligations.DrainRows := fun _ _ _ _ _ =>
  ⟨acts_row rfl, acts_row rfl, acts_row rfl, acts_row rfl, acts_row rfl, acts_row rfl, acts_row rfl, acts_row rfl⟩

section
variable (s : State)

/-- A monitor's trip is a warning where its rail is switched and one of its domains is live. -/
theorem railTrip_eq (k : Nat) : railTrip s k =
    if k ≠ 1 ∧ k ≠ 2 ∧ (railDomains k).any (fun d => decide (d = 0) || pdOn s d) = true then warn s 2 else s := by
  simp only [railTrip, railSwitched, railLive, Bool.and_eq_true, decide_eq_true_eq, and_assoc]

/-- An accepted edge of PHASE_A, by the mode. -/
theorem phaseA_eq (rising : Bool) : phaseA s rising =
    if phuState s = 0 then s
    else if phuMode s = 0 then (if rising = decide (effF s F.PHU_CTL_POL = 0) then timedBoundary s else s)
    else if phuMode s = 2 ∧ rising = true then lineEdge s else s := by
  unfold phaseA
  split
  · rfl
  · split <;> simp_all

/-- An accepted edge of PHASE_Z, by the mode. -/
theorem phaseZ_eq (rising : Bool) : phaseZ s rising =
    if phuState s = 0 ∨ rising = false then s
    else if phuMode s = 1 then quadZ s
    else if phuMode s = 2 ∧ effF s F.PHU_CTL_ZEN = 1 then timedBoundary s else s := by
  unfold phaseZ
  split
  · rfl
  · split <;> simp_all

/-- A slot acts where it is armed, has the action and is due. -/
theorem slotDue_eq (k act : Nat) : slotDue s k act =
    if phuFires s = true ∧ s.phu.armed.contains k = true ∧ effF s (F.PHU_SLOT_ACT k) = act
        ∧ effF s (F.PHU_SLOT_POS k) ≤ s.phu.frac.toNat ∧ (phuState s ≠ 2 ∨ phuMode s ≠ 1 ∨ s.phu.passed.contains k = true) then
      fireSlot s k
    else s := by
  simp only [slotDue, slotReached, Bool.and_eq_true, Bool.or_eq_true, decide_eq_true_eq, or_assoc]

theorem holding_iff : holding s = true ↔ getF s F.CLK_STAT_CST = 4 := decide_eq_true_iff

theorem clocksRun_iff : clocksRun s = true ↔ getF s F.CLK_STAT_CST = 2 ∨ getF s F.CLK_STAT_CST = 3 := decide_eq_true_iff

/-- ROOT's reference moves where the one asked for is ready and the clocks run. -/
theorem referenceChange_eq : referenceChange s =
    if isF s F.CLK_STAT_PEND = true
        ∧ isF s (if effF s F.CLK_SRC_RREF = 0 then F.CLK_STAT_XTAL_RDY else F.CLK_STAT_TRO_RDY) = true
        ∧ (getF s F.CLK_STAT_CST = 2 ∨ getF s F.CLK_STAT_CST = 3) then
      setF (setF s F.CLK_STAT_PEND 0) F.CLK_STAT_RREF (effF s F.CLK_SRC_RREF)
    else s := by
  simp only [referenceChange, clocksRun_iff, ← apply_ite (isF s)]

end

/-- Settles O22: each row is one operation; a monitor's trip asks for a switched rail. -/
theorem supplyRows : Obligations.SupplyRows := fun s k _ _ =>
  ⟨acts_row rfl, acts_row rfl, acts_row rfl, acts_after rfl (railTrip_eq s k), acts_row rfl, acts_row rfl, acts_row rfl,
    acts_row rfl, acts_row rfl⟩

/-- Settles O27: the edges go by the mode, and the six actions are one slot's firing. -/
theorem phaseRows : Obligations.PhaseRows := fun s rising _ k =>
  have due (act : Nat) {i : Instr} (e : exec i s = after s (slotDue s k act)) := acts_after e (slotDue_eq s k act)
  ⟨acts_after rfl (phaseA_eq s rising), acts_after rfl (phaseZ_eq s rising), acts_row rfl, acts_row rfl, acts_row rfl,
    due 1 rfl, due 2 rfl, due 3 rfl, due 4 rfl, due 5 rfl, due 6 rfl, acts_row rfl, acts_row rfl⟩

/-- Settles O28: each row is one operation, asked in the clock states of its rule. -/
theorem clockRows : Obligations.ClockRows := fun s =>
  ⟨acts_row rfl, acts_row rfl, acts_after rfl (by simp only [xtalTimeout, holding_iff, flag]), acts_row rfl, acts_row rfl,
    acts_after rfl (referenceChange_eq s), acts_row rfl, acts_row rfl, acts_row rfl, acts_row rfl, acts_row rfl,
    acts_after rfl (by simp only [holdEnd, holding_iff]), acts_after rfl (by simp only [troFailedHoldEnd, holding_iff])⟩

end Sys2Proof.Machine
end

section
/-! PROOF. Rows that write a register of the measurement unit, the MOP engine, the crypto engine or a CRC unit (R157, R354, R356, R392). -/

namespace Sys2Proof.Machine

/-- Whether a register has a field there that a write sets. -/
def takes (off lo w : Nat) : Bool :=
  (rowAt off).any (fun r => r.flds.any (fun f => decide (f.lo = lo ∧ f.w = w ∧ (f.acc = .rw ∨ f.acc = .rws))))

/-- A field that a write sets holds the written value. -/
theorem bits_mergedAt (s : State) {off lo w : Nat} (v : Word) (h : takes off lo w = true) : bits (mergedAt s off v) lo w = bits v lo w := by
  unfold takes at h
  cases hr : rowAt off with
  | none => rw [hr] at h; cases h
  | some r =>
    rw [hr, Option.any_some, List.any_eq_true] at h
    obtain ⟨f, hf, hd⟩ := h
    obtain ⟨rfl, rfl, ha⟩ := of_decide_eq_true hd
    have := (registerClasses s off v r hr).2.1 f hf ha
    rwa [putReg, raw_wr_same] at this

theorem bit_mergedAt (s : State) {off i : Nat} (v : Word) (h : takes off i 1 = true) : bit (mergedAt s off v) i = bit v i := by
  have := congrArg (·.testBit 0) (bits_mergedAt s v h)
  simpa only [testBit_bits, Nat.add_zero, Nat.lt_one_iff, decide_true, Bool.true_and, bit] using this

theorem takes_MSR_EVSEL : ∀ k : Fin 8, takes (R.MSR_EVSEL k) 0 5 = true := by decide

theorem regWrite_MSR_EVSEL (s : State) (k : Fin 8) (w : Word) : regWrite s (R.MSR_EVSEL k) w = msrEvsel s k (mergedAt s (R.MSR_EVSEL k) w) := by
  rw [regWrite_msr (regAt_MSR_EVSEL k), writeMsr, if_neg (by omega), if_pos (by omega), show (0x10 + 4 * (k : Nat) - 0x10) / 4 = k by omega]

/-- Settles O39: each command is its register's write, and the fields the write sets hold the written values. -/
theorem measureRows : Obligations.MeasureRows := by
  intro s m k w
  refine ⟨fun h => ⟨?_, ?_⟩, fun h => ?_, fun h => ?_, fun h => ?_, fun h => ?_⟩
  · exact acts_reg regAt_MSR_CTL h rfl ((regWrite_msr regAt_MSR_CTL).trans rfl)
  · exact acts_reg regAt_MSR_CTL h rfl ((regWrite_msr regAt_MSR_CTL).trans rfl)
  · refine acts_reg (regAt_MSR_EVSEL k) h rfl ((regWrite_MSR_EVSEL s k w).trans ?_)
    rw [msrEvsel, bits_mergedAt s w (takes_MSR_EVSEL k)]
  · refine acts_reg regAt_MSR_HCFG h rfl ((regWrite_msr regAt_MSR_HCFG).trans (?_ : msrHcfg s (mergedAt s R.MSR_HCFG w) = _))
    rw [msrHcfg, bits_mergedAt s w (by decide), bits_mergedAt s w (by decide)]
  · refine acts_reg regAt_MSR_CIDX h rfl ((regWrite_msr regAt_MSR_CIDX).trans (?_ : msrCidx s (mergedAt s R.MSR_CIDX w) = _))
    have h0 := bits_mergedAt (off := R.MSR_CIDX) (lo := 0) (w := 5) s w (by decide)
    have h8 := bits_mergedAt (off := R.MSR_CIDX) (lo := 8) (w := 3) s w (by decide)
    have h12 := bits_mergedAt (off := R.MSR_CIDX) (lo := 12) (w := 1) s w (by decide)
    simp only [msrCidx, h0, h8, h12, bit_mergedAt (off := R.MSR_CIDX) (i := 12) s w (by decide)]
  · refine acts_reg regAt_MSR_HIDX h rfl ((regWrite_msr regAt_MSR_HIDX).trans (?_ : msrHidx s (mergedAt s R.MSR_HIDX w) = _))
    have h0 := bits_mergedAt (off := R.MSR_HIDX) (lo := 0) (w := 3) s w (by decide)
    have h8 := bits_mergedAt (off := R.MSR_HIDX) (lo := 8) (w := 4) s w (by decide)
    have h12 := bits_mergedAt (off := R.MSR_HIDX) (lo := 12) (w := 1) s w (by decide)
    simp only [msrHidx, h0, h8, h12, bit_mergedAt (off := R.MSR_HIDX) (i := 12) s w (by decide)]

/-! The MOP engine. -/

theorem rowAt_MOP_S_CMD : ∀ k : Fin 4, rowAt (R.MOP_S_CMD k) = some
    ⟨0x100, 4, 0x40, [⟨0, 4, .rw, 0, .imm, 0, 0xFFFFFFFF⟩, ⟨4, 3, .rw, 0, .imm, 0, 0xFFFFFFFF⟩, ⟨7, 1, .rw, 0, .imm, 0, 0xFFFFFFFF⟩,
      ⟨8, 1, .wo, 0, .imm, 0, 0xFFFFFFFF⟩, ⟨9, 1, .wo, 0, .imm, 0, 0xFFFFFFFF⟩, ⟨10, 1, .wo, 0, .imm, 0, 0xFFFFFFFF⟩,
      ⟨16, 16, .ro, 0, .none, 0, 0xFFFFFFFF⟩]⟩ := by decide

/-- A write of MOP_Sk_CMD sets OP, SCOPE and PRIO. -/
theorem putReg_MOP_S_CMD (s : State) (k : Fin 4) (w : Word) : putReg s (R.MOP_S_CMD k) w =
    setF (setF (setF s (F.MOP_S_CMD_OP k) (bits w 0 4)) (F.MOP_S_CMD_SCOPE k) (bits w 4 3)) (F.MOP_S_CMD_PRIO k) (bits w 7 1) := by
  simp only [F.MOP_S_CMD_OP, F.MOP_S_CMD_SCOPE, F.MOP_S_CMD_PRIO, setF, raw_wr_same, wr_wr, putReg, mergedAt, rowAt_MOP_S_CMD k]
  rfl

theorem regWrite_MOP_S_CMD (s : State) (k : Fin 4) (w : Word) : regWrite s (R.MOP_S_CMD k) w = writeMopCmd s k w := by
  rw [regWrite_mop (regAt_MOP_S_CMD k), writeMop, if_pos (by omega), show (0x100 + 0x40 * (k : Nat) - 0x100) / 0x40 = k by omega]

/-- What the word of a START holds. -/
theorem mopWord_bits : ∀ (op : Fin 8) (scope : BitVec 3) (prio : Bool),
    let w := mopWord op scope prio
    bits w 0 4 = op ∧ bits w 4 3 = scope.toNat ∧ bits w 7 1 = b2n prio ∧ bit w 8 = true ∧ bit w 9 = false ∧ bit w 10 = false := by decide

theorem fldsBelow_MOP_S_CMD : ∀ k : Fin 4, fldsBelow (R.MOP_S_CMD k) 8 9 = true ∧ fldsBelow (R.MOP_S_CMD k) 8 10 = true := by decide

/-- A strobe of MOP_Sk_CMD above the command's fields: the word's own bit alone is a strobe. -/
theorem bit_mopStrobe (s : State) (off b i : Nat) (hb : 8 ≤ b) (hi : i < 32) (h8 : 8 ≤ i) : bit (cmdBit s off 0xFF b) i = decide (i = b) :=
  bit_cmdBit s off (j := 8) hb hi h8

/-- Settles O18: the word of a START sets the three fields and strobes START; ABORT and REL strobe with the fields as they were. -/
theorem mopStartRows : Obligations.MopStartRows := by
  refine ⟨fun s m k scope prio h => ⟨?_, ?_, ?_⟩, fun s k => ⟨acts_after rfl ?_, acts_row rfl⟩⟩
  · have start (op : Fin 8) {i : Instr} (e : exec i s = after s (csrPut s m (R.MOP_S_CMD k) (mopWord op scope prio))) :
        Acts i s (emit (mopStart (setF (setF (setF s (F.MOP_S_CMD_OP k) op) (F.MOP_S_CMD_SCOPE k) scope.toNat) (F.MOP_S_CMD_PRIO k) (b2n prio)) k)
          (.regDone m (R.MOP_S_CMD k) 0 0)) := by
      obtain ⟨hop, hscope, hprio, h8, h9, h10⟩ := mopWord_bits op scope prio
      refine acts_reg (regAt_MOP_S_CMD k) h e ((regWrite_MOP_S_CMD s k _).trans ?_)
      simp only [writeMopCmd, putReg_MOP_S_CMD, hop, hscope, hprio, h8, h9, h10, if_true, Bool.false_eq_true, if_false]
    simp only [List.forall_mem_cons]
    exact ⟨start 0 rfl, start 1 rfl, start 2 rfl, start 3 rfl, start 4 rfl, start 5 rfl, start 6 rfl, start 7 rfl, by rintro _ ⟨⟩⟩
  · refine ⟨_, onlyBits_putReg_cmdBit s (j := 8) (fldsBelow_MOP_S_CMD k).1 (by decide), sameButRegs_putReg s _ _,
      acts_reg (regAt_MOP_S_CMD k) h rfl ((regWrite_MOP_S_CMD s k _).trans ?_)⟩
    have h8 : bit (cmdBit s (R.MOP_S_CMD k) 0xFF 9) 8 = false := bit_mopStrobe s _ 9 8 (by decide) (by decide) (by decide)
    have h9 : bit (cmdBit s (R.MOP_S_CMD k) 0xFF 9) 9 = true := bit_mopStrobe s _ 9 9 (by decide) (by decide) (by decide)
    have h10 : bit (cmdBit s (R.MOP_S_CMD k) 0xFF 9) 10 = false := bit_mopStrobe s _ 9 10 (by decide) (by decide) (by decide)
    rw [writeMopCmd, h8, h9, h10]
    rfl
  · refine ⟨_, onlyBits_putReg_cmdBit s (j := 8) (fldsBelow_MOP_S_CMD k).2 (by decide), sameButRegs_putReg s _ _,
      acts_reg (regAt_MOP_S_CMD k) h rfl ((regWrite_MOP_S_CMD s k _).trans ?_)⟩
    have h8 : bit (cmdBit s (R.MOP_S_CMD k) 0xFF 10) 8 = false := bit_mopStrobe s _ 10 8 (by decide) (by decide) (by decide)
    have h9 : bit (cmdBit s (R.MOP_S_CMD k) 0xFF 10) 9 = false := bit_mopStrobe s _ 10 9 (by decide) (by decide) (by decide)
    have h10 : bit (cmdBit s (R.MOP_S_CMD k) 0xFF 10) 10 = true := bit_mopStrobe s _ 10 10 (by decide) (by decide) (by decide)
    rw [writeMopCmd, h8, h9, h10]
    rfl
  · dsimp only [mopCount]
    cases (mopOf s k).lag with
    | nil => rfl
    | cons x r => cases (mopOf s k).faddr <;> rfl

/-! The crypto engine and the CRC units. -/

/-- A field written with what it holds leaves its register. -/
theorem putBits_bits (v : Word) (lo w : Nat) : putBits v lo w (bits v lo w) = v := by
  refine BitVec.eq_of_getLsbD_eq fun i hi => ?_
  rw [getLsbD_putBits _ _ _ _ _ hi]
  split
  next h => rw [testBit_bits, show lo + (i - lo) = i by omega, decide_eq_true (show i - lo < w by omega), Bool.true_and]
  next => rfl

theorem raw_setF_getF (s : State) (f : Fld) (o : Nat) : raw (setF s f (getF s f)) o = raw s o := by
  by_cases h : o = f.off
  · subst h
    rw [setF, raw_wr_same, getF, putBits_bits]
  · exact raw_setF_ne s f _ o h

/-- The fields below a strobe are as they were. -/
theorem bits_cmdBit (s : State) (off : Nat) {j b lo w : Nat} (hj : j ≤ b) (hw : lo + w ≤ j) (h32 : j ≤ 32) :
    bits (cmdBit s off (2 ^ j - 1) b) lo w = bits (raw s off) lo w := by
  refine bits_congr_of_bits fun i _ hi => ?_
  rw [getLsbD_cmdBit s off hj (by omega), decide_eq_true (show i < j by omega), Bool.true_and, decide_eq_false (show i ≠ b by omega), Bool.or_false]

/-- What a write of CRC_Un_CTL leaves in the register before its strobes act. -/
def crcSet (s : State) (u : Nat) (w : Word) : State :=
  let t := setF (setF s (F.CRC_U_CTL_POLY u) (bits w 0 2)) (F.CRC_U_CTL_USEINIT u) (bits w 2 1)
  if bit w 11 then setF t (F.CRC_U_CTL_COLL u) 0 else t

theorem crcCtl_eq (s : State) (u : Nat) (w : Word) : crcCtl s u w =
    let t := crcSet s u w
    let b := if bit w 8 ∧ bit w 9 then crcColl t u else if bit w 8 then crcBegin t u else if bit w 9 then crcFin t u else t
    if bit w 10 then crcRel b u else b := rfl

theorem regWrite_CRC (s : State) (u : Fin 4) (w : Word) :
    regWrite s (R.CRC_U_CTL u) w = crcCtl s u w ∧ regWrite s (R.CRC_U_D8 u) w = crcFeed s u (leBytes 1 w.toNat)
      ∧ regWrite s (R.CRC_U_D16 u) w = crcFeed s u (leBytes 2 w.toNat) ∧ regWrite s (R.CRC_U_D32 u) w = crcFeed s u (leBytes 4 w.toNat) := by
  rw [regWrite_crc (regAt_CRC_U_CTL u), regWrite_crc (regAt_CRC_U_D8 u), regWrite_crc (regAt_CRC_U_D16 u), regWrite_crc (regAt_CRC_U_D32 u)]
  fin_cases u <;> exact ⟨rfl, rfl, rfl, rfl⟩

section
variable (s : State) (u : Nat) (w : Word)

theorem crcSet_only : OnlyBits s (crcSet s u w) [F.CRC_U_CTL_POLY u, F.CRC_U_CTL_USEINIT u, F.CRC_U_CTL_COLL u] := by
  have h : OnlyBits s (setF (setF s (F.CRC_U_CTL_POLY u) (bits w 0 2)) (F.CRC_U_CTL_USEINIT u) (bits w 2 1))
      [F.CRC_U_CTL_POLY u, F.CRC_U_CTL_USEINIT u, F.CRC_U_CTL_COLL u] := (OnlyBits.setF _ (by simp)).trans (OnlyBits.setF _ (by simp))
  unfold crcSet
  split
  · exact h.trans (OnlyBits.setF _ (by simp))
  · exact h

theorem crcSet_sameButRegs : SameButRegs s (crcSet s u w) := by
  unfold crcSet
  split <;> rfl

/-- COLL lies apart from the other two fields. -/
theorem getF_crcSet {f : Fld} (ho : f.off = R.CRC_U_CTL u) (hf : f.lo + f.w ≤ 11) :
    getF (crcSet s u w) f = getF (setF (setF s (F.CRC_U_CTL_POLY u) (bits w 0 2)) (F.CRC_U_CTL_USEINIT u) (bits w 2 1)) f := by
  unfold crcSet
  split
  · exact getF_setF_disjoint _ (F.CRC_U_CTL_COLL u) f _ ho (Or.inl hf) (by omega)
  · rfl

theorem getF_crcSet_poly : getF (crcSet s u w) (F.CRC_U_CTL_POLY u) = bits w 0 2 := by
  have h2 : 0 + 2 ≤ 2 := by decide
  rw [getF_crcSet s u w rfl (h2.trans (by decide)), getF_setF_disjoint _ (F.CRC_U_CTL_USEINIT u) (F.CRC_U_CTL_POLY u) _ rfl (Or.inl h2) (h2.trans (by decide)),
    getF_setF_same _ _ _ (h2.trans (by decide))]
  exact Nat.mod_eq_of_lt (Nat.mod_lt _ (by decide))

theorem getF_crcSet_useinit : getF (crcSet s u w) (F.CRC_U_CTL_USEINIT u) = bits w 2 1 := by
  have h3 : 2 + 1 ≤ 3 := by decide
  rw [getF_crcSet s u w rfl (h3.trans (by decide)), getF_setF_same _ _ _ (h3.trans (by decide))]
  exact Nat.mod_eq_of_lt (Nat.mod_lt _ (by decide))

/-- A strobe other than COLL's leaves the register. -/
theorem crcSet_strobe {b : Nat} (hb : 3 ≤ b) (h11 : b ≠ 11) : OnlyBits s (crcSet s u (cmdBit s (R.CRC_U_CTL u) 7 b)) [] := by
  have hp : bits (cmdBit s (R.CRC_U_CTL u) 7 b) 0 2 = getF s (F.CRC_U_CTL_POLY u) := bits_cmdBit s _ (j := 3) hb (by decide) (by decide)
  have hu : bits (cmdBit s (R.CRC_U_CTL u) 7 b) 2 1 = getF (setF s (F.CRC_U_CTL_POLY u) (getF s (F.CRC_U_CTL_POLY u))) (F.CRC_U_CTL_USEINIT u) := by
    rw [getF, raw_setF_getF]
    exact bits_cmdBit s _ (j := 3) hb (by decide) (by decide)
  have hc : bit (cmdBit s (R.CRC_U_CTL u) 7 b) 11 = false := (bit_cmdBit s _ (j := 3) hb (by decide) (by decide)).trans (decide_eq_false h11.symm)
  intro o i _ _
  rw [crcSet, hc, if_neg Bool.false_ne_true, hp, hu, raw_setF_getF, raw_setF_getF]

end

/-- Settles O37: each command is its register's write, START, FIN and REL as the word strobes them. -/
theorem engineRows : Obligations.EngineRows := by
  intro s m u w
  obtain ⟨hctl, -, -, -⟩ := regWrite_CRC s u w
  refine ⟨fun h => ⟨?_, ?_, ?_, ?_⟩, acts_row rfl, fun h => ⟨?_, ?_, ?_⟩, fun h => ?_, fun h => ?_, fun h => ?_⟩
  · exact acts_reg regAt_SEC_CMD h rfl ((regWrite_sec regAt_SEC_CMD).trans rfl)
  · exact acts_reg regAt_SEC_CMD h rfl ((regWrite_sec regAt_SEC_CMD).trans rfl)
  · exact acts_reg regAt_SEC_CMD h rfl ((regWrite_sec regAt_SEC_CMD).trans rfl)
  · refine acts_reg regAt_SEC_CMD h rfl ((regWrite_sec regAt_SEC_CMD).trans (?_ : secCmd s (cmdBit s R.SEC_CMD 7 9) = _))
    have hop : bits (cmdBit s R.SEC_CMD 7 9) 0 3 = getF s F.SEC_CMD_OP := bits_cmdBit s R.SEC_CMD (j := 3) (by decide) (by decide) (by decide)
    have h8 : bit (cmdBit s R.SEC_CMD 7 9) 8 = false := bit_cmdBit s _ (j := 3) (by decide) (by decide) (by decide)
    have h9 : bit (cmdBit s R.SEC_CMD 7 9) 9 = true := bit_cmdBit s _ (j := 3) (by decide) (by decide) (by decide)
    have h10 : bit (cmdBit s R.SEC_CMD 7 9) 10 = false := bit_cmdBit s _ (j := 3) (by decide) (by decide) (by decide)
    simp only [secCmd, hop, h8, h9, h10, if_true, Bool.false_eq_true, if_false]
  · have hb (i : Nat) (hi : i ≠ 8) : bit (w ||| 0x100) i = bit w i := by
      have : (0x100 : Word).getLsbD i = decide (i = 8) := by
        rw [show (0x100 : Word) = BitVec.ofNat 32 0x100 from rfl, BitVec.getLsbD_ofNat, show 0x100 = 2 ^ 8 from rfl, Nat.testBit_two_pow]
        by_cases i = 8 <;> simp_all [eq_comm]
      rw [bit, BitVec.getLsbD_or, this, decide_eq_false hi, Bool.or_false, bit]
    refine ⟨crcSet s u (w ||| 0x100), ?_, ?_, ?_, ?_, acts_reg (regAt_CRC_U_CTL u) h rfl ((regWrite_CRC s u _).1.trans ?_)⟩
    · exact crcSet_sameButRegs s u _
    · exact crcSet_only s u _
    · rw [getF_crcSet_poly]
      exact bits_congr_of_bits fun i _ hi => hb i (by omega)
    · rw [getF_crcSet_useinit]
      exact bits_congr_of_bits fun i _ hi => hb i (by omega)
    · have h8 : bit (w ||| 0x100) 8 = true := by rw [bit, BitVec.getLsbD_or, Bool.or_eq_true]; exact .inr rfl
      simp only [crcCtl_eq, h8, hb 9 (by decide), hb 10 (by decide), true_and, if_true]
  · have h8 : bit (cmdBit s (R.CRC_U_CTL u) 7 9) 8 = false := bit_cmdBit s _ (j := 3) (by decide) (by decide) (by decide)
    have h9 : bit (cmdBit s (R.CRC_U_CTL u) 7 9) 9 = true := bit_cmdBit s _ (j := 3) (by decide) (by decide) (by decide)
    have h10 : bit (cmdBit s (R.CRC_U_CTL u) 7 9) 10 = false := bit_cmdBit s _ (j := 3) (by decide) (by decide) (by decide)
    refine ⟨_, crcSet_sameButRegs s u _, crcSet_strobe s u (b := 9) (by decide) (by decide), acts_reg (regAt_CRC_U_CTL u) h rfl ((regWrite_CRC s u _).1.trans ?_)⟩
    rw [crcCtl_eq, h8, h9, h10]
    rfl
  · have h8 : bit (cmdBit s (R.CRC_U_CTL u) 7 10) 8 = false := bit_cmdBit s _ (j := 3) (by decide) (by decide) (by decide)
    have h9 : bit (cmdBit s (R.CRC_U_CTL u) 7 10) 9 = false := bit_cmdBit s _ (j := 3) (by decide) (by decide) (by decide)
    have h10 : bit (cmdBit s (R.CRC_U_CTL u) 7 10) 10 = true := bit_cmdBit s _ (j := 3) (by decide) (by decide) (by decide)
    refine ⟨_, crcSet_sameButRegs s u _, crcSet_strobe s u (b := 10) (by decide) (by decide), acts_reg (regAt_CRC_U_CTL u) h rfl ((regWrite_CRC s u _).1.trans ?_)⟩
    rw [crcCtl_eq, h8, h9, h10]
    rfl
  · exact acts_reg (regAt_CRC_U_D8 u) h rfl (regWrite_CRC s u w).2.1
  · exact acts_reg (regAt_CRC_U_D16 u) h rfl (regWrite_CRC s u w).2.2.1
  · exact acts_reg (regAt_CRC_U_D32 u) h rfl (regWrite_CRC s u w).2.2.2

end Sys2Proof.Machine
end

section
/-! PROOF. Rows of repairs, memory channels, trims, commits and the start, each its operation or its register's write. -/

namespace Sys2Proof.Machine

section
variable (s : State)

/-- A location that finds no fuse spare leaves the state. -/
theorem fuseRepair_none {loc : RepairLoc} (h : (fuseRepair s loc).2 = false) : (fuseRepair s loc).1 = s := by
  unfold fuseRepair at h ⊢
  split at h
  · cases h
  · split at h
    next h1 h2 => rw [if_neg h1, if_pos h2]
    next => cases h

/-- A repair by its mode: a fuse spare, a remap entry, or both; a record where there is none. -/
theorem repairAction_eq (loc : RepairLoc) :
    let gone := fun (t : State) => post t 0x0406 (locOf loc).2 (leBytes 4 (locOf loc).1)
    let r := mapRepair s loc
    repairAction s loc =
      if chisoRuns s = false then s
      else if repairMode s loc = 1 then (if (fuseRepair s loc).2 = true then (fuseRepair s loc).1 else gone s)
      else if repairMode s loc = 2 then (if r.2 = true then r.1 else gone r.1)
      else if r.2 = true ∨ (fuseRepair r.1 loc).2 = true then (fuseRepair r.1 loc).1
      else gone r.1 := by
  intro gone r
  unfold repairAction
  split
  · rfl
  by_cases h1 : repairMode s loc = 1
  · have h2 : repairMode s loc ≠ 2 := by omega
    simp only [if_pos h1, if_neg h2, Bool.false_or]
    split
    · rfl
    next hf => rw [fuseRepair_none s (Bool.eq_false_iff.mpr hf)]
  · by_cases h2 : repairMode s loc = 2
    · simp only [if_neg h1, if_pos h2, Bool.or_false]
      rfl
    · simp only [if_neg h1, if_neg h2, Bool.or_eq_true]
      split
      · rfl
      next hf => rw [fuseRepair_none _ (Bool.eq_false_iff.mpr fun h => hf (.inr h))]

/-- The copy of a slot to its spare, where the dies serve. -/
theorem rmCopied_of_cisUp (h : cisUp s = true) (ix : Nat) : rmCopied s ix =
    match nget s.cis.remaps ix with
    | some r => if r.pend = false ∨ s.cis.queue.any (fun g => decide (g.kind = .remap ix)) = true then s else meter s { prio := 3, kind := .remap ix }
    | none => s := by
  unfold rmCopied
  cases nget s.cis.remaps ix with
  | none => rfl
  | some r => simp only [h, Bool.true_eq_false, false_or]

/-- Training that ends well records the values it gave where they are new. -/
theorem keepTraining_setChan (c : Nat) (x : Chan) {w : Option Word} (h : x.trained = w) : keepTraining (setChan s c x) c =
    if nget (lastConf (setChan s c x)).trained c = w then setChan s c x else configRecord (setChan s c x) := by
  rw [keepTraining, chan_setChan, if_pos rfl, h]

theorem regWrite_SLC_RMAP (n : Fin 32) (k : Fin 8) (w : Word) : regWrite s (R.SLC_RMAP n k) w = rmapWrite s n k w := by
  rw [regWrite_slc (regAt_SLC_RMAP n k), writeSlc, if_neg (by omega), if_neg (by omega), if_neg (by omega), if_neg (by omega), if_pos (by omega),
    show (0xC0 + 4 * (k : Nat) - 0xC0) / 4 = k by omega]

theorem regWrite_MCH_MARK (c : Fin 4) (k : Fin 8) (w : Word) : regWrite s (R.MCH_MARK c k) w = markWrite s c k w := by
  rw [regWrite_mch (regAt_MCH_MARK c k), writeMch, if_pos (by omega), show (0x20 + 4 * (k : Nat) - 0x20) / 4 = k by omega]

theorem regWrite_MCH_CIDX (c : Fin 4) (w : Word) : regWrite s (R.MCH_CIDX c) w = cidxSnap (putReg s (R.MCH_CIDX c) w) c w := by
  rw [regWrite_mch (regAt_MCH_CIDX c), writeMch, if_neg (by decide), if_neg (by decide +revert), if_pos rfl]

end

/-- Settles O20: a repair by its mode, and the register writes as the registers' own. -/
theorem repairRows : Obligations.RepairRows := by
  intro s loc m n k die entry w
  refine ⟨acts_after rfl (repairAction_eq s loc), fun h => ?_, acts_row rfl, fun h => ?_, acts_after rfl ?_, fun h => ?_, fun h => ?_, fun h => ?_⟩
  · exact acts_reg (regAt_SLC_RMAP n k) h rfl (regWrite_SLC_RMAP s n k w)
  · exact acts_reg regAt_CST_RMDAT h rfl (regWrite_cst regAt_CST_RMDAT)
  · unfold onDies
    split
    · rfl
    next h => exact rmCopied_of_cisUp s (Bool.eq_true_of_not_eq_false fun e => h (.inr e)) _
  · exact acts_reg regAt_CST_RMIDX h rfl (regWrite_cst regAt_CST_RMIDX)
  · exact acts_reg regAt_CST_RIDX h rfl (regWrite_cst regAt_CST_RIDX)
  · exact acts_reg (regAt_SLC_DBG_IDX n) h rfl (regWrite_slc (regAt_SLC_DBG_IDX n))

/-- Settles O26: each event is one operation of its channel; marks and the counter index are register writes. -/
theorem channelRows : Obligations.ChannelRows := by
  intro s c sub rank ok m k w
  refine ⟨acts_after rfl ?_, acts_row rfl, acts_row rfl, acts_after rfl ?_, acts_row rfl, fun h => ?_, fun h => ?_⟩
  · exact ite_self _
  · simp only [atChannel, channelTrained, keepTraining_setChan _ _ _ rfl] <;> rfl
  · exact acts_reg (regAt_MCH_MARK c k) h rfl (regWrite_MCH_MARK s c k w)
  · exact acts_reg (regAt_MCH_CIDX c) h rfl (regWrite_MCH_CIDX s c w)

section
variable (s : State)

/-- A bit written as 1 beside others. -/
theorem bit_or {v m : Word} {i : Nat} (h : bit m i = true) : bit (v ||| m) i = true := by
  rw [bit, BitVec.getLsbD_or, show m.getLsbD i = true from h, Bool.or_true]

theorem vcoreReached_eq : vcoreReached s =
    if s.clk.moving = true ∧ s.clk.volt = true then
      setClk s (if s.clk.stopped = true then { s.clk with moving := false, volt := false } else { s.clk with volt := false, m := s.clk.m + 1 })
    else s := by
  unfold vcoreReached
  dsimp only
  rw [apply_ite (setClk s)]

/-- A strobe while a commit runs is COLL. -/
theorem commitStart_eq (mask : Word) :
    commitStart s mask = if s.commit.isSome = true then setF s F.CFG_COMMIT_STAT_COLL 1 else commitStart s mask := by
  split
  next h => rw [commitStart, if_pos h, flag]
  next => rfl

theorem regWrite_PMP_DRN_CTL (w : Word) (h : bit w 0 = true) : regWrite s R.PMP_DRN_CTL w = acceptSuspect (putReg s R.PMP_DRN_CTL w) := by
  refine (regWrite_pmp regAt_PMP_DRN_CTL).trans (?_ : (if bit w 0 = true then acceptSuspect (putReg s R.PMP_DRN_CTL w) else putReg s R.PMP_DRN_CTL w) = _)
  rw [if_pos h]

theorem regWrite_CLK_TRIM (w : Word) (h : bit w 14 = true) : regWrite s R.CLK_TRIM w = trimStart (putReg s R.CLK_TRIM w) := by
  rw [regWrite_clk regAt_CLK_TRIM, writeClk, if_pos ⟨rfl, h⟩]

end

/-- Settles O29: GO strobes a trim's start, and the clocks' events are each one operation. -/
theorem trimAndDvfsRows : Obligations.TrimAndDvfsRows := fun s _ _ _ _ _ _ =>
  ⟨fun h => acts_reg regAt_CLK_TRIM h rfl (regWrite_CLK_TRIM s _ (bit_or rfl)), acts_row rfl, acts_row rfl, acts_row rfl,
    acts_after rfl (vcoreReached_eq s), acts_row rfl, acts_row rfl, acts_row rfl, acts_row rfl, acts_row rfl⟩

/-- Settles O30: the strobe is COLL while a commit runs, and the sequences' ends are each one operation. -/
theorem configRows : Obligations.ConfigRows := fun s _ mask _ _ =>
  ⟨fun h => acts_reg regAt_CFG_COMMIT h rfl ((regWrite_cfg regAt_CFG_COMMIT).trans (commitStart_eq s mask)), acts_row rfl, acts_row rfl,
    acts_row rfl, acts_row rfl⟩

/-- Settles O25: each step of the start is one operation, and the register rows are their registers' writes. -/
theorem restartRows : Obligations.RestartRows := fun s _ _ _ _ _ =>
  ⟨acts_row rfl, acts_row rfl, acts_row rfl, acts_row rfl, acts_row rfl, acts_row rfl, acts_row rfl, acts_row rfl, acts_row rfl,
    fun h => acts_reg regAt_GEN_RST h rfl (regWrite_gen regAt_GEN_RST),
    fun h => acts_reg regAt_PMP_DRN_CTL h rfl (regWrite_PMP_DRN_CTL s _ (bit_or rfl)),
    fun h => acts_reg regAt_PMU_MCU h rfl (regWrite_pmu regAt_PMU_MCU),
    fun h => acts_reg regAt_FED_ARST h rfl (regWrite_feda regAt_FED_ARST)⟩

end Sys2Proof.Machine
end

section
/-! PROOF. What the power-on of AON leaves, and the accesses to registers and to the event queue (R268, R292, R293, R308). -/

namespace Sys2Proof.Machine

theorem storeTorn_idle {s : State} (h : s.journal.jobs = []) : (storeTorn s).journal = s.journal := by
  rw [storeTorn, h]

/-- Settles O23: what needs no power is copied, and the rest is as after reset. -/
theorem powerOnForgets : Obligations.PowerOnForgets :=
  ⟨fun s => ⟨aonOn s, rfl, fun _ => ⟨rfl, rfl⟩, rfl, rfl, rfl, rfl, rfl, rfl, rfl, rfl, rfl, rfl, rfl, rfl, rfl, rfl, rfl, rfl, rfl, rfl, rfl, rfl, rfl, rfl,
    rfl, rfl, rfl, rfl, rfl, rfl, rfl, rfl, rfl, storeTorn_idle⟩, fun s => ⟨settled s (aonOn s), rfl, rfl⟩⟩

section
variable (s : State) (m : Master)

/-- How an access of 4 bytes by its offset ends: its outcome, logged as a completer abort for the host where it fails (R292). -/
theorem csrDeliver_cmd (off : Nat) (b : Bool) (w x : BitVec 64) {cause : Nat} (h : cause ≠ 0) :
    csrDeliver s { m := m, off := off, wr := b, w := w } x cause = emit (if m = .host then aer (pciErr s F.PCI_ERR_CA) 1 else s) (.regDone m off x cause) := by
  simp [csrDeliver, h]

theorem csrDeliver_done (off : Nat) (b : Bool) (w x : BitVec 64) :
    csrDeliver s { m := m, off := off, wr := b, w := w } x 0 = emit s (.regDone m off x 0) := by
  simp [csrDeliver]

/-- A pair toward a device that is not present (R295). -/
theorem indAt_absent (a : CsrAcc) {k : Nat} (h : present s (getF s (F.CFG_IND_ADDR_DEV k)) = false) : indAt s a k = .fail 2 := by
  rw [indAt, if_pos h]

/-- A pair toward this device reaches the register its address names (R295). -/
theorem indAt_here (a : CsrAcc) {k : Nat} (hi : indPair (getF s (F.CFG_IND_ADDR_OFF k) * 4) = none) (hd : getF s (F.CFG_IND_ADDR_DEV k) = self s)
    (hp : present s (getF s (F.CFG_IND_ADDR_DEV k)) = true) : indAt s a k = csrAt s a (getF s (F.CFG_IND_ADDR_OFF k) * 4) := by
  rw [indAt, if_neg (by simp [hp]), if_neg (by simp [hi]), if_pos hd]

end

theorem indPair_CFG_IND_DATA : ∀ k : Fin 4, indPair (R.CFG_IND_DATA k) = some k.val ∧ R.CFG_IND_DATA k % 4 = 0 := by decide

/-- Settles O31: an access is refused for its alignment or its block, served, ended late, or sent on through a pair. -/
theorem registerRows : Obligations.RegisterRows := by
  refine ⟨fun s m off w => ⟨fun h => acts_after rfl ?_, fun h4 hi h => ?_, fun h4 hi h1 h2 h => ?_, acts_row rfl⟩, fun s m k w => ?_⟩
  · rw [csrPut, if_pos h, csrDeliver_cmd _ _ _ _ _ _ (by decide)]
  · exact acts_after rfl (csrPut_serves h h4 hi)
  · exact acts_after rfl (csrPut_refused h1 h2 h4 hi h)
  · obtain ⟨hk, h4⟩ := indPair_CFG_IND_DATA k
    intro data off dev h1 h2 hi
    refine ⟨fun hd hp h hpop => ⟨acts_after rfl ?_, acts_after rfl ?_⟩, fun hp => ⟨acts_after rfl ?_, acts_after rfl ?_⟩⟩
    · rw [csrGet, csrArrive_free _ h1 h2, csrRun_pair _ k rfl rfl hk, indAt_here s _ hi hd hp, csrAt_serves_read h rfl hpop]
      exact csrDeliver_done ..
    · rw [csrPut, if_neg (by omega), csrArrive_free _ h1 h2, csrRun_pair _ k rfl rfl hk, indAt_here s _ hi hd hp, csrAt_serves_write h rfl, word_of_put]
      exact csrDeliver_done ..
    · rw [csrGet, csrArrive_free _ h1 h2, csrRun_pair _ k rfl rfl hk, indAt_absent s _ hp]
      exact csrDeliver_cmd _ _ _ _ _ _ (by decide)
    · rw [csrPut, if_neg (by omega), csrArrive_free _ h1 h2, csrRun_pair _ k rfl rfl hk, indAt_absent s _ hp]
      exact csrDeliver_cmd _ _ _ _ _ _ (by decide)

/-- A pop that the root serves (R308). -/
theorem csrAt_pop {s : State} {a : CsrAcc} (h : Serves s R.EVQ_POP) (hw : a.wr = false) : csrAt s a R.EVQ_POP =
    match s.evq.recs with
    | r :: rest => .done (popNow s a.m r rest) (r.headD 0)
    | [] =>
      if getF s F.EVQ_CFG_STALL = 0 then .done (popEmpty s a.m) emptyToken
      else .wait { s with evq := { s.evq with waiters := s.evq.waiters ++ [a] } } :=
  (if_neg (serves_block h)).trans ((if_neg (serves_clock h)).trans ((if_neg (by simp [hw])).trans (if_pos rfl)))

/-- Settles O32: a pop is an access of 4 bytes that the queue answers, or that waits for it. -/
theorem popRows : Obligations.PopRows := by
  intro s m
  refine ⟨fun h => acts_after rfl ?_, acts_row rfl⟩
  rw [csrGet, csrArrive_free _ h.1 h.2.1, csrRun_four _ rfl rfl (show indPair R.EVQ_POP = none by decide), csrAt_pop h rfl]
  cases s.evq.recs with
  | cons r rest => exact csrDeliver_done ..
  | nil =>
    dsimp only
    by_cases h0 : getF s F.EVQ_CFG_STALL = 0
    · rw [if_pos h0, if_pos h0]
      exact csrDeliver_done ..
    · rw [if_neg h0, if_neg h0]

end Sys2Proof.Machine
end

section
/-! PROOF. Rows of the host, its DMA channels, the mailboxes and the dictionary (R313–R330). -/

namespace Sys2Proof.Machine

section
variable (s : State)

/-- Past the end of the window a read is unsupported, as in D3hot (R314). -/
theorem bar2Read_eq (off len tag : Nat) : bar2Read s off len tag =
    if pcieUp s = false then pcieAbsent s tag
    else if s.pcie.d3hot = true then unsupported s (some tag)
    else if 0x10000000 < off + len then unsupported s (some tag)
    else
      let t := npTake s { tag := tag, csr := false, off := off, len := len, before := s.pcie.inNext, left := barLines s off len }
      if gated s = true then npDone t s.pcie.npNext (fun q => { q with failed := true }) else push t .inq := by
  unfold bar2Read
  rw [ite_or]

theorem bar2Write_eq (off : Nat) (bytes : List (Option Byte)) (ep th : Bool) (st : Byte) : bar2Write s off bytes ep th st =
    if pcieUp s = false then s
    else if s.pcie.d3hot = true then unsupported s none
    else if 0x10000000 < off + bytes.length then unsupported s none
    else if gated s = true then { s with pcie := { s.pcie with discarded := s.pcie.discarded + 1 } }
    else
      let stash := if th = true ∧ effF s F.PCI_CTL_TPH_EN = 1 then steer st else none
      let t := if ep = true then aer (pciErr s F.PCI_ERR_POIS_RX) 0 else s
      push (inqRoom (piecesIn t (piecesOf (0x3F0000000000 + self s * 0x10000000 + off) bytes ep stash))) .inq := by
  unfold bar2Write
  rw [ite_or]

end

/-- Settles O33: each row is one operation of the endpoint. -/
theorem hostRows : Obligations.HostRows := by
  intro s off o2 o4 len tag bytes b2 ep th st w v c
  refine ⟨acts_row rfl, acts_row rfl, acts_row rfl, acts_after rfl (bar2Read_eq s _ len tag), acts_after rfl (bar2Write_eq s _ b2 ep th st), acts_row rfl,
    acts_row rfl, ?_, acts_row rfl⟩
  simp only [List.forall_mem_cons]
  exact ⟨acts_row rfl, acts_row rfl, acts_row rfl, by rintro _ ⟨⟩⟩

section
variable (s : State) (c : Fin 2)

theorem regWrite_PCI_DMA_TAIL (w : Word) : regWrite s (R.PCI_DMA_TAIL c) w = push (putReg s (R.PCI_DMA_TAIL c) w) (.dma c) := by
  rw [regWrite_pci (regAt_PCI_DMA_TAIL c)]
  fin_cases c <;> rfl

theorem regWrite_PCI_DMA_CTL (w : Word) : regWrite s (R.PCI_DMA_CTL c) w = dmaCtl s c w := by
  rw [regWrite_pci (regAt_PCI_DMA_CTL c)]
  fin_cases c <;> rfl

/-- A bit is the field of one bit there. -/
theorem bit_iff_bits (w : Word) (i : Nat) : bit w i = true ↔ bits w i 1 = 1 := by
  have h := testBit_bits w i 1 0
  have hlt : bits w i 1 < 2 := Nat.mod_lt _ (by decide)
  rw [show bit w i = (bits w i 1).testBit 0 by simpa [bit] using h.symm, Nat.testBit_zero, decide_eq_true_eq, Nat.mod_eq_of_lt hlt]

/-- EN alone (R323). -/
theorem dmaCtl_enable : dmaCtl s c 1 =
    let t := setF s (F.PCI_DMA_CTL_EN c) 1
    push (if getF t (F.PCI_DMA_STAT_STATE c) = 2 then setF t (F.PCI_DMA_STAT_STATE c) 0 else t) (.dma c) := by
  have h0 : bits (1 : Word) 0 1 = 1 := by decide
  have h1 : bit (1 : Word) 1 = false := by decide
  simp only [dmaCtl, bit_iff_bits _ 0, h0, h1, true_and, Bool.false_eq_true, if_false]

/-- ABORT with EN as it was: the channel runs on where EN reads 1 (R323). -/
theorem dmaCtl_abort : dmaCtl s c (cmdBit s (R.PCI_DMA_CTL c) 1 1) =
    let t := dmaAbort (setF s (F.PCI_DMA_CTL_EN c) (getF s (F.PCI_DMA_CTL_EN c))) c true
    push (if getF s (F.PCI_DMA_CTL_EN c) = 1 then (if getF t (F.PCI_DMA_STAT_STATE c) = 2 then setF t (F.PCI_DMA_STAT_STATE c) 0 else t) else t) (.dma c) := by
  have h0 : bits (cmdBit s (R.PCI_DMA_CTL c) 1 1) 0 1 = getF s (F.PCI_DMA_CTL_EN c) := bits_cmdBit s _ (j := 1) (by decide) (by decide) (by decide)
  have h1 : bit (cmdBit s (R.PCI_DMA_CTL c) 1 1) 1 = true := bit_cmdBit s _ (j := 1) (by decide) (by decide) (by decide)
  simp only [dmaCtl, bit_iff_bits _ 0, h0, h1, if_true, ite_and]

end

/-- Settles O34: TAIL, EN and ABORT are register writes, and the channel's events are each one operation. -/
theorem dmaRows : Obligations.DmaRows := fun s _ c w _ _ _ _ =>
  ⟨fun h => acts_reg (regAt_PCI_DMA_TAIL c) h rfl (regWrite_PCI_DMA_TAIL s c w),
    fun h => acts_reg (regAt_PCI_DMA_CTL c) h rfl ((regWrite_PCI_DMA_CTL s c 1).trans (dmaCtl_enable s c)),
    fun h => acts_reg (regAt_PCI_DMA_CTL c) h rfl ((regWrite_PCI_DMA_CTL s c _).trans (dmaCtl_abort s c)),
    acts_row rfl, acts_row rfl, acts_row rfl⟩

theorem regWrite_mbxCmd (s : State) (b : Mbx) (w : Word) : regWrite s (mbxCmdReg b) w = mbxStart s b w := by
  cases b
  · exact regWrite_pci regAt_PCI_MBX_CMD
  · exact regWrite_can regAt_CAN_MBX_CMD

theorem regWrite_mbxCtl (s : State) (b : Mbx) (w : Word) : regWrite s (mbxCtlReg b) w = mbxCtl s b w := by
  cases b
  · exact regWrite_pci regAt_PCI_MBX_CTL
  · exact regWrite_can regAt_CAN_MBX_CTL

theorem regAt_mbxCmd (b : Mbx) : ∃ blk n o, RegAt (mbxCmdReg b) blk n o := by
  cases b
  · exact ⟨_, _, _, regAt_PCI_MBX_CMD⟩
  · exact ⟨_, _, _, regAt_CAN_MBX_CMD⟩

theorem regAt_mbxCtl (b : Mbx) : ∃ blk n o, RegAt (mbxCtlReg b) blk n o := by
  cases b
  · exact ⟨_, _, _, regAt_PCI_MBX_CTL⟩
  · exact ⟨_, _, _, regAt_CAN_MBX_CTL⟩

/-- Settles O35: a row is the dictionary request it names; START and REL are writes of the mailbox's registers. -/
theorem dictionaryRows : Obligations.DictionaryRows := by
  refine ⟨fun s sub sig slot off bytes v nonce => ⟨acts_row rfl, acts_row rfl, acts_row rfl, acts_row rfl, acts_row rfl, acts_row rfl, acts_row rfl,
    acts_row rfl, acts_row rfl, acts_row rfl, acts_row rfl⟩, fun s m b w => ⟨fun h => ?_, fun h => ?_⟩⟩
  · obtain ⟨_, _, _, hr⟩ := regAt_mbxCmd b
    exact acts_reg hr h rfl (regWrite_mbxCmd s b _)
  · obtain ⟨_, _, _, hr⟩ := regAt_mbxCtl b
    exact acts_reg hr h rfl (regWrite_mbxCtl s b 1)

end Sys2Proof.Machine
end

section
/-! PROOF. Rows of the CAN node and of the federation (R329–R337, R367–R380). -/

namespace Sys2Proof.Machine

section
variable (s : State)

/-- What an SDO frame does, by its command specifier (R334). -/
theorem sdoArrive_upload {f : BitVec 64} (h : fCcs f = 2) : sdoArrive s f =
    if canHears s = false then s
    else askDict (setSdo s none) { src := .sdo none, index := fIndex f, sub := fSub f, wr := false, len := 0x1000000 } := by
  simp [sdoArrive, sdoUpload, h]

theorem sdoArrive_abort {f : BitVec 64} (h : fCcs f = 4) : sdoArrive s f =
    if canHears s = false then s else { setSdo s none with dictq := dropDict s.dictq isSdo } := by
  simp [sdoArrive, sdoAbort, h]

theorem sdoArrive_segment {f : BitVec 64} (h : fCcs f = 0 ∨ fCcs f = 3) : sdoArrive s f = sdoSegment s f := by
  rw [sdoArrive, if_neg (by omega), if_neg (by omega), if_neg (by omega)]

theorem sdoArrive_reserved {f : BitVec 64} (h : 4 < fCcs f) : sdoArrive s f = if canHears s = false then s else sdoBad s f := by
  rw [sdoArrive, if_neg (by omega), if_neg (by omega), if_neg (by omega), sdoSegment,
    if_pos (show fCcs f ≠ 0 ∧ fCcs f ≠ 3 by omega)]

theorem sdoTimeout_heard : (if chisoRuns s = true then sdoTimeout s else s) =
    if chisoRuns s = false then s
    else match s.can.sdo with
      | none => s
      | some x => sdoFail (setF (setSdo s none) F.CAN_ERR_SDO_TO 1) x.index x.sub 0x05040000 := by
  cases chisoRuns s <;> rfl

/-- What a Wellhead frame does, by its operation (R337). -/
theorem wellArrive_abort {g : Line} (h : wOp g = 7) : wellArrive s g =
    if wellHears s = false then s else if s.can.well.isSome = true then wellStop s else s := by
  simp [wellArrive, wellAbort, h]

theorem wellArrive_open {g : Line} (h3 : wOp g ≠ 3) (h4 : wOp g ≠ 4) (h5 : wOp g ≠ 5) (h7 : wOp g ≠ 7) : wellArrive s g = wellOpen s g := by
  rw [wellArrive, if_neg h3, if_neg h4, if_neg h5, if_neg h7]

end

/-- The rows by which an SDO frame arrives are one arrival, and those by which a Wellhead frame does. -/
theorem exec_sdo (s : State) (f : BitVec 64) :
    ∀ r ∈ [Instr.sdoDownload f, .sdoUpload f, .sdoSegment f, .sdoAbort f], exec r s = after s (sdoArrive s f) := by
  simp only [List.forall_mem_cons]
  exact ⟨rfl, rfl, rfl, rfl, by rintro _ ⟨⟩⟩

theorem exec_well (s : State) (g : Line) :
    ∀ r ∈ [Instr.wellheadOpen g, .wellheadData g, .wellheadAck g, .wellheadEnd g, .wellheadAbort g], exec r s = after s (wellArrive s g) := by
  simp only [List.forall_mem_cons]
  exact ⟨rfl, rfl, rfl, rfl, rfl, by rintro _ ⟨⟩⟩

/-- Settles O36: frames act by what they carry, whichever row brings them; the other rows are each one operation. -/
theorem networkRows : Obligations.NetworkRows := by
  intro s n f g k
  refine ⟨acts_row rfl, acts_row rfl, acts_row rfl, acts_row rfl, acts_row rfl, fun r hr => ?_, acts_after rfl (sdoTimeout_heard s), fun r hr => ?_,
    acts_after rfl ?_, acts_row rfl,
    acts_row rfl, acts_row rfl, acts_row rfl, acts_row rfl, acts_row rfl⟩
  · have e := exec_sdo s f r hr
    exact ⟨fun h => acts_after e (if_pos h), fun h => acts_after e (sdoArrive_upload s h), fun h => acts_after e (sdoArrive_abort s h),
      fun h => acts_after e (sdoArrive_segment s h), fun h => acts_after e (sdoArrive_reserved s h)⟩
  · have e := exec_well s g r hr
    refine ⟨fun h => acts_after e (if_pos h), fun h => acts_after e ?_, fun h => acts_after e ?_, fun h => acts_after e (wellArrive_abort s h),
      fun h3 h4 h5 h7 => acts_after e (wellArrive_open s h3 h4 h5 h7)⟩
    · rw [wellArrive, if_neg (by omega), if_pos h]
    · rw [wellArrive, if_neg (by omega), if_neg (by omega), if_pos h]
  · rw [wellTimeout, ite_and]

/-! Link control of the federation. -/

section
variable (s : State) (l : Fin 3) (f : Flit)

variable {s l f} in
theorem recvLctl_ident (h : f.opc = 4) : recvLctl s (.vl l) f = recvIdent s l f := by simp only [recvLctl, h]
variable {s l f} in
theorem recvLctl_identAck (h : f.opc = 5) : recvLctl s (.vl l) f = recvIdentAck s l f := by simp only [recvLctl, h]
variable {s l f} in
theorem recvLctl_epoch (h : f.opc = 6) : recvLctl s (.vl l) f = recvEpoch s l f := by simp only [recvLctl, h]
variable {s l f} in
theorem recvLctl_epochAck (h : f.opc = 7) : recvLctl s (.vl l) f = recvEpochAck s l f := by simp only [recvLctl, h]
variable {s l f} in
theorem recvLctl_stand (h : f.opc = 8) : recvLctl s (.vl l) f = recvStand s l f := by simp only [recvLctl, h]

/-- The notice's kind is its first byte (R371). -/
theorem notice_kind (d : Line) : d.toNat % 256 = (lineByte d 0).toNat := by
  simp [lineByte]

/-- A notice by its kind (R23, R130, R200, R371, R379). -/
def noticeAct (k : Nat) : State :=
  match k with
  | 1 => recvSag s l f
  | 2 => recvDead s l f
  | 3 => recvLeave s l f
  | 4 => recvLeft s l f
  | 5 => recvNoQueue s l f
  | _ => lctlElse s l f

theorem recvLctl_notice (h : f.opc = 9) : recvLctl s (.vl l) f = noticeAct s l f (lineByte f.data 0).toNat := by
  simp only [recvLctl, h, notice_kind]
  rfl

theorem noticeAct_other {k : Nat} (h : k = 0 ∨ 5 < k) : noticeAct s l f k = lctlElse s l f := by
  unfold noticeAct
  split
  case h_6 => rfl
  all_goals omega

theorem identResend_eq :
    identResend s l = if ltssm s (.vl l) = 5 ∧ (vl s l).lnk.capAck = false then sendIdent s l else s := by
  rw [identResend, vlS_val]

theorem recvEpoch_eq :
    let b := fun (i : Nat) => (lineByte f.data i).toNat
    let t := fedPrepare s (b 0) (b 1 % 16) (b 2) (b 3 % 4)
    recvEpoch s l f = if lctlUp s l f = false then lctlElse s l f else emit t (.flit (.vl l) (lctlFlit (.vl l) 7 (ackOf (vl t l).lnk) 0)) := by
  simp only [recvEpoch, lctl, vlS_val]
  rfl

end

/-- REDO: the digest is shown anew, and the links identify themselves again (R372). -/
theorem regWrite_FED_GCTL (s : State) : regWrite s R.FED_GCTL 1 =
    push (identAll (showDigest (putReg s R.FED_GCTL 1) (raw (putReg s R.FED_GCTL 1)))) .fed := by
  rw [regWrite_feda regAt_FED_GCTL, writeFeda, if_pos ⟨rfl, by decide⟩, fedRedo]

/-- Settles O38: link control by its subtype and a notice by its kind; the timers and REDO are each one operation. -/
theorem federationRows : Obligations.FederationRows := by
  intro s m l f d
  refine ⟨fun i hi h3 => ?_, acts_after rfl (identResend_eq s l), acts_row rfl, acts_row rfl, acts_row rfl, acts_row rfl, fun h => ?_⟩
  · have arrives {u : State} (e : recvLctl s (.vl l) f = u) : Acts i s u := acts_arrives hi ((recvFlit_lctl h3).trans e)
    have notice (h : f.opc = 9) {k : Nat} (hb : (lineByte f.data 0).toNat = k) {u : State} (e : noticeAct s l f k = u) : Acts i s u :=
      arrives ((recvLctl_notice s l f h).trans (by rw [hb, e]))
    exact ⟨fun h => arrives (recvLctl_ident h), fun h => arrives (recvLctl_identAck h), fun h => arrives ((recvLctl_epoch h).trans (recvEpoch_eq s l f)),
      fun h => arrives (recvLctl_epochAck h), fun h => arrives (recvLctl_stand h), fun h hb => notice h hb rfl,
      fun h hb => notice h hb rfl, fun h hb => notice h hb rfl, fun h hb => notice h hb rfl, fun h hb => notice h hb rfl,
      fun h hb => notice h rfl (noticeAct_other s l f hb)⟩
  · exact acts_reg regAt_FED_GCTL h rfl (regWrite_FED_GCTL s)

end Sys2Proof.Machine
end
